-- ==== Sys2Proof/Word.lean ====
section
/-!
DEFINITION. The word types of the model and their plainest arithmetic.
Numbers in the spec are little-endian and bit 0 is the least significant bit (R9).
-/

namespace Sys2Proof

abbrev Byte := BitVec 8
abbrev W16 := BitVec 16
abbrev W32 := BitVec 32
abbrev W48 := BitVec 48
abbrev W64 := BitVec 64
abbrev W96 := BitVec 96

/-- The two builds of the block (R1): the leaf (L) and the tray build (T). -/
inductive Build where
  | leaf | tray
deriving DecidableEq, Repr

/-- `BitVec` from a natural number, the width read from the context. -/
abbrev bv {w : Nat} (n : Nat) : BitVec w := BitVec.ofNat w n

end Sys2Proof
end

