-- ==== Sys2Proof/Machine/Bits.lean ====
section
/-!
DEFINITION. Bit fields, saturating counts, byte order, checksums and packed layouts: the helpers every other file uses.
-/

namespace Sys2Proof.Machine

/-- The `n` bits of `x` from bit `lo` up, as a number. -/
def fld {w : Nat} (x : BitVec w) (lo n : Nat) : Nat := (x.toNat >>> lo) % 2 ^ n

/-- Bit `i` of `x`. -/
def bit {w : Nat} (x : BitVec w) (i : Nat) : Bool := x.getLsbD i

/-- `x` with the `n` bits from `lo` up replaced by the low bits of `v`. -/
def setFld {w : Nat} (x : BitVec w) (lo n v : Nat) : BitVec w :=
  let m : BitVec w := BitVec.ofNat w ((2 ^ n - 1) <<< lo)
  (x &&& ~~~m) ||| (BitVec.ofNat w (v <<< lo) &&& m)

/-- `x` with bit `i` set to `b`. -/
def setBit {w : Nat} (x : BitVec w) (i : Nat) (b : Bool) : BitVec w := setFld x i 1 b.toNat

/-- Addition that stops at `max`. -/
def satAdd (x y max : Nat) : Nat := if x + y ≤ max then x + y else max

/-- A 32-bit counter that stops at all ones. -/
def satInc32 (x : W32) : W32 := if x = 0xFFFFFFFF#32 then x else x + 1

/-- Sign of a `w`-bit difference (R36): `a` is at or after `b`. -/
def reached64 (now t : W64) : Bool := decide (0 ≤ (now - t).toInt)

/-- Step indices compare by signed difference (R36): `a` is after `b`. -/
def stepAfter (a b : W32) : Bool := decide (0 < (a - b).toInt)

/-- Step indices compare by signed difference (R36): `a` is at or after `b`. -/
def stepReached (a b : W32) : Bool := decide (0 ≤ (a - b).toInt)

/-- The little-endian bytes of a number, `n` of them (R9). -/
def leBytes : Nat → Nat → List Byte
  | 0, _ => []
  | n + 1, v => BitVec.ofNat 8 v :: leBytes n (v / 256)

/-- The number that little-endian bytes spell (R9). -/
def leVal : List Byte → Nat
  | [] => 0
  | b :: t => b.toNat + 256 * leVal t

/-- The big-endian bytes of a number, used where a published standard fixes the order (R9). -/
def beBytes (n v : Nat) : List Byte := (leBytes n v).reverse

/-- The number that big-endian bytes spell. -/
def beVal (l : List Byte) : Nat := leVal l.reverse

/-- `n` bytes of `l` from offset `off`; bytes beyond the end read 0. -/
def bytesAt (l : List Byte) (off n : Nat) : List Byte :=
  let t := (l.drop off).take n
  t ++ List.replicate (n - t.length) 0

/-- The little-endian number of `n` bytes at offset `off`. -/
def numAt (l : List Byte) (off n : Nat) : Nat := leVal (bytesAt l off n)

/-- One field of a packed layout: byte offset, size in bytes, value. -/
structure Field where
  off : Nat
  size : Nat
  val : Nat
deriving DecidableEq, Repr

/-- `l` with `v` laid over it from offset `off`; the length stays. -/
def overlay (l : List Byte) (off : Nat) (v : List Byte) : List Byte :=
  let pre := l.take off
  let mid := v.take (l.length - pre.length)
  pre ++ mid ++ l.drop (pre.length + mid.length)

/-- A body of `len` bytes holding the given fields little-endian, every other byte 0. -/
def layout (len : Nat) (fs : List Field) : List Byte :=
  fs.foldl (fun acc f => overlay acc f.off (leBytes f.size f.val)) (List.replicate len 0)

/-- Shorthand for a field. -/
abbrev fd (off size val : Nat) : Field := ⟨off, size, val⟩

/-- A packed number: `layout` read as one little-endian value, for payloads. -/
def packNat (fs : List Field) : Nat :=
  fs.foldl (fun acc f => acc ||| ((f.val % 2 ^ (8 * f.size)) <<< (8 * f.off))) 0

/-- One bit step of the reflected CRC-32C (Castagnoli) polynomial. PRESUMED: the published polynomial 0x1EDC6F41. -/
def crcBit (c : W32) : W32 :=
  if c.getLsbD 0 then (c >>> 1) ^^^ 0x82F63B78#32 else c >>> 1

/-- One byte of CRC-32C. -/
def crcByte (c : W32) (b : Byte) : W32 :=
  crcBit (crcBit (crcBit (crcBit (crcBit (crcBit (crcBit (crcBit (c ^^^ b.setWidth 32))))))))

/-- CRC-32C over bytes: initial value and final inversion all ones. -/
def crc32c (l : List Byte) : W32 := ~~~(l.foldl crcByte 0xFFFFFFFF#32)

/-- The ceiling of `a / b`; 0 where `b` is 0. -/
def ceilDiv (a b : Nat) : Nat := (a + b - 1) / b

/-- Numbers of ones among the low `n` bits of `x`. -/
def popBelow (x : Nat) : Nat → Nat
  | 0 => 0
  | n + 1 => popBelow x n + (if x.testBit n then 1 else 0)

/-- The positions below `n` that `p` holds for, in ascending order. -/
def idxWhere (n : Nat) (p : Nat → Bool) : List Nat := (List.range n).filter p

end Sys2Proof.Machine
end

