-- ==== Sys2Proof/Machine/SMap.lean ====
section
/-!
DEFINITION. Sparse data by key: a list of (key, value) pairs with keys strictly rising, so that equal maps are equal data.
Register files, memories, counters and tables of the block are all held this way.
-/

namespace Sys2Proof.Machine

/-- A sparse map: pairs sorted by key, no key twice. -/
abbrev SMap (α : Type) := List (Nat × α)

/-- The value at a key. -/
def smGet? {α : Type} : SMap α → Nat → Option α
  | [], _ => none
  | (k, v) :: t, a => if k = a then some v else smGet? t a

/-- The value at a key, or a default. -/
def smGet {α : Type} (m : SMap α) (a : Nat) (d : α) : α := (smGet? m a).getD d

/-- Set the value at a key, keeping the order. -/
def smPut {α : Type} : SMap α → Nat → α → SMap α
  | [], a, v => [(a, v)]
  | (k, w) :: t, a, v =>
    if a < k then (a, v) :: (k, w) :: t
    else if a = k then (a, v) :: t
    else (k, w) :: smPut t a v

/-- Remove a key. -/
def smDel {α : Type} : SMap α → Nat → SMap α
  | [], _ => []
  | (k, w) :: t, a => if k = a then smDel t a else (k, w) :: smDel t a

/-- Set the value at a key of a map whose unlisted keys read as `d`: writing `d` removes the entry, so the form stays canonical. -/
def smSet {α : Type} [DecidableEq α] (m : SMap α) (a : Nat) (v d : α) : SMap α :=
  if v = d then smDel m a else smPut m a v

/-- Change the value at a key. -/
def smUpd {α : Type} (m : SMap α) (a : Nat) (d : α) (f : α → α) : SMap α := smPut m a (f (smGet m a d))

/-- Change the value at a key that is listed; others stay. -/
def smMod {α : Type} (m : SMap α) (a : Nat) (f : α → α) : SMap α :=
  match smGet? m a with
  | some v => smPut m a (f v)
  | none => m

/-- Change every value of a map. -/
def smMap {α β : Type} (f : α → β) (m : SMap α) : SMap β := m.map (fun e => (e.1, f e.2))

/-- Keys strictly rising. -/
def smSorted {α : Type} : SMap α → Bool
  | [] => true
  | [_] => true
  | (k, _) :: (k', v') :: t => decide (k < k') && smSorted ((k', v') :: t)

/-- The canonical form: keys strictly rising and no entry equal to what an unlisted key reads as. -/
def smCanon {α : Type} [DecidableEq α] (m : SMap α) (d : Nat → α) : Bool :=
  smSorted m && m.all (fun e => decide (e.2 ≠ d e.1))

/-- A byte map with a list of bytes written from address `a` up; unlisted addresses read `d`. -/
def smWriteBytes (m : SMap Byte) (a : Nat) (d : Byte) : List Byte → SMap Byte
  | [] => m
  | b :: t => smWriteBytes (smSet m a b d) (a + 1) d t

/-- The `n` bytes of a byte map from address `a` up. -/
def smReadBytes (m : SMap Byte) (a : Nat) (d : Byte) : Nat → List Byte
  | 0 => []
  | n + 1 => smGet m a d :: smReadBytes m (a + 1) d n

end Sys2Proof.Machine
end

