-- ==== Sys2Proof/Machine/LinkTypes.lean ====
section
/-!
DEFINITION. Messages, egress queues, gates, links and timestamp queues as data (spec/08_frames_links_scheduling.md,
spec/17_power_reset_hotplug.md for keepalives, spec/19_identity_protection.md for envelope epochs and counters).
-/

namespace Sys2Proof.Machine

/-- One item of the frame port (R158, R417): 64 bytes as 16 words, each with its even parity bit and its poison tag; the start and end marks; and
the byte count, valid with the end mark. -/
structure Item where
  data : List Byte
  parity : BitVec 16
  poison : BitVec 16
  start : Bool
  stop : Bool
  count : BitVec 7
deriving DecidableEq, Repr

/-- The idle item (R159). -/
def Item.idle : Item := ⟨List.replicate 64 0, 0, 0, true, true, 0⟩

/-- An item is the idle item: the only one with both marks and a count of 0 (R417). -/
def Item.isIdle (i : Item) : Bool := i.start && i.stop && decide (i.count = 0)

/-- One message of the egress buffer (R163, R167, R168). `kind` 0 is a whole time frame outside the saggar (R162). `lseq` is
given when the message is first sent. `commitAt` is when it was committed and `sentAt` when it was last sent. `parity` holds the parity bit that
the buffer stores with each word of the body (R161), and `badWord` tells that a relayed harvest carries poison. `dest` is the destination of a message to a sender the tree table does not name. `ingress` tells that a time frame
is forwarded: the TB0 time it arrived at and the link delay that is added with its residence time (R56). -/
structure Msg where
  kind : Nat
  link : Nat
  body : List Byte
  isAck : Bool
  notice : Bool
  tag : W32
  launch : Option W64
  late : Bool
  commitAt : Nat
  sentAt : Nat
  lseq : Option W32
  restart : Bool
  resent : Bool
  badWord : Bool
  parity : List Bool
  dest : Option W48
  ingress : Option (W96 × W64)
deriving DecidableEq, Repr

/-- An entry of the transmit timestamp queue (R177). -/
structure TsEntry where
  e0 : W32
  e1 : W32
  ns : W64
deriving DecidableEq, Repr

/-- The packet on the port: the message, when its last beat leaves at SCH.RATE, and when its gate closes; that follows changes of TB0 and of the gate list. -/
structure OnPort where
  msg : Msg
  queue : Nat
  endAt : Nat
  bytes : Nat
  closes : Option Nat
deriving DecidableEq, Repr

/-- One bank of a gate list (R172): GLEN and the entries. -/
structure GateBank where
  glen : Nat
  gates : SMap W32
deriving DecidableEq, Repr

/-- One port's egress buffer, scheduler, gates and timestamp queue: the leaf has port 0, the T build ports 0 to 7. `swapFrom` is the TB0 time from which a
pending swap looks for a cycle start (R172). -/
structure Port where
  queues : SMap (List Msg)
  waiting : SMap (List Msg)
  deficit : SMap Nat
  round : Nat
  granted : Bool
  onPort : Option OnPort
  bank0 : GateBank
  bank1 : GateBank
  activeBank : Bool
  swapPend : Bool
  swapFrom : W64
  mask : Byte
  tsq : List TsEntry
  sampleAt : W64
  linkUp : Bool
  anDone : Bool
  trained : Bool
  phy : BitVec 4
  stopped : Bool
deriving DecidableEq, Repr

/-- One link: to the parent (0), the alternate parent (1) or a child (2 and up, its tree-table entry). `boot` is the
envelope counter sent in the bootstrap epoch 0 (R408). -/
structure Link where
  sendSeq : SMap W32
  restartDue : Byte
  base : SMap W32
  retained : List Msg
  resends : Nat
  acked : Option W32
  down : Bool
  downAt : Nat
  restartAt : Nat
  admitted : Bool
  adopted : Bool
  keepAt : Nat
  epoch : Byte
  oldEpoch : Option Byte
  txCtr : Nat
  rxCtr : Nat
  rxCtr0 : Nat
  handshake : Option Byte
  node : W32
  boot : Nat
deriving DecidableEq, Repr

/-- A tree-table entry (R451). -/
structure TreeEntry where
  node : W32
  attr : W32
  mac : W48
deriving DecidableEq, Repr

def GateBank.reset : GateBank := { glen := 1, gates := [] }

def Port.reset : Port :=
  { queues := [], waiting := [], deficit := [], round := 2, granted := false, onPort := none, bank0 := GateBank.reset,
    bank1 := GateBank.reset, activeBank := false, swapPend := false, swapFrom := 0, mask := 0xFF, tsq := [], sampleAt := 0, linkUp := false,
    anDone := false, trained := false, phy := 0, stopped := false }

def Link.reset : Link :=
  { sendSeq := [], restartDue := 0xFF, base := [], retained := [], resends := 0, acked := none, down := false,
    downAt := 0, restartAt := 0, admitted := false, adopted := false, keepAt := 0, epoch := 0, oldEpoch := none,
    txCtr := 0, rxCtr := 0, rxCtr0 := 0, handshake := none, node := 0, boot := 0 }

end Sys2Proof.Machine
end

