-- ==== Sys2Proof/Machine/MsgTypes.lean ====
section
/-!
DEFINITION. Messages as data: what arrives at a port (R158 to R163, R181, R408) and the control messages of containment (R292), of
start, attach and replay (R342) and of transactions and references. They are operands of the commands that receive them.
-/

namespace Sys2Proof.Machine

/-- A containment message, control code 0x0005 (R292). -/
structure CtnMsg where
  sub : Byte
  kind : Byte
  arg : W16
  job : W32
  leaf : W32
  rseq : W32
  step : W32
  status : Byte
  r : W16
  node : W32
deriving DecidableEq, Repr

/-- The body of a containment message after code and length. -/
def CtnMsg.rest (m : CtnMsg) : List Byte :=
  layout 28 [fd 0 1 m.sub.toNat, fd 1 1 m.kind.toNat, fd 2 2 m.arg.toNat, fd 4 4 m.job.toNat, fd 8 4 m.leaf.toNat,
    fd 0xC 4 m.rseq.toNat, fd 0x10 4 m.step.toNat, fd 0x14 1 m.status.toNat, fd 0x16 2 m.r.toNat, fd 0x18 4 m.node.toNat]

/-- A containment message read from a control body. -/
def CtnMsg.read (l : List Byte) : CtnMsg :=
  ⟨bv (numAt l 4 1), bv (numAt l 5 1), bv (numAt l 6 2), bv (numAt l 8 4), bv (numAt l 0xC 4), bv (numAt l 0x10 4), bv (numAt l 0x14 4),
    bv (numAt l 0x18 1), bv (numAt l 0x1A 2), bv (numAt l 0x1C 4)⟩

/-- A start message, control code 0x0006 (R342); teardown parts and their acknowledgements carry the same fields (R354). -/
structure StartMsg where
  sub : Byte
  flags : Byte
  part : Byte
  parts : Byte
  job : W32
  bseq : W32
  txid : W32
  slot : Byte
  epoch : Byte
  status : Byte
  leaf : W32
  step : W32
  data : List Byte
deriving DecidableEq, Repr

/-- The body of a start message after code and length. -/
def StartMsg.rest (m : StartMsg) : List Byte :=
  layout 60 [fd 0 1 m.sub.toNat, fd 1 1 m.flags.toNat, fd 2 1 m.part.toNat, fd 3 1 m.parts.toNat, fd 4 4 m.job.toNat,
    fd 8 4 m.bseq.toNat, fd 0xC 4 m.txid.toNat, fd 0x10 1 m.slot.toNat, fd 0x11 1 m.epoch.toNat, fd 0x12 1 m.status.toNat,
    fd 0x14 4 m.leaf.toNat, fd 0x18 4 m.step.toNat] ++ m.data

/-- A start message read from a control body. -/
def StartMsg.read (l : List Byte) : StartMsg :=
  ⟨bv (numAt l 4 1), bv (numAt l 5 1), bv (numAt l 6 1), bv (numAt l 7 1), bv (numAt l 8 4), bv (numAt l 0xC 4), bv (numAt l 0x10 4),
    bv (numAt l 0x14 1), bv (numAt l 0x15 1), bv (numAt l 0x16 1), bv (numAt l 0x18 4), bv (numAt l 0x1C 4), l.drop 0x40⟩

/-- A packet as it arrives on the frame port or an Ethernet port. At the leaf `items` are the items it came in (R158): up to the one with the end
mark, or, where it is cut, up to the next start mark; one idle item is no packet (R159). At the T build `fecUnc` and `fecCor` count the codewords
found uncorrectable and corrected with this frame, and `errored` tells that an uncorrectable one touches it (R181, R182). `port` is the Ethernet port, `src` the source and `dst` the destination address; `size` the frame's bytes. A time frame has its IEEE 1588 message in `body`.
A saggar frame has its envelope (`epoch`, `ctr`, whether the tag verifies), its link header and its body in clear; `verdict` is what checking the identity
material in it gives (R406): 0, or a detail. -/
structure Packet where
  port : BitVec 3
  src : W48
  dst : W48
  size : W16
  items : List Item
  errored : Bool
  fecUnc : W16
  fecCor : W16
  etherType : W16
  epoch : Byte
  ctr : W64
  tagOk : Bool
  kind : Byte
  qf : Byte
  len : W16
  lseq : W32
  body : List Byte
  verdict : Byte
deriving DecidableEq, Repr

/-- The queue field and the restart flag of the link header (R163). -/
def Packet.queue (p : Packet) : Nat := fld p.qf 0 3
def Packet.restart (p : Packet) : Bool := bit p.qf 5

/-- The egress queue that R163 gives a kind; none for a reserved kind. -/
def kindQueue (k : Nat) : Option Nat :=
  match k with
  | 1 => some 2 | 2 => some 5 | 3 => some 6 | 4 => some 1 | 5 => some 4 | 6 => some 7 | 7 => some 0
  | _ => none

/-- The code of a control body, and whether its length field agrees with it (R165). -/
def ctlCode (body : List Byte) : Nat := numAt body 0 2
def ctlLenOk (body : List Byte) : Bool := decide (4 ≤ body.length) && decide (numAt body 2 2 = body.length)
def ctlSub (body : List Byte) : Nat := numAt body 4 1

end Sys2Proof.Machine
end

