-- ==== Sys2Proof/Config.lean ====
section
/-!
DEFINITION. The free values of the model: what the spec leaves open. Each is opaque, so no proof can see what it is, and a
statement about it holds whatever it is.
-/

namespace Sys2Proof.Config

open Sys2Proof

/-- The code of a record that the spec names without giving its code. -/
opaque recordCode (page n : Nat) : W16

/-- The severity of a record that the spec names without giving its severity. -/
opaque recordSeverity (page n : Nat) : BitVec 4

/-- The payload bytes of a record whose payload layout the spec does not give. -/
opaque recordPayload (page n : Nat) (data : List Nat) : BitVec 160

/-- What a byte of a unit's host memory that nothing has written reads as. -/
opaque hostByte (addr : Nat) : Byte

/-- The source address of a T-build Ethernet port, which no register or table of the spec holds (R451). -/
opaque portMac (port : Nat) : W48

/-- The fixed latencies of a T-build port's PHY between the medium and the port's PCS reference plane, as TB0 time: of what it receives and of what
it sends (R56). -/
opaque phyRx (port : Nat) : W96
opaque phyTx (port : Nat) : W96

/-- The compressed form of a block's body: what encoder setting `set` writes for `block` after the frame's earlier bytes (R328 names
the encoders but does not fix every choice they make). -/
opaque zBlock (set : Nat) (before block : List Byte) : List Byte

/-- A byte of a destination that the spec calls undefined. -/
opaque undefByte (fresh i : Nat) : Byte

/-- The patch level of the part (R3), `PGVER` [15:8]. -/
opaque patchLevel : Byte

/-- The package-internal straps (R429): 0 Vendor ID, 1 Device ID, 2 Subsystem Vendor ID, 3 Subsystem ID. -/
opaque strap (i : Nat) : W16

/-- What memory BIST finds of memory array `i`: pass or fail (R436), a fact of the part. -/
opaque bistPass (fresh i : Nat) : Bool

/-- What the clock monitor measures, in kilohertz (R436). -/
opaque clockKHz (tray : Bool) (fresh : Nat) : Nat

/-- What the loopback and eye instrument of a port's lane measures: eye width and height (R436). -/
opaque eye (port lane fresh : Nat) : Nat × Nat

/-- The margin that LPDDR5X channel `i` trained with (R436). -/
opaque lpMargin (i : Nat) : Nat

/-- The design digest of a build, fixed in silicon (R403). -/
opaque designDigest (tray : Bool) : BitVec 384

/-- The device public key that a measurement of the PUF gives at an enrolment (R396): x and y, with the leading 0x04. -/
opaque deviceKey (fresh : Nat) : BitVec 776

/-- Byte `i` of a signature by the alias or device key (R404, R405). -/
opaque signatureByte (fresh i : Nat) : Byte

/-- What a hello or an accept carries from byte 0x10 of its body on: nonce, ephemeral key, certificates and signature (R405). -/
opaque helloTail (fresh : Nat) : List Byte

/-- The value that the backoff generator of a build is seeded with at its `fresh`-th free value: it comes from the PUF (R367). -/
opaque pufSeed (tray : Bool) (fresh : Nat) : W32

/-- The AES-256-GCM tag of a saggar frame that is sent (R408): it comes from keys that the model does not hold. -/
opaque gcmTag (fresh : Nat) : BitVec 128

/-- A draw of the backoff generator (R367). -/
opaque backoffDraw (seed : W32) (k : Nat) : Nat

/-- Whether the signature section of a Gulti package verifies against an operator key over the package's bytes (R252, R399): ECDSA P-384 over
SHA-384, which the spec takes from the published standards. -/
opaque packageSigned (key : BitVec 776) (body sig : List Byte) : Bool

/-- Whether a flash write of the identity that a supply warning held succeeds once it goes on (log entry 115). -/
opaque heldFlashOk (fresh : Nat) : Bool

/-- A byte of the brine store where the spec lays nothing out (harvest staging, journal, port and message buffers, and an empty place of event
staging), read at cycle `time` after `fresh` free values: what stands there changes as the machine runs. -/
opaque brineByte (fresh time addr : Nat) : Byte

/-- How many chunks a member's snapshot of a step has, where the census holder is not told (R355): no message of the spec carries it. -/
opaque snapshotChunks (leaf step : W32) : Nat

/-- The state of the PCI Express link as `PCI.STS` shows it, for the `n`-th free value taken: link up, speed and width are the slot's and the training's. -/
opaque pciLink (n : Nat) : W32

end Sys2Proof.Config
end

