-- ==== Sys2Proof/Machine/Regs.lean ====
section
/-!
DEFINITION. The register pages (spec/21_register_pages.md and the register tables of every chapter): a key for each register,
the bits software may write, and the reset values of R452. A key is page type × 0x1000 + offset; where a page has several
copies (ETHp, QMG page k) or a selector chooses what its registers show (CONE.SEL, SCH.PSEL, HLT.SSEL ...), copy n adds
n × 0x100000. TBS_… of the leaf and of the T build are the same keys: each build has its own register file.
-/

namespace Sys2Proof.Machine

/-- The key of copy `n` of a register. -/
abbrev inst (r n : Nat) : Nat := r + n * 0x100000

namespace R


/-! BLK page. -/
abbrev BLK_NPAGE : Nat := 0x0040
abbrev BLK_BADACC : Nat := 0x0044
abbrev BLK_SCRATCH : Nat := 0x0048
abbrev BLK_RST : Nat := 0x0050
abbrev BLK_RSTCAUSE : Nat := 0x0054
abbrev BLK_DBG : Nat := 0x0058

/-! TBS page. -/
abbrev TBS_TB0_NSL : Nat := 0x1040
abbrev TBS_TB0_NSH : Nat := 0x1044
abbrev TBS_TB0_FRAC : Nat := 0x1048
abbrev TBS_TB1_CAPL : Nat := 0x104C
abbrev TBS_TB1_CAPH : Nat := 0x1050
abbrev TBS_INC_FRAC : Nat := 0x1054
abbrev TBS_INC_NS : Nat := 0x1058
abbrev TBS_OFS_NSL : Nat := 0x1060
abbrev TBS_OFS_NSH : Nat := 0x1064
abbrev TBS_OFS_FRAC : Nat := 0x1068
abbrev TBS_OFS_GO : Nat := 0x106C
abbrev TBS_HOLDTO : Nat := 0x1070
abbrev TBS_STS : Nat := 0x1074
abbrev TBS_TXLAT : Nat := 0x1078
abbrev TBS_RXLAT : Nat := 0x107C
abbrev TBS_TB1_L : Nat := 0x1080
abbrev TBS_TB1_H : Nat := 0x1084
abbrev TBS_PPSCAP_NSL : Nat := 0x1100
abbrev TBS_PPSCAP_NSH : Nat := 0x1104
abbrev TBS_PPSCAP_FRAC : Nat := 0x1108
abbrev TBS_PPSW : Nat := 0x110C
abbrev TBS_PTPMODE : Nat := 0x1110
abbrev TBS_PLD : Nat := 0x1140

/-! STEP page. -/
abbrev STEP_CTL : Nat := 0x2040
abbrev STEP_MARK : Nat := 0x2044
abbrev STEP_IDX : Nat := 0x2048
abbrev STEP_ANG : Nat := 0x204C
abbrev STEP_PER_L : Nat := 0x2050
abbrev STEP_PER_H : Nat := 0x2054
abbrev STEP_LASTM_L : Nat := 0x2058
abbrev STEP_LASTM_H : Nat := 0x205C
abbrev STEP_PSEED_L : Nat := 0x2060
abbrev STEP_PSEED_H : Nat := 0x2064
abbrev STEP_IDX_SET : Nat := 0x2068
abbrev STEP_CNT : Nat := 0x206C
abbrev STEP_CAP_L : Nat := 0x2070
abbrev STEP_CAP_H : Nat := 0x2074
abbrev STEP_MINPER : Nat := 0x2078
abbrev STEP_STS : Nat := 0x207C
abbrev STEP_SSEL : Nat := 0x20C0
abbrev STEP_CNT_GAP : Nat := 0x20C4
abbrev STEP_SRC_P : Nat := 0x20C8
abbrev STEP_SRC_S : Nat := 0x20CC
abbrev STEP_SRCSTS : Nat := 0x20D0

/-! SMP page. -/
abbrev SMP_CTL : Nat := 0x3040
abbrev SMP_STS : Nat := 0x3044
abbrev SMP_RINGLAT : Nat := 0x3048
abbrev SMP_JOB : Nat := 0x304C
abbrev SMP_CRED : Nat := 0x3054
abbrev SMP_SEQ : Nat := 0x305C
abbrev SMP_CNT : Nat := 0x3064
abbrev SMP_FRAMES : Nat := 0x306C
abbrev SMP_LEAFNO : Nat := 0x3074

/-! CNT page. -/
abbrev CNT_IDX : Nat := 0x4040
abbrev CNT_VAL_L : Nat := 0x4044
abbrev CNT_VAL_H : Nat := 0x4048
abbrev CNT_CAP_L : Nat := 0x404C
abbrev CNT_CAP_H : Nat := 0x4050
abbrev CNT_STS : Nat := 0x4054
abbrev CNT_CLRALL : Nat := 0x4058
abbrev CNT_MAPIDX : Nat := 0x405C
abbrev CNT_MAPVAL : Nat := 0x4060
abbrev CNT_UNPRIV : Nat := 0x4064
abbrev CNT_RINGERR : Nat := 0x4068
abbrev CNT_MISMATCH : Nat := 0x406C

/-! BWW page. -/

/-! TRC page. -/
abbrev TRC_CTL : Nat := 0x6040
abbrev TRC_STS : Nat := 0x6044
abbrev TRC_RBASE_L : Nat := 0x6048
abbrev TRC_RBASE_H : Nat := 0x604C
abbrev TRC_RSIZE : Nat := 0x6050
abbrev TRC_WPTR : Nat := 0x6054
abbrev TRC_RPTR : Nat := 0x6058
abbrev TRC_FILL : Nat := 0x605C
abbrev TRC_WIN : Nat := 0x6060
abbrev TRC_NOTE : Nat := 0x6064
abbrev TRC_FLUSH : Nat := 0x6068
abbrev TRC_CTLLOST : Nat := 0x606C
abbrev TRC_SRC_CFG : Nat := 0x6080
abbrev TRC_SRC_PKTS : Nat := 0x6084
abbrev TRC_SRC_LOST : Nat := 0x6088
abbrev TRC_SRC_USE : Nat := 0x608C

/-! TRF page. -/

/-! EVR page. -/
abbrev EVR_SEQ : Nat := 0x8040
abbrev EVR_COAL : Nat := 0x8044
abbrev EVR_FILL : Nat := 0x8048
abbrev EVR_LOST : Nat := 0x804C
abbrev EVR_LOSTTOT : Nat := 0x8050

/-! HIS page. -/
abbrev HIS_CTL : Nat := 0x9040
abbrev HIS_STS : Nat := 0x9044
abbrev HIS_BASE_L : Nat := 0x9048
abbrev HIS_BASE_H : Nat := 0x904C
abbrev HIS_NBLK : Nat := 0x9050
abbrev HIS_WPOS : Nat := 0x9054
abbrev HIS_GEN : Nat := 0x9058
abbrev HIS_LOST : Nat := 0x905C
abbrev HIS_ABANDON : Nat := 0x9060
abbrev HIS_OPSEC : Nat := 0x9064
abbrev HIS_PCYC : Nat := 0x9068
abbrev HIS_RPOS : Nat := 0x906C
abbrev HIS_RDATA : Nat := 0x9080

/-! CONE page. -/
abbrev CONE_SEL : Nat := 0xA040
abbrev CONE_CFG : Nat := 0xA044
abbrev CONE_REG : Nat := 0xA048
abbrev CONE_BEND_L : Nat := 0xA04C
abbrev CONE_BEND_H : Nat := 0xA050
abbrev CONE_PCLIM : Nat := 0xA054
abbrev CONE_INSLIM : Nat := 0xA058
abbrev CONE_HW_L : Nat := 0xA05C
abbrev CONE_HW_H : Nat := 0xA060
abbrev CONE_PCNT : Nat := 0xA064
abbrev CONE_INS : Nat := 0xA068
abbrev CONE_STS : Nat := 0xA06C
abbrev CONE_ID : Nat := 0xA070
abbrev CONE_CMD : Nat := 0xA080
abbrev CONE_TIDX : Nat := 0xA084
abbrev CONE_TVAL : Nat := 0xA088
abbrev CONE_POLL : Nat := 0xA08C
abbrev CONE_CKPT : Nat := 0xA090

/-! KST page. -/
abbrev KST_CTL : Nat := 0xB040
abbrev KST_STS : Nat := 0xB044
abbrev KST_HUNG_L : Nat := 0xB048
abbrev KST_HUNG_H : Nat := 0xB04C
abbrev KST_RPL : Nat := 0xB050
abbrev KST_RSTDLY : Nat := 0xB054
abbrev KST_CTXERR : Nat := 0xB058
abbrev KST_CMD : Nat := 0xB05C
abbrev KST_SIDX : Nat := 0xB060
abbrev KST_SVAL : Nat := 0xB064
abbrev KST_ENG_CFG : Nat := 0xB080
abbrev KST_TO : Nat := 0xB084
abbrev KST_DOM_CFG : Nat := 0xB280
abbrev KST_DOM_STS : Nat := 0xB284
abbrev KST_HAZ : Nat := 0xB288
abbrev KST_RSTCNT : Nat := 0xB28C

/-! DMP page. -/
abbrev DMP_CTL : Nat := 0xC040
abbrev DMP_STS : Nat := 0xC044
abbrev DMP_CMD : Nat := 0xC048
abbrev DMP_ATO : Nat := 0xC04C
abbrev DMP_DTO : Nat := 0xC050
abbrev DMP_WTO : Nat := 0xC054
abbrev DMP_BUF_L : Nat := 0xC058
abbrev DMP_BUF_H : Nat := 0xC05C
abbrev DMP_BUFSZ : Nat := 0xC060
abbrev DMP_DUMPID : Nat := 0xC064
abbrev DMP_LEN : Nat := 0xC068
abbrev DMP_POISON : Nat := 0xC06C
abbrev DMP_DROPPED : Nat := 0xC070
abbrev DMP_DIDX : Nat := 0xC074
abbrev DMP_DVAL : Nat := 0xC078
abbrev DMP_NDESC : Nat := 0xC07C

/-! SNG page. -/
abbrev SNG_CTL : Nat := 0xD040
abbrev SNG_NREG : Nat := 0xD044
abbrev SNG_BASE_L : Nat := 0xD048
abbrev SNG_BASE_H : Nat := 0xD04C
abbrev SNG_GTO : Nat := 0xD050
abbrev SNG_CMD : Nat := 0xD054
abbrev SNG_STS : Nat := 0xD058
abbrev SNG_SNAPID : Nat := 0xD05C
abbrev SNG_COPIED : Nat := 0xD060
abbrev SNG_STEP : Nat := 0xD064
abbrev SNG_ANG : Nat := 0xD068
abbrev SNG_EPOCH : Nat := 0xD06C
abbrev SNG_HOLDS : Nat := 0xD070
abbrev SNG_MAXHOLD : Nat := 0xD074
abbrev SNG_REFUSED : Nat := 0xD078
abbrev SNG_TORNCNT : Nat := 0xD07C
abbrev SNG_ERR : Nat := 0xD080

/-! FPR page. -/
abbrev FPR_CTL : Nat := 0xE040
abbrev FPR_STS : Nat := 0xE044
abbrev FPR_NCHUNK : Nat := 0xE048
abbrev FPR_DONE : Nat := 0xE04C
abbrev FPR_BYTES_L : Nat := 0xE050
abbrev FPR_BYTES_H : Nat := 0xE054
abbrev FPR_FSEQ : Nat := 0xE058
abbrev FPR_DIDX : Nat := 0xE05C
abbrev FPR_DVAL : Nat := 0xE060
abbrev FPR_NWRITE : Nat := 0xE064
abbrev FPR_NSKIP : Nat := 0xE068
abbrev FPR_NEXCL : Nat := 0xE06C
abbrev FPR_ERR : Nat := 0xE070
abbrev FPR_STALE : Nat := 0xE074

/-! CMP page. -/
abbrev CMP_JOB : Nat := 0xF040
abbrev CMP_SRC_L : Nat := 0xF044
abbrev CMP_SRC_H : Nat := 0xF048
abbrev CMP_DST_L : Nat := 0xF04C
abbrev CMP_DST_H : Nat := 0xF050
abbrev CMP_LEN : Nat := 0xF054
abbrev CMP_LIMIT : Nat := 0xF058
abbrev CMP_CMD : Nat := 0xF05C
abbrev CMP_STS : Nat := 0xF060
abbrev CMP_RES_OUT : Nat := 0xF064
abbrev CMP_RES_IN : Nat := 0xF068
abbrev CMP_VFAIL : Nat := 0xF06C

/-! CMPT page. -/
abbrev CMPT_EFAIL : Nat := 0xF040
abbrev CMPT_IN_L : Nat := 0xF044
abbrev CMPT_IN_H : Nat := 0xF048
abbrev CMPT_OUT_L : Nat := 0xF04C
abbrev CMPT_OUT_H : Nat := 0xF050
abbrev CMPT_STOPS : Nat := 0xF054
abbrev CMPT_FMTERR : Nat := 0xF058
abbrev CMPT_VFAIL : Nat := 0xF05C

/-! LNK page. -/
abbrev LNK_CTL : Nat := 0x10040
abbrev LNK_STS : Nat := 0x10044
abbrev LNK_ETYPE : Nat := 0x10048
abbrev LNK_SMAC_L : Nat := 0x1004C
abbrev LNK_SMAC_H : Nat := 0x10050
abbrev LNK_PMAC0_L : Nat := 0x10054
abbrev LNK_PMAC0_H : Nat := 0x10058
abbrev LNK_PMAC1_L : Nat := 0x1005C
abbrev LNK_PMAC1_H : Nat := 0x10060
abbrev LNK_VLAN : Nat := 0x10064
abbrev LNK_ACKTO : Nat := 0x10068
abbrev LNK_RETRY : Nat := 0x1006C
abbrev LNK_TXCTL : Nat := 0x10070
abbrev LNK_TXTAG : Nat := 0x10074
abbrev LNK_TXAT_L : Nat := 0x10078
abbrev LNK_TXAT_H : Nat := 0x1007C
abbrev LNK_TXSTS : Nat := 0x10080
abbrev LNK_RXFRM : Nat := 0x10084
abbrev LNK_RXBAD : Nat := 0x10088
abbrev LNK_RXDUP : Nat := 0x1008C
abbrev LNK_RXGAP : Nat := 0x10090
abbrev LNK_EPOIS : Nat := 0x10094
abbrev LNK_RESENT : Nat := 0x10098
abbrev LNK_KEEP : Nat := 0x1009C
abbrev LNK_TIDX : Nat := 0x100A0
abbrev LNK_TNODE : Nat := 0x100A4
abbrev LNK_TATTR : Nat := 0x100A8
abbrev LNK_TMAC_L : Nat := 0x100AC
abbrev LNK_TMAC_H : Nat := 0x100B0
abbrev LNK_TXBUF : Nat := 0x10200

/-! SCH page. -/
abbrev SCH_PSEL : Nat := 0x11040
abbrev SCH_CTL : Nat := 0x11044
abbrev SCH_STS : Nat := 0x11048
abbrev SCH_RATE : Nat := 0x1104C
abbrev SCH_OVH : Nat := 0x11050
abbrev SCH_GUARD : Nat := 0x11054
abbrev SCH_GBASE_L : Nat := 0x11058
abbrev SCH_GBASE_H : Nat := 0x1105C
abbrev SCH_GCYC : Nat := 0x11060
abbrev SCH_GLEN : Nat := 0x11064
abbrev SCH_SPER : Nat := 0x11068
abbrev SCH_LATE : Nat := 0x1106C
abbrev SCH_GATE : Nat := 0x11080
abbrev SCH_WGT : Nat := 0x110C0
abbrev SCH_QLIM : Nat := 0x110E0
abbrev SCH_DEPTH : Nat := 0x11100
abbrev SCH_DELAY : Nat := 0x11104
abbrev SCH_MAXD : Nat := 0x11108
abbrev SCH_SENT : Nat := 0x1110C
abbrev SCH_BYTES_L : Nat := 0x11110
abbrev SCH_BYTES_H : Nat := 0x11114
abbrev SCH_DROP : Nat := 0x11118
abbrev SCH_OVR : Nat := 0x1111C

/-! TSQ page. -/
abbrev TSQ_PSEL : Nat := 0x12040
abbrev TSQ_STS : Nat := 0x12044
abbrev TSQ_LOST : Nat := 0x12048
abbrev TSQ_E0 : Nat := 0x12050
abbrev TSQ_E1 : Nat := 0x12054
abbrev TSQ_E2 : Nat := 0x12058
abbrev TSQ_E3 : Nat := 0x1205C

/-! IDN page. -/
abbrev IDN_STS : Nat := 0x13040
abbrev IDN_CMD : Nat := 0x13044
abbrev IDN_CFGSEQ_L : Nat := 0x13048
abbrev IDN_CFGSEQ_H : Nat := 0x1304C
abbrev IDN_POLICY : Nat := 0x13050
abbrev IDN_ROLE : Nat := 0x13054
abbrev IDN_CFGADDR_L : Nat := 0x13058
abbrev IDN_CFGADDR_H : Nat := 0x1305C
abbrev IDN_CFGLEN : Nat := 0x13060
abbrev IDN_RPTADDR_L : Nat := 0x13064
abbrev IDN_RPTADDR_H : Nat := 0x13068
abbrev IDN_MSEL : Nat := 0x1306C
abbrev IDN_EXTIDX : Nat := 0x13070
abbrev IDN_KSEL : Nat := 0x13074
abbrev IDN_KROLE : Nat := 0x13078
abbrev IDN_HSFAIL : Nat := 0x1307C
abbrev IDN_NONCE : Nat := 0x13080
abbrev IDN_KEYID : Nat := 0x130A0
abbrev IDN_EXTBUF : Nat := 0x13100
abbrev IDN_MEAS : Nat := 0x13140
abbrev IDN_DEVPUB : Nat := 0x13180

/-! PWR page. -/
abbrev PWR_STS : Nat := 0x14040
abbrev PWR_LEVELS : Nat := 0x14044
abbrev PWR_WLONG : Nat := 0x14048
abbrev PWR_DIPCNT : Nat := 0x1404C
abbrev PWR_MINCODE : Nat := 0x14050
abbrev PWR_CMD : Nat := 0x14054
abbrev PWR_HRATE : Nat := 0x14058
abbrev PWR_HDROP : Nat := 0x1405C
abbrev PWR_HREF : Nat := 0x14060
abbrev PWR_EARLY : Nat := 0x14064
abbrev PWR_STAGEC : Nat := 0x14068
abbrev PWR_KIDS : Nat := 0x1406C
abbrev PWR_ICAP : Nat := 0x14080
abbrev PWR_ISSUE : Nat := 0x14084
abbrev PWR_IMEAN : Nat := 0x14088
abbrev PWR_THRTIME : Nat := 0x1408C
abbrev PWR_TJ : Nat := 0x14090
abbrev PWR_TJHOT : Nat := 0x14094
abbrev PWR_TJPEAK : Nat := 0x14098

/-! ERR page. -/
abbrev ERR_CTL : Nat := 0x15040
abbrev ERR_FIRST : Nat := 0x15044
abbrev ERR_FIRSTT_L : Nat := 0x15048
abbrev ERR_FIRSTT_H : Nat := 0x1504C
abbrev ERR_ISPACE : Nat := 0x15050
abbrev ERR_IADDR_L : Nat := 0x15054
abbrev ERR_IADDR_H : Nat := 0x15058
abbrev ERR_INJFIRED : Nat := 0x1505C
abbrev ERR_INJREF : Nat := 0x15060
abbrev ERR_CELIM : Nat := 0x15064
abbrev ERR_AUTHFAIL : Nat := 0x15068
abbrev ERR_REPLAY : Nat := 0x1506C
abbrev ERR_CSPAR : Nat := 0x15070
abbrev ERR_SUM : Nat := 0x15100

/-! HEV page. -/
abbrev HEV_CTL : Nat := 0x16040
abbrev HEV_STS : Nat := 0x16044
abbrev HEV_BASE_L : Nat := 0x16048
abbrev HEV_BASE_H : Nat := 0x1604C
abbrev HEV_WB_L : Nat := 0x16050
abbrev HEV_WB_H : Nat := 0x16054
abbrev HEV_PI : Nat := 0x16058
abbrev HEV_CI : Nat := 0x1605C
abbrev HEV_TOOLONG : Nat := 0x16060
abbrev HEV_DMAERR : Nat := 0x16064

/-! HEVT page. -/
abbrev HEVT_QSEL : Nat := 0x16040
abbrev HEVT_BASE_L : Nat := 0x16044
abbrev HEVT_BASE_H : Nat := 0x16048
abbrev HEVT_WB_L : Nat := 0x1604C
abbrev HEVT_WB_H : Nat := 0x16050
abbrev HEVT_LOST : Nat := 0x16054
abbrev HEVT_SPEAK : Nat := 0x16058
abbrev HEVT_TOOLONG : Nat := 0x1605C
abbrev HEVT_ROUTE : Nat := 0x16400
abbrev HEVT_CI : Nat := 0x16800

/-! CTN page. -/
abbrev CTN_STS : Nat := 0x17040
abbrev CTN_ACKTO : Nat := 0x17044
abbrev CTN_RSEQ : Nat := 0x17048
abbrev CTN_JOB : Nat := 0x1704C
abbrev CTN_REQS : Nat := 0x17050
abbrev CTN_TIMEOUTS : Nat := 0x17054

/-! ASTB page. -/
abbrev ASTB_CTL : Nat := 0x18240
abbrev ASTB_STS : Nat := 0x18244

/-! SEL page. -/
abbrev SEL_IDX : Nat := 0x19040
abbrev SEL_ENT : Nat := 0x19044
abbrev SEL_LEN : Nat := 0x19048
abbrev SEL_SWAP : Nat := 0x19050
abbrev SEL_GEN : Nat := 0x19054
abbrev SEL_STS : Nat := 0x1905C
abbrev SEL_ALEN : Nat := 0x19060

/-! ENG page. -/
abbrev ENG_CCTL : Nat := 0x20040
abbrev ENG_CSTS : Nat := 0x20044
abbrev ENG_CDISP : Nat := 0x20048
abbrev ENG_CJRN : Nat := 0x2004C
abbrev ENG_HOPM : Nat := 0x20100
abbrev ENG_OUTTO : Nat := 0x20104
abbrev ENG_TXOPEN : Nat := 0x20108
abbrev ENG_TXDOUBT : Nat := 0x2010C
abbrev ENG_JFILL : Nat := 0x20110

/-! ING page. -/
abbrev ING_RTO : Nat := 0x21040
abbrev ING_DEC_HI : Nat := 0x21044
abbrev ING_DEC_LO : Nat := 0x21048
abbrev ING_DEC_HOLD : Nat := 0x2104C
abbrev ING_DSLOT : Nat := 0x21050
abbrev ING_DEC_MIN : Nat := 0x21054
abbrev ING_NORING : Nat := 0x21058
abbrev ING_INCOMP : Nat := 0x2105C
abbrev ING_CRCERR : Nat := 0x21060
abbrev ING_DUP : Nat := 0x21064
abbrev ING_FPOIS : Nat := 0x21068

/-! NOC page. -/
abbrev NOC_DSEL : Nat := 0x22040
abbrev NOC_DSTALL : Nat := 0x22044
abbrev NOC_DFLITS_L : Nat := 0x22048
abbrev NOC_DFLITS_H : Nat := 0x2204C
abbrev NOC_MCUSED : Nat := 0x22050
abbrev NOC_CREDSTALL : Nat := 0x22054

/-! STL page. -/
abbrev STL_CTL : Nat := 0x23040
abbrev STL_BACKOFF : Nat := 0x23044
abbrev STL_REQ : Nat := 0x23048
abbrev STL_GRANT : Nat := 0x2304C
abbrev STL_REFUSE : Nat := 0x23050
abbrev STL_MOVED : Nat := 0x23054

/-! PAN page. -/
abbrev PAN_NODE : Nat := 0x24040
abbrev PAN_PSEL : Nat := 0x24044
abbrev PAN_PSTS : Nat := 0x24048
abbrev PAN_HSEQ : Nat := 0x2404C
abbrev PAN_LATE : Nat := 0x24050
abbrev PAN_OOW : Nat := 0x24054
abbrev PAN_STALE : Nat := 0x24058
abbrev PAN_CLIPPED : Nat := 0x2405C
abbrev PAN_CUTS : Nat := 0x24060
abbrev PAN_NPSET : Nat := 0x24064
abbrev PAN_MISMATCH : Nat := 0x24068

/-! MDL page. -/
abbrev MDL_HSEL : Nat := 0x25040
abbrev MDL_HSTS : Nat := 0x25044
abbrev MDL_PADDR_L : Nat := 0x25048
abbrev MDL_PADDR_H : Nat := 0x2504C
abbrev MDL_NBYTES_L : Nat := 0x25050
abbrev MDL_NBYTES_H : Nat := 0x25054
abbrev MDL_SBYTES_L : Nat := 0x25058
abbrev MDL_SBYTES_H : Nat := 0x2505C
abbrev MDL_BCUT : Nat := 0x25060
abbrev MDL_SBUDGET : Nat := 0x25064
abbrev MDL_SUSED : Nat := 0x25068
abbrev MDL_BWAIT : Nat := 0x2506C
abbrev MDL_SSTALL : Nat := 0x25070
abbrev MDL_BATCHES : Nat := 0x25074
abbrev MDL_SHORTB : Nat := 0x25078
abbrev MDL_NLOADED : Nat := 0x2507C
abbrev MDL_REFCORE : Nat := 0x25080
abbrev MDL_REFWORD : Nat := 0x25084

/-! SCO page. -/
abbrev SCO_SWAIT : Nat := 0x26040
abbrev SCO_SCORES : Nat := 0x26044
abbrev SCO_EXPIRED : Nat := 0x26048
abbrev SCO_LATEP : Nat := 0x2604C
abbrev SCO_POISON : Nat := 0x26050
abbrev SCO_GSTALL : Nat := 0x26054
abbrev SCO_GSEL : Nat := 0x26058
abbrev SCO_GFILL : Nat := 0x2605C
abbrev SCO_GPEAK : Nat := 0x26060
abbrev SCO_NOMODEL : Nat := 0x26064

/-! HRV page. -/
abbrev HRV_SFILL : Nat := 0x27040
abbrev HRV_SPEAK : Nat := 0x27044
abbrev HRV_RSEL : Nat := 0x27048
abbrev HRV_RBASE_L : Nat := 0x2704C
abbrev HRV_RBASE_H : Nat := 0x27050
abbrev HRV_RCFG : Nat := 0x27054
abbrev HRV_RPI : Nat := 0x27058
abbrev HRV_RCI : Nat := 0x2705C
abbrev HRV_RWAIT : Nat := 0x27060
abbrev HRV_PACED : Nat := 0x27064

/-! MEM page. -/
abbrev MEM_STS : Nat := 0x28040
abbrev MEM_CORES : Nat := 0x28044
abbrev MEM_GIDX : Nat := 0x28048
abbrev MEM_GVAL : Nat := 0x2804C
abbrev MEM_SCRUB : Nat := 0x28050
abbrev MEM_SCE : Nat := 0x28054
abbrev MEM_SUE : Nat := 0x28058
abbrev MEM_BCE : Nat := 0x2805C
abbrev MEM_BUE : Nat := 0x28060
abbrev MEM_LPCTL : Nat := 0x28064
abbrev MEM_LPSTR : Nat := 0x28068
abbrev MEM_LPDMP : Nat := 0x2806C
abbrev MEM_LPHIS : Nat := 0x28070
abbrev MEM_LPCE : Nat := 0x28074
abbrev MEM_LPUE : Nat := 0x28078

/-! PCI page. -/
abbrev PCI_STS : Nat := 0x29040
abbrev PCI_AERUNC : Nat := 0x29044
abbrev PCI_LINKDN : Nat := 0x29048
abbrev PCI_POISRX : Nat := 0x2904C

/-! HLT page. -/
abbrev HLT_SSEL : Nat := 0x2A040
abbrev HLT_SCFG : Nat := 0x2A044
abbrev HLT_SCFG2 : Nat := 0x2A048
abbrev HLT_ARR : Nat := 0x2A04C
abbrev HLT_LVL : Nat := 0x2A050
abbrev HLT_DWELL : Nat := 0x2A054
abbrev HLT_BUDGET : Nat := 0x2A068
abbrev HLT_SPARES : Nat := 0x2A06C
abbrev HLT_RAISE : Nat := 0x2A070
abbrev HLT_BSTS : Nat := 0x2A074
abbrev HLT_LASTEXP : Nat := 0x2A078
abbrev HLT_ACKTO : Nat := 0x2A07C
abbrev HLT_ISEL : Nat := 0x2A080
abbrev HLT_ICFG : Nat := 0x2A084
abbrev HLT_ICFG2 : Nat := 0x2A088
abbrev HLT_IMISS : Nat := 0x2A08C
abbrev HLT_KIDX : Nat := 0x2A090
abbrev HLT_KX : Nat := 0x2A094
abbrev HLT_KY : Nat := 0x2A098
abbrev HLT_ARRF : Nat := 0x2A09C
abbrev HLT_DSEL : Nat := 0x2A0A0
abbrev HLT_DSTS : Nat := 0x2A0A4
abbrev HLT_DIDX : Nat := 0x2A0A8
abbrev HLT_DADV : Nat := 0x2A0AC
abbrev HLT_EVALS : Nat := 0x2A0B0
abbrev HLT_NCONT : Nat := 0x2A0B4
abbrev HLT_NHELD : Nat := 0x2A0B8
abbrev HLT_NEXP : Nat := 0x2A0BC
abbrev HLT_NOWIT : Nat := 0x2A0C0
abbrev HLT_REFRX : Nat := 0x2A0C4
abbrev HLT_REFBAD : Nat := 0x2A0C8
abbrev HLT_REFSRC : Nat := 0x2A100
abbrev HLT_REFID : Nat := 0x2A104

/-! JOB page. -/
abbrev JOB_JSEL : Nat := 0x2B040
abbrev JOB_JSTS : Nat := 0x2B044
abbrev JOB_BSEQ : Nat := 0x2B048
abbrev JOB_CSTS : Nat := 0x2B04C
abbrev JOB_CTHIN : Nat := 0x2B050
abbrev JOB_CSTALE : Nat := 0x2B054
abbrev JOB_SPLEFT : Nat := 0x2B058
abbrev JOB_SPFB : Nat := 0x2B05C
abbrev JOB_HOPTO : Nat := 0x2B060
abbrev JOB_CBASE : Nat := 0x2B064
abbrev JOB_CSIZE : Nat := 0x2B068
abbrev JOB_CFILL : Nat := 0x2B06C

/-! ETH page. -/
abbrev ETH_CTL : Nat := 0x2C040
abbrev ETH_STS : Nat := 0x2C044
abbrev ETH_FECCOR : Nat := 0x2C048
abbrev ETH_FECUNC : Nat := 0x2C04C
abbrev ETH_RXOK : Nat := 0x2C050
abbrev ETH_RXSIZE : Nat := 0x2C054
abbrev ETH_RXMACC : Nat := 0x2C058
abbrev ETH_RXETYPE : Nat := 0x2C05C
abbrev ETH_TXOK : Nat := 0x2C060
abbrev ETH_LINKDN : Nat := 0x2C064

/-! QMG page. -/
abbrev QMG_QCTL : Nat := 0x2D040
abbrev QMG_APDROP : Nat := 0x2D044
abbrev QMG_QCFG : Nat := 0x2D800
abbrev QMG_QIDX : Nat := 0x2D804
abbrev QMG_QSTS : Nat := 0x2D808
abbrev QMG_QDONE : Nat := 0x2D80C

end R

/-- One row of the register tables: where its registers lie, the bits software may write (RW and RWS fields without a
behaviour of their own), and the reset value. -/
structure RegRow where
  key : Nat
  count : Nat
  stride : Nat
  mask : Nat
  rst : Nat
  inLeaf : Bool
  inTray : Bool
deriving DecidableEq, Repr


/-- The writable fields and reset values of the BLK page. -/
def rowsBLK : List RegRow := [
  ⟨R.BLK_SCRATCH, 1, 4, 0xFFFFFFFF, 0, true, true⟩]

/-- The writable fields and reset values of the TBS page. -/
def rowsTBS : List RegRow := [
  ⟨R.TBS_OFS_NSL, 1, 4, 0xFFFFFFFF, 0, true, true⟩,
  ⟨R.TBS_OFS_NSH, 1, 4, 0xFFFFFFFF, 0, true, true⟩,
  ⟨R.TBS_OFS_FRAC, 1, 4, 0xFFFFFFFF, 0, true, true⟩,
  ⟨R.TBS_HOLDTO, 1, 4, 0xFFFF, 2000, true, true⟩,
  ⟨R.TBS_TXLAT, 1, 4, 0xFFFF, 0, true, false⟩,
  ⟨R.TBS_RXLAT, 1, 4, 0xFFFF, 0, true, false⟩,
  ⟨R.TBS_PPSW, 1, 4, 0x3FF, 100, false, true⟩,
  ⟨R.TBS_PTPMODE, 8, 4, 0x3, 0, false, true⟩,
  ⟨R.TBS_PLD, 16, 4, 0xFFFFFFFF, 0, false, true⟩]

/-- The writable fields and reset values of the STEP page. -/
def rowsSTEP : List RegRow := [
  ⟨R.STEP_MINPER, 1, 4, 0xFFFFFFFF, 1000, true, false⟩,
  ⟨R.STEP_SSEL, 1, 4, 0x3F, 0, false, true⟩]

/-- The writable fields and reset values of the SMP page. -/
def rowsSMP : List RegRow := [
  ⟨R.SMP_CTL, 1, 4, 0xF0, 0, true, false⟩,
  ⟨R.SMP_JOB, 2, 4, 0xFFFFFFFF, 0, true, false⟩,
  ⟨R.SMP_LEAFNO, 1, 4, 0xFFFFFFFF, 0, true, false⟩]

/-- The writable fields and reset values of the CNT page. -/
def rowsCNT : List RegRow := [
  ⟨R.CNT_MAPIDX, 1, 4, 0x7FFF, 0, true, false⟩]

/-- The writable fields and reset values of the TRC page. -/
def rowsTRC : List RegRow := [
  ⟨R.TRC_CTL, 1, 4, 0x80000000, 0, true, false⟩,
  ⟨R.TRC_RBASE_L, 1, 4, 0xFFFFF000, 0, true, false⟩,
  ⟨R.TRC_RBASE_H, 1, 4, 0xFFFFFFFF, 0, true, false⟩,
  ⟨R.TRC_RSIZE, 1, 4, 0x3F, 0, true, false⟩,
  ⟨R.TRC_RPTR, 1, 4, 0xFFFFFFFF, 0, true, false⟩,
  ⟨R.TRC_NOTE, 1, 4, 0xFFFFF, 0, true, false⟩,
  ⟨R.TRC_SRC_CFG, 8, 16, 0x0, 268435456, true, false⟩]

/-- The writable fields and reset values of the EVR page. -/
def rowsEVR : List RegRow := [
  ⟨R.EVR_COAL, 1, 4, 0xFFFF, 1000, true, true⟩]

/-- The writable fields and reset values of the HIS page. -/
def rowsHIS : List RegRow := [
  ⟨R.HIS_CTL, 1, 4, 0x8000000F, 2, true, true⟩,
  ⟨R.HIS_BASE_L, 1, 4, 0xFFFF0000, 0, true, true⟩,
  ⟨R.HIS_BASE_H, 1, 4, 0xFFFFFFFF, 0, true, true⟩,
  ⟨R.HIS_NBLK, 1, 4, 0x7FFF, 0, true, true⟩,
  ⟨R.HIS_RPOS, 1, 4, 0xFFFFFFF, 0, true, true⟩]

/-- The writable fields and reset values of the CONE page. -/
def rowsCONE : List RegRow := [
  ⟨R.CONE_SEL, 1, 4, 0xFF, 0, true, true⟩,
  ⟨R.CONE_REG, 1, 4, 0xFFFF, 0, true, true⟩,
  ⟨R.CONE_BEND_L, 1, 4, 0xFFFFFFFF, 0, true, true⟩,
  ⟨R.CONE_BEND_H, 1, 4, 0xFFFF, 0, true, true⟩,
  ⟨R.CONE_PCLIM, 1, 4, 0xFFFFFFFF, 0, true, true⟩,
  ⟨R.CONE_INSLIM, 1, 4, 0xFFFF, 0, true, true⟩,
  ⟨R.CONE_TIDX, 1, 4, 0x3FF, 0, true, true⟩,
  ⟨R.CONE_POLL, 1, 4, 0xFFFF, 60, true, true⟩,
  ⟨R.CONE_CKPT, 1, 4, 0xFFFF, 60, true, true⟩]

/-- The writable fields and reset values of the KST page. -/
def rowsKST : List RegRow := [
  ⟨R.KST_CTL, 1, 4, 0x80000000, 0, true, false⟩,
  ⟨R.KST_RSTDLY, 1, 4, 0xFFFF, 100, true, false⟩,
  ⟨R.KST_SIDX, 1, 4, 0x3F07, 0, true, false⟩,
  ⟨R.KST_ENG_CFG, 64, 8, 0x0, 268435456, true, false⟩,
  ⟨R.KST_TO, 64, 8, 0xFFFFFF, 0, true, false⟩,
  ⟨R.KST_DOM_CFG, 16, 16, 0x9FFFFFFF, 0, true, false⟩]

/-- The writable fields and reset values of the DMP page. -/
def rowsDMP : List RegRow := [
  ⟨R.DMP_CTL, 1, 4, 0xFF000000, 0, true, false⟩,
  ⟨R.DMP_ATO, 1, 4, 0xFFFF, 10, true, false⟩,
  ⟨R.DMP_DTO, 1, 4, 0xFFFF, 1000, true, false⟩,
  ⟨R.DMP_WTO, 1, 4, 0xFFFF, 1000, true, false⟩,
  ⟨R.DMP_BUF_L, 1, 4, 0xFFFFF000, 0, true, false⟩,
  ⟨R.DMP_BUF_H, 1, 4, 0xFFFFFFFF, 0, true, false⟩,
  ⟨R.DMP_BUFSZ, 1, 4, 0xFFFFF000, 0, true, false⟩,
  ⟨R.DMP_DIDX, 1, 4, 0x3FF, 0, true, false⟩,
  ⟨R.DMP_NDESC, 1, 4, 0x1FF, 0, true, false⟩]

/-- The writable fields and reset values of the SNG page. -/
def rowsSNG : List RegRow := [
  ⟨R.SNG_CTL, 1, 4, 0xC000001F, 0, true, false⟩,
  ⟨R.SNG_NREG, 1, 4, 0x1FFFFF, 0, true, false⟩,
  ⟨R.SNG_BASE_L, 1, 4, 0xFFFF0000, 0, true, false⟩,
  ⟨R.SNG_BASE_H, 1, 4, 0xFFFFFFFF, 0, true, false⟩,
  ⟨R.SNG_GTO, 1, 4, 0xFFFF, 50, true, false⟩]

/-- The writable fields and reset values of the FPR page. -/
def rowsFPR : List RegRow := [
  ⟨R.FPR_CTL, 1, 4, 0x1F, 0, true, false⟩,
  ⟨R.FPR_DIDX, 1, 4, 0xFFFFF, 0, true, false⟩]

/-- The writable fields and reset values of the CMP page. -/
def rowsCMP : List RegRow := [
  ⟨R.CMP_JOB, 1, 4, 0xC0000003, 0, true, false⟩,
  ⟨R.CMP_SRC_L, 1, 4, 0xFFFFFFFC, 0, true, false⟩,
  ⟨R.CMP_SRC_H, 1, 4, 0xFFFFFFFF, 0, true, false⟩,
  ⟨R.CMP_DST_L, 1, 4, 0xFFFFFFFC, 0, true, false⟩,
  ⟨R.CMP_DST_H, 1, 4, 0xFFFFFFFF, 0, true, false⟩,
  ⟨R.CMP_LEN, 1, 4, 0x1FFFFFF, 0, true, false⟩,
  ⟨R.CMP_LIMIT, 1, 4, 0xFFFFFFFF, 0, true, false⟩]

/-- The writable fields and reset values of the LNK page. -/
def rowsLNK : List RegRow := [
  ⟨R.LNK_CTL, 1, 4, 0xE0000000, 0, true, false⟩,
  ⟨R.LNK_ETYPE, 1, 4, 0xFFFF, 34997, true, true⟩,
  ⟨R.LNK_SMAC_L, 1, 4, 0xFFFFFFFF, 0, true, false⟩,
  ⟨R.LNK_SMAC_H, 1, 4, 0xFFFF, 0, true, false⟩,
  ⟨R.LNK_PMAC0_L, 1, 4, 0xFFFFFFFF, 0, true, false⟩,
  ⟨R.LNK_PMAC0_H, 1, 4, 0xFFFF, 0, true, false⟩,
  ⟨R.LNK_PMAC1_L, 1, 4, 0xFFFFFFFF, 0, true, false⟩,
  ⟨R.LNK_PMAC1_H, 1, 4, 0xFFFF, 0, true, false⟩,
  ⟨R.LNK_VLAN, 1, 4, 0xEFFF, 0, true, true⟩,
  ⟨R.LNK_ACKTO, 1, 4, 0xFFFF, 200, true, true⟩,
  ⟨R.LNK_RETRY, 1, 4, 0xF, 4, true, true⟩,
  ⟨R.LNK_TXTAG, 1, 4, 0xFFFFFFFF, 0, true, true⟩,
  ⟨R.LNK_TXAT_L, 1, 4, 0xFFFFFFFF, 0, true, true⟩,
  ⟨R.LNK_TXAT_H, 1, 4, 0xFFFFFFFF, 0, true, true⟩,
  ⟨R.LNK_KEEP, 1, 4, 0xFFFF, 1000, true, true⟩,
  ⟨R.LNK_TIDX, 1, 4, 0xFF, 0, false, true⟩]

/-- The writable fields and reset values of the SCH page. -/
def rowsSCH : List RegRow := [
  ⟨R.SCH_PSEL, 1, 4, 0x7, 0, false, true⟩,
  ⟨R.SCH_CTL, 1, 4, 0x80000000, 0, true, true⟩,
  ⟨R.SCH_RATE, 1, 4, 0xFFFFFF, 1000, true, true⟩,
  ⟨R.SCH_OVH, 1, 4, 0xFF, 24, true, true⟩,
  ⟨R.SCH_GUARD, 1, 4, 0xFFFF, 50, true, true⟩,
  ⟨R.SCH_GBASE_L, 1, 4, 0xFFFFFFFF, 0, true, true⟩,
  ⟨R.SCH_GBASE_H, 1, 4, 0xFFFFFFFF, 0, true, true⟩,
  ⟨R.SCH_GCYC, 1, 4, 0xFFFFFFFF, 0, true, true⟩,
  ⟨R.SCH_SPER, 1, 4, 0x1F, 16, true, true⟩,
  ⟨R.SCH_QLIM, 1, 4, 0x1FFF, 0, true, true⟩]

/-- The writable fields and reset values of the TSQ page. -/
def rowsTSQ : List RegRow := [
  ⟨R.TSQ_PSEL, 1, 4, 0x7, 0, false, true⟩]

/-- The writable fields and reset values of the IDN page. -/
def rowsIDN : List RegRow := [
  ⟨R.IDN_CFGADDR_L, 1, 4, 0xFFFFFFFC, 0, true, true⟩,
  ⟨R.IDN_CFGADDR_H, 1, 4, 0xFFFFFFFF, 0, true, true⟩,
  ⟨R.IDN_CFGLEN, 1, 4, 0x1FFFF, 0, true, true⟩,
  ⟨R.IDN_RPTADDR_L, 1, 4, 0xFFFFFFC0, 0, true, true⟩,
  ⟨R.IDN_RPTADDR_H, 1, 4, 0xFFFFFFFF, 0, true, true⟩,
  ⟨R.IDN_MSEL, 1, 4, 0x7, 0, true, true⟩,
  ⟨R.IDN_KSEL, 1, 4, 0x7, 0, true, true⟩,
  ⟨R.IDN_NONCE, 8, 4, 0xFFFFFFFF, 0, true, true⟩,
  ⟨R.IDN_EXTBUF, 12, 4, 0xFFFFFFFF, 0, true, true⟩]

/-- The writable fields and reset values of the PWR page. -/
def rowsPWR : List RegRow := [
  ⟨R.PWR_LEVELS, 1, 4, 0xFFFFFF, 179892, true, true⟩,
  ⟨R.PWR_WLONG, 1, 4, 0xFFFF, 100, true, true⟩,
  ⟨R.PWR_HRATE, 1, 4, 0xFF, 8, false, true⟩,
  ⟨R.PWR_ICAP, 1, 4, 0x1FF, 340, false, true⟩,
  ⟨R.PWR_TJHOT, 1, 4, 0xFF, 100, false, true⟩]

/-- The writable fields and reset values of the ERR page. -/
def rowsERR : List RegRow := [
  ⟨R.ERR_ISPACE, 1, 4, 0x3, 0, false, true⟩,
  ⟨R.ERR_IADDR_L, 1, 4, 0xFFFFFFFF, 0, true, true⟩,
  ⟨R.ERR_IADDR_H, 1, 4, 0xFFFFFFFF, 0, true, true⟩,
  ⟨R.ERR_CELIM, 1, 4, 0xFFFF, 1000, true, true⟩]

/-- The writable fields and reset values of the HEV page. -/
def rowsHEV : List RegRow := [
  ⟨R.HEV_CTL, 1, 4, 0xE01FFFFF, 0, true, false⟩,
  ⟨R.HEV_BASE_L, 1, 4, 0xFFFFF000, 0, true, false⟩,
  ⟨R.HEV_BASE_H, 1, 4, 0xFFFFFFFF, 0, true, false⟩,
  ⟨R.HEV_WB_L, 1, 4, 0xFFFFFFFC, 0, true, false⟩,
  ⟨R.HEV_WB_H, 1, 4, 0xFFFFFFFF, 0, true, false⟩,
  ⟨R.HEV_CI, 1, 4, 0xFFFFFFFF, 0, true, false⟩]

/-- The writable fields and reset values of the HEVT page. -/
def rowsHEVT : List RegRow := [
  ⟨R.HEVT_QSEL, 1, 4, 0x1FF, 0, false, true⟩,
  ⟨R.HEVT_BASE_L, 1, 4, 0xFFFFF000, 0, false, true⟩,
  ⟨R.HEVT_BASE_H, 1, 4, 0xFFFFFFFF, 0, false, true⟩,
  ⟨R.HEVT_WB_L, 1, 4, 0xFFFFFFFC, 0, false, true⟩,
  ⟨R.HEVT_WB_H, 1, 4, 0xFFFFFFFF, 0, false, true⟩,
  ⟨R.HEVT_ROUTE, 256, 4, 0x1FF, 0, false, true⟩]

/-- The writable fields and reset values of the CTN page. -/
def rowsCTN : List RegRow := [
  ⟨R.CTN_ACKTO, 1, 4, 0xFFFF, 10, true, false⟩]

/-- The writable fields and reset values of the ASTB page. -/
def rowsASTB : List RegRow := [
  ⟨R.ASTB_CTL, 1, 4, 0x1, 0, true, false⟩]

/-- The writable fields and reset values of the SEL page. -/
def rowsSEL : List RegRow := [
  ⟨R.SEL_IDX, 1, 4, 0x7FFF, 0, true, false⟩]

/-- The writable fields and reset values of the ENG page. -/
def rowsENG : List RegRow := [
  ⟨R.ENG_CCTL, 6, 16, 0x80000000, 0, false, true⟩,
  ⟨R.ENG_HOPM, 1, 4, 0xFFFF, 500, false, true⟩,
  ⟨R.ENG_OUTTO, 1, 4, 0xFFFF, 100, false, true⟩]

/-- The writable fields and reset values of the ING page. -/
def rowsING : List RegRow := [
  ⟨R.ING_RTO, 1, 4, 0xFFFF, 200, false, true⟩,
  ⟨R.ING_DEC_HI, 1, 4, 0x7F, 75, false, true⟩,
  ⟨R.ING_DEC_LO, 1, 4, 0x7F, 25, false, true⟩,
  ⟨R.ING_DEC_HOLD, 1, 4, 0xFFFF, 64, false, true⟩,
  ⟨R.ING_DSLOT, 1, 4, 0x3F, 0, false, true⟩,
  ⟨R.ING_DEC_MIN, 1, 4, 0x3, 0, false, true⟩]

/-- The writable fields and reset values of the NOC page. -/
def rowsNOC : List RegRow := [
  ⟨R.NOC_DSEL, 1, 4, 0x3F, 0, false, true⟩]

/-- The writable fields and reset values of the STL page. -/
def rowsSTL : List RegRow := [
  ⟨R.STL_CTL, 1, 4, 0x80000000, 0, false, true⟩,
  ⟨R.STL_BACKOFF, 1, 4, 0xFFFF, 64, false, true⟩]

/-- The writable fields and reset values of the PAN page. -/
def rowsPAN : List RegRow := [
  ⟨R.PAN_NODE, 1, 4, 0xFFFFFFFF, 0, false, true⟩,
  ⟨R.PAN_PSEL, 1, 4, 0x3FF, 0, false, true⟩]

/-- The writable fields and reset values of the MDL page. -/
def rowsMDL : List RegRow := [
  ⟨R.MDL_HSEL, 1, 4, 0x3F, 0, false, true⟩,
  ⟨R.MDL_SBUDGET, 1, 4, 0xFFFFFFFF, 0, false, true⟩,
  ⟨R.MDL_BWAIT, 1, 4, 0xFFFF, 1000, false, true⟩,
  ⟨R.MDL_REFCORE, 1, 4, 0x0, 131071, false, true⟩,
  ⟨R.MDL_REFWORD, 1, 4, 0x0, 4294967295, false, true⟩]

/-- The writable fields and reset values of the SCO page. -/
def rowsSCO : List RegRow := [
  ⟨R.SCO_SWAIT, 1, 4, 0xFFFFF, 1000, false, true⟩,
  ⟨R.SCO_GSEL, 1, 4, 0x3F, 0, false, true⟩]

/-- The writable fields and reset values of the HRV page. -/
def rowsHRV : List RegRow := [
  ⟨R.HRV_RSEL, 1, 4, 0x3F, 0, false, true⟩,
  ⟨R.HRV_RBASE_L, 1, 4, 0xFFFFF000, 0, false, true⟩,
  ⟨R.HRV_RBASE_H, 1, 4, 0xFFFFFFFF, 0, false, true⟩,
  ⟨R.HRV_RCFG, 1, 4, 0x801F01FF, 0, false, true⟩]

/-- The writable fields and reset values of the MEM page. -/
def rowsMEM : List RegRow := [
  ⟨R.MEM_GIDX, 1, 4, 0x1FFF, 0, false, true⟩,
  ⟨R.MEM_SCRUB, 1, 4, 0x1F, 10, false, true⟩,
  ⟨R.MEM_LPCTL, 1, 4, 0x80000000, 8, false, true⟩,
  ⟨R.MEM_LPSTR, 1, 4, 0x3FF, 0, false, true⟩,
  ⟨R.MEM_LPDMP, 1, 4, 0x3FF, 0, false, true⟩,
  ⟨R.MEM_LPHIS, 1, 4, 0x3FF, 0, false, true⟩]

/-- The writable fields and reset values of the HLT page. -/
def rowsHLT : List RegRow := [
  ⟨R.HLT_SSEL, 1, 4, 0x3F, 0, false, true⟩,
  ⟨R.HLT_SCFG, 1, 4, 0xFCFF03FF, 0, false, true⟩,
  ⟨R.HLT_SCFG2, 1, 4, 0x7FF003F, 0, false, true⟩,
  ⟨R.HLT_ARR, 1, 4, 0x80FFF000, 0, false, true⟩,
  ⟨R.HLT_BUDGET, 1, 4, 0xFFFFFFFF, 4194305, false, true⟩,
  ⟨R.HLT_RAISE, 1, 4, 0xFFFF, 4000, false, true⟩,
  ⟨R.HLT_ACKTO, 1, 4, 0xFFFF, 50, false, true⟩,
  ⟨R.HLT_ISEL, 1, 4, 0xF, 0, false, true⟩,
  ⟨R.HLT_ICFG, 1, 4, 0xFFF03FFF, 0, false, true⟩,
  ⟨R.HLT_ICFG2, 1, 4, 0xFF0FFFFF, 0, false, true⟩,
  ⟨R.HLT_IMISS, 1, 4, 0xFFFFFFFF, 0, false, true⟩,
  ⟨R.HLT_KIDX, 1, 4, 0x1F, 0, false, true⟩,
  ⟨R.HLT_ARRF, 1, 4, 0x1FFF, 0, false, true⟩,
  ⟨R.HLT_DSEL, 1, 4, 0xFF, 0, false, true⟩,
  ⟨R.HLT_REFSRC, 8, 8, 0x83FF03FF, 0, false, true⟩,
  ⟨R.HLT_REFID, 8, 8, 0x3FFF, 0, false, true⟩]

/-- The writable fields and reset values of the JOB page. -/
def rowsJOB : List RegRow := [
  ⟨R.JOB_JSEL, 1, 4, 0x3F, 0, false, true⟩,
  ⟨R.JOB_HOPTO, 1, 4, 0xFFFF, 2000, false, true⟩,
  ⟨R.JOB_CBASE, 1, 4, 0xFFFF, 0, false, true⟩,
  ⟨R.JOB_CSIZE, 1, 4, 0xFFFF, 0, false, true⟩]

/-- The writable fields and reset values of the ETH page. -/
def rowsETH : List RegRow := [
  ⟨R.ETH_CTL, 1, 4, 0xC000000F, 0, false, true⟩]

/-- Every row, page by page. -/
def regRows : List RegRow :=
  rowsBLK ++ rowsTBS ++ rowsSTEP ++ rowsSMP ++ rowsCNT ++ rowsTRC ++ rowsEVR ++ rowsHIS ++ rowsCONE ++ rowsKST ++ rowsDMP ++ rowsSNG ++ rowsFPR ++ rowsCMP ++ rowsLNK ++ rowsSCH ++ rowsTSQ ++ rowsIDN ++ rowsPWR ++ rowsERR ++ rowsHEV ++ rowsHEVT ++ rowsCTN ++ rowsASTB ++ rowsSEL ++ rowsENG ++ rowsING ++ rowsNOC ++ rowsSTL ++ rowsPAN ++ rowsMDL ++ rowsSCO ++ rowsHRV ++ rowsMEM ++ rowsHLT ++ rowsJOB ++ rowsETH

/-- Does a row cover the register at `page type × 0x1000 + offset`? -/
def RegRow.covers (r : RegRow) (b : Build) (k : Nat) : Bool :=
  (match b with | .leaf => r.inLeaf | .tray => r.inTray) &&
  decide (r.key ≤ k) && decide (k < r.key + r.count * r.stride) && decide ((k - r.key) % r.stride = 0)

/-- The row of a register, if it has writable bits or a reset value other than zero. -/
def regRow? (b : Build) (k : Nat) : Option RegRow := regRows.find? (fun r => r.covers b k)

/-- The bits software may write (R13, R14): none of a register that has no row. -/
def rwMask (b : Build) (k : Nat) : W32 := BitVec.ofNat 32 (match regRow? b (k % 0x100000) with | some r => r.mask | none => 0)

/-- `SCH.WGT[q]` at reset (R452). -/
def wgtReset (q : Nat) : Nat := [0, 0, 32, 8, 16, 2, 4, 1].getD q 0

/-- `SCH.QLIM[q]` at reset (R452). -/
def qlimReset (b : Build) (q : Nat) : Nat :=
  match b with
  | .leaf => [16, 256, 512, 64, 0, 16, 128, 32].getD q 0
  | .tray => [64, 1024, 2048, 256, 0, 64, 512, 128].getD q 0

/-- The reset value of a register (R452): zero where no table gives another. -/
def regReset (b : Build) (k : Nat) : W32 :=
  let k := k % 0x100000
  if 0x110C0 ≤ k ∧ k < 0x110E0 then BitVec.ofNat 32 (wgtReset ((k - 0x110C0) / 4))
  else if 0x110E0 ≤ k ∧ k < 0x11100 then BitVec.ofNat 32 (qlimReset b ((k - 0x110E0) / 4))
  else if k = R.SCH_GLEN then 1
  else if k = R.PWR_MINCODE then 200
  else BitVec.ofNat 32 (match regRow? b k with | some r => r.rst | none => 0)

/-! The page header (R441), offsets within every page. -/

namespace H
abbrev PGID : Nat := 0x000
abbrev PGVER : Nat := 0x004
abbrev PGCAP : Nat := 0x008
abbrev PGCTL : Nat := 0x00C
abbrev PGSTS : Nat := 0x010
abbrev PGCAUSE : Nat := 0x014
abbrev PGMASK : Nat := 0x018
abbrev PGINJ : Nat := 0x01C
abbrev PGINJSEL : Nat := 0x020
abbrev PGSEQ : Nat := 0x024
end H

/-- `PGCAP.causes` of a page type (R442, R448, R449). -/
def pgCauses (b : Build) (p : Nat) : Nat :=
  match b with
  | .leaf => [0x00, 0x07, 0x03, 0x3F, 0x0F, 0x01, 0x1F, 0x01, 0x01, 0x1F, 0x07, 0x0F, 0x0F, 0x0F, 0x0F, 0x07, 0x0F, 0x07,
      0x01, 0x0F, 0x0F, 0x1E, 0x0F, 0x03, 0x03, 0x00].getD p 0
  | .tray =>
    if p = 0x01 then 0x07 else if p = 0x02 then 0x03 else if p = 0x08 then 0x01 else if p = 0x09 then 0x1F
    else if p = 0x0A then 0x07 else if p = 0x13 then 0x0F else if p = 0x14 then 0x3F else if p = 0x15 then 0x17
    else if p = 0x16 then 0x0F else if p = 0x0F then 0x03 else if p = 0x10 then 0x0F else if p = 0x11 then 0x07
    else if p = 0x12 then 0x01
    else if 0x20 ≤ p then [0x03, 0x0F, 0x01, 0x00, 0x1F, 0x07, 0x07, 0x0F, 0x07, 0x01, 0x3F, 0x1F, 0x03, 0x03].getD (p - 0x20) 0
    else 0

/-- `PGCAP.inj` of a page type (R442, R448, R449). -/
def pgInj (b : Build) (p : Nat) : Nat :=
  match b with
  | .leaf => [0x00, 0x00, 0x00, 0x08, 0x02, 0x00, 0x08, 0x00, 0x00, 0x01, 0x00, 0x01, 0x04, 0x01, 0x04, 0x01, 0x06, 0x00,
      0x00, 0x00, 0x00, 0x0E, 0x02, 0x00, 0x00, 0x00].getD p 0
  | .tray =>
    if p = 0x09 then 0x01 else if p = 0x15 then 0x07 else if p = 0x0F then 0x01 else if p = 0x10 then 0x04
    else if 0x20 ≤ p then [0x00, 0x0C, 0x00, 0x00, 0x00, 0x00, 0x02, 0x08, 0x01, 0x01, 0x00, 0x00, 0x03, 0x00].getD (p - 0x20) 0
    else 0

/-- `PGCAP` of a page type. -/
def pgCap (b : Build) (p : Nat) : W32 := BitVec.ofNat 32 (pgInj b p * 256 + pgCauses b p)

end Sys2Proof.Machine
end

