-- ==== Sys2Proof/Machine/RecTypes.lean ====
section
/-!
DEFINITION. Event records as data: what a record is of (R104), the RAM ring that holds them (R107, R108) and the flash history
(R110 to R117).
-/

namespace Sys2Proof.Machine

/-- Whether a record goes to the flash history (R110): by its severity, always, or never. -/
inductive FlashRule where
  | bySeverity | always | never
deriving DecidableEq, Repr

/-- What a record is of. `code` is the spec's code where a chapter's table gives it. Where the spec names a record and gives no
code and no severity, `given` is false, `code` is a number of this model that only tells such records apart, and the code and
severity that stand in the record are free values of `Config`. -/
structure RecKind where
  page : Nat
  code : Nat
  sev : Nat
  flash : FlashRule
  given : Bool
deriving DecidableEq, Repr

/-- A record whose page, code, severity and flash rule a chapter's table gives. -/
abbrev rk (page code sev : Nat) (flash : FlashRule) : RecKind := ⟨page, code, sev, flash, true⟩

/-- A record the spec names without giving its code and severity. -/
abbrev rkOpen (page n : Nat) : RecKind := ⟨page, n, 0, .bySeverity, false⟩

/-- The 16-bit code that stands in the record. -/
def RecKind.codeBits (k : RecKind) : W16 := if k.given then BitVec.ofNat 16 k.code else Config.recordCode k.page k.code

/-- The 4-bit severity that stands in the record. -/
def RecKind.sevBits (k : RecKind) : BitVec 4 := if k.given then BitVec.ofNat 4 k.sev else Config.recordSeverity k.page k.code

/-- Where a record's step stamp comes from (R104): the slot the source is tied to, or the default slot of the build. -/
inductive StampSrc where
  | slot (n : Nat)
  | dflt
deriving DecidableEq, Repr

/-- One event record (R104). `rep` is the repeat field; `tail` the TB0 nanoseconds of the last repeat; `carried` holds bytes 0x10 to
0x3F of a carried record (R313). -/
structure Rec where
  kind : RecKind
  tb0Invalid : Bool
  suspect : Bool
  continued : Bool
  seq : W32
  tb0 : W64
  stepIdx : W32
  angle : W32
  stampValid : Bool
  slot : Nat
  epoch : Byte
  rep : Nat
  opsec : W32
  pcyc : W32
  payload : BitVec 160
  tail : W64
  carried : Option (BitVec 384)
deriving DecidableEq, Repr

/-- The first eight payload bytes, 0x24 to 0x2B, which take part in the repeat match (R107). -/
def Rec.key8 (r : Rec) : W64 := r.payload.setWidth 64

/-- The four fields that make a report a repeat (R107). -/
structure RecKey where
  page : Nat
  code : Nat
  slot : Nat
  pay8 : W64
deriving DecidableEq, Repr

/-- "harvest paced" (R24): a repeated wait of the same pan set is a repeat whatever its credit, so only the pan set, at 0x24, takes part in the match. -/
def Rec.paced (r : Rec) : Bool := r.kind.page = 0x27 && r.kind.code = 4

/-- "power throttled" (R202): later reductions add to the record of the first, whatever the issue fraction. -/
def Rec.throttled (r : Rec) : Bool := r.kind = rkOpen 0x14 1

/-- The key of a record. Records that the spec names without a code are numbered apart from those it gives one. -/
def Rec.key (r : Rec) : RecKey :=
  ⟨r.kind.page, if r.kind.given then r.kind.code else 2 ^ 16 + r.kind.code, r.slot,
    if r.paced then r.key8 &&& 0xFFFF#64 else if r.throttled then 0 else r.key8⟩

/-- Word 0 of a record (R104). -/
def Rec.head (r : Rec) : W32 :=
  (1#1 ++ (BitVec.ofBool r.tb0Invalid) ++ (BitVec.ofBool r.suspect) ++ (BitVec.ofBool r.continued) ++
    r.kind.sevBits ++ BitVec.ofNat 8 r.kind.page ++ r.kind.codeBits : BitVec 32)

/-- The stamp byte (R104). -/
def Rec.stamp (r : Rec) : Byte := if r.stampValid then BitVec.ofNat 8 (128 + r.slot % 128) else 0

/-- The 64 bytes of a record as one little-endian word: `rep16` stands at 0x1A and `tail` at 0x38. -/
def Rec.bits (r : Rec) (rep16 : W16) (tail : W64) : BitVec 512 :=
  (tail ++ r.payload ++ r.pcyc ++ r.opsec ++ rep16 ++ r.epoch ++ r.stamp ++ r.angle ++ r.stepIdx ++ r.tb0 ++ r.seq ++ r.head
    : BitVec 512)

/-- A record as the RAM ring and the host event queue hold it. -/
def Rec.ramBits (r : Rec) : BitVec 512 :=
  match r.carried with
  | none => r.bits (BitVec.ofNat 16 r.rep) r.tail
  | some c => (c ++ r.tb0 ++ r.seq ++ r.head : BitVec 512)

/-- A record as flash holds it: bit 31 of word 0 inverted, the repeat field and the tail erased (R104, R111). -/
def Rec.flashBits (r : Rec) : BitVec 512 := setBit (r.bits 0xFFFF#16 (BitVec.allOnes 64)) 31 false

/-- The event recorder (R105, R107, R108). `ring` holds the records oldest first; when `isOpen`, the newest of them is open
since `openAt` (the sum of TB0 increments then). `last` is the key of the most recently created record. -/
structure Recorder where
  ring : List Rec
  isOpen : Bool
  openAt : Nat
  last : Option RecKey
  lastInHistory : Bool
  firstLost : W32
deriving DecidableEq, Repr

/-- What a flash job writes: a record at the write position, with what to do when its valid mark has been programmed. -/
inductive HRole where
  | staged        -- from the staging queue
  | blockOpen     -- place 0 of a block (R111): the next block is opened for it
  | rewrite       -- a latest record carried over at a block open (R115)
  | operating     -- a new operating-time record (R114)
  | lostNote      -- the history lost record (R110)
deriving DecidableEq, Repr

/-- An item to write: `id` tells items apart that share a sequence number (R112). -/
structure HItem where
  id : Nat
  r : Rec
  raw : BitVec 512
  role : HRole
  ticks : Nat
  early : Bool      -- created before the scan ended: pcyc and opsec are restored when it is written (R113)
deriving DecidableEq, Repr

/-- The flash operation in flight. A place is a flash address / 64; a block is counted from the region's base. -/
inductive FlashOp where
  | program (stage : Nat) (item : HItem) (place : Nat)   -- stage 0: bytes 0x04-0x37, 1: word 0, 2: the valid mark (R111)
  | tick (place : Nat)                                   -- a thermometer tick: the lowest bit still set is cleared (R112)
  | erase (block : Nat)
deriving DecidableEq, Repr

/-- The open flash record, whose repeats tick its thermometer (R112). `place` is none until item `id` of it has been written. -/
structure OpenFlash where
  id : Nat
  place : Option Nat
  r : Rec
  ticks : Nat
deriving DecidableEq, Repr

/-- The flash history (R110 to R117).
`block`, `place` and `gen` are the write position and the current block's generation; `ahead` holds what is written before the
staging queue; `op` is the operation in flight, `cut` the one a supply warning cut short, `suspended` and `eraseDue` blocks whose
erase is suspended or owed; `heldTicks` ticks held through a supply warning, `fmtDue` a format that waits for its end (R116); `formatting` that a format has not
written its block open record yet (R113); `items` numbers the items; `opPlace`, `opTicks` and `opStart` (its opsec) are the open operating-time record's (R114). `flash` is the external NOR device's history region, one 64-byte place a key
(flash address / 64); erased places, all ones, are unlisted. -/
structure History where
  flash : SMap (BitVec 512)
  scanStarted : Bool
  scanBusy : Bool
  scanned : Bool
  nofmt : Bool
  canSuspend : Bool
  block : Nat
  place : Nat
  gen : W32
  staging : List HItem
  ahead : List HItem
  op : Option FlashOp
  suspended : Option Nat
  eraseDue : Option Nat
  openRec : Option OpenFlash
  ticksDue : List Nat
  heldTicks : List Nat
  fmtDue : Bool
  formatting : Bool
  items : Nat
  opPlace : Option Nat
  opTicks : Nat
  opStart : Nat
  lostCount : Nat
  lostFirst : W32
  lostNote : Bool
  heldBack : Bool
  fails : Nat
  paused : Bool
  opBase : Nat
  opCount : Nat
  pcyc : W32
  readBusy : Bool
  readPos : Nat
  rdy : Bool
  cut : Option FlashOp
deriving DecidableEq, Repr

end Sys2Proof.Machine
end

