-- ==== Sys2Proof/Machine/TimeTypes.lean ====
section
/-!
DEFINITION. Time bases and step clocks as data (spec/02_time_step_angle.md).
-/

namespace Sys2Proof.Machine

/-- TB0, TB1 and what disciplines them. `tb` is TB0, 64-bit nanoseconds above a 32-bit fraction (R30). `ival` is the sum of the
TB0 increments of every cycle since cold reset, in 2^-32 ns: every interval the spec measures in nanoseconds "as R74 measures
intervals" is a difference of two of its values. -/
structure Clock where
  tb : W96
  tb1 : W64
  inc : BitVec 40
  fracHeld : W32
  valid : Bool
  hold : Bool
  ival : Nat
  discAt : Nat
  ppsOut : Bool
  ppsAt : Nat
  latNsh : W32
  latFrac : W32
  latTb1 : W64
  latTb1h : W32
deriving DecidableEq, Repr

/-- One action that software queued on TB0 or TB1, known by a number (R37). -/
structure TimedAction where
  onTb1 : Bool
  time : W64
  code : W16
deriving DecidableEq, Repr

/-- One step clock: slot A or B of a leaf, or one of the T build's 64 job slots (R39 to R43, R50 to R52). `markAt` is the TB1
cycle (leaf) or the TB0 nanoseconds (T build) of the last accepted mark. `bseq` is the broadcast number of the attach and `armBseq` of the last replay arm (R339, R343).
`acceptedAt` and `seenAt` are the TB1 cycles of the leaf's last accepted mark and last mark of any kind, over attachments (R39). -/
structure StepClk where
  en : Bool
  notice : Bool
  k : Nat
  regOnly : Bool
  estValid : Bool
  per : W48
  lastM : W48
  seedL : W32
  seedH : W16
  idxSet : W32
  idxPend : Bool
  idx : W32
  haveMark : Bool
  markAt : W64
  overrun : Bool
  long : Bool
  short : Bool
  cntShort : Nat
  cntLong : Nat
  cntIgn : Nat
  cntSkip : Nat
  gap : Nat
  srcP : W32
  srcS : W32
  onSecondary : Bool
  primaryAt : Nat
  epoch : Byte
  epochNext : Option Byte
  latIdx : W32
  latTb1 : W64
  job : W32
  bseq : W32
  armBseq : W32
  acceptedAt : Option W64
  seenAt : Option W64
deriving DecidableEq, Repr

/-- A slot clock after cold reset (R452: `CTL.k` is 3). -/
def StepClk.reset : StepClk :=
  { en := false, notice := false, k := 3, regOnly := false, estValid := false, per := 0, lastM := 0, seedL := 0, seedH := 0,
    idxSet := 0, idxPend := false, idx := 0, haveMark := false, markAt := 0, overrun := false, long := false, short := false,
    cntShort := 0, cntLong := 0, cntIgn := 0, cntSkip := 0, gap := 0, srcP := 0, srcS := 0, onSecondary := false,
    primaryAt := 0, epoch := 0, epochNext := none, latIdx := 0, latTb1 := 0, job := 0, bseq := 0, armBseq := 0,
    acceptedAt := none, seenAt := none }

end Sys2Proof.Machine
end

