-- ==== Sys2Proof/Machine/UnitTypes.lean ====
section
/-!
DEFINITION. Cones, supply and ladder, identity and error state as data (spec/05_history_cones.md,
spec/17_power_reset_hotplug.md, spec/19_identity_protection.md, spec/18_errors_injection.md).
-/

namespace Sys2Proof.Machine

/-- A cone's state (R118). -/
structure Cone where
  heat : W48
  cycles : W32
  inserts : W16
  levels : BitVec 3
  absent : Bool
  bound : Bool
  ident : BitVec 128
  dirty : Bool
  reading : Bool
deriving DecidableEq, Repr

def Cone.reset : Cone :=
  { heat := 0, cycles := 0, inserts := 0, levels := 0, absent := false, bound := false, ident := 0, dirty := false,
    reading := false }

/-- The cones of a unit and the weight tables (key table × 64 + code). `pollAt` and `ckptAt` say when each cone's identity poll and
checkpoint interval last ended. -/
structure Cones where
  cone : SMap Cone
  weights : SMap W16
  latHwH : W32
  pollAt : SMap Nat
  secondAt : Nat
  ckptAt : SMap Nat
deriving DecidableEq, Repr

/-- A supply warning that is active (R369, R370). -/
structure Warning where
  tb1 : W64
  startAt : Nat
  low : Nat
  rail : Nat
  longDone : Bool
deriving DecidableEq, Repr

/-- The admission stage of the T build's ladder (R365). -/
inductive Stage where
  | ladder | a | b | c
deriving DecidableEq, Repr

/-- Supply, parking and the warm-up ladder (R365 to R370, R377). `step` numbers the ladder's steps from 0. -/
structure Power where
  code : Nat
  warning : Option Warning
  parked : Bool
  parkPend : Bool
  stuck : Bool
  step : Nat
  stage : Stage
  ladderAt : Nat
  pufDone : Bool
  helloSent : Bool
  admitted : Bool
  tries : Nat
  waitMs : Nat
  waitAt : Nat
  waiting : Bool
  draw : W32
  tokens : SMap Nat
  refillAt : W64
  ladderLate : Option Nat
  tj : Nat
  tjSensor : Nat
  thermRec : Option (BitVec 160)
  thermCap : Bool
  thermtrip : Bool
  intervals : Nat
  busMaster : Bool
  rail : Nat
deriving DecidableEq, Repr

/-- One operator key slot (R399). -/
structure KeySlot where
  keyid : BitVec 128
  key : BitVec 776
  roles : BitVec 3
deriving DecidableEq, Repr

/-- A configuration copy in flash (R397, R402); `root` is the trust anchor it was accepted under. -/
structure CfgCopy where
  cseq : W64
  digest : BitVec 384
  policy : Option W32
  role : Option Nat
  slots : SMap KeySlot
  root : BitVec 384
deriving DecidableEq, Repr

/-- Identity work whose flash write waits for a supply warning or a park to end (R370, R377, R402). -/
inductive IdnWork where
  | config (c : CfgCopy)
  | chain (l : List Byte)
  | enroll
deriving DecidableEq, Repr

/-- Identity, configuration and measurement (R395 to R406). -/
structure Identity where
  valid : Bool
  secrets : Bool
  anchor : Bool
  mismatch : Bool
  unverified : Bool
  rdy : Bool
  busy : Bool
  taHash : BitVec 384
  taValid : Bool
  cfgSeq : W64
  digest : BitVec 384
  policy : W32
  role : Nat
  slots : SMap KeySlot
  meas : SMap (BitVec 384)
  devPub : BitVec 776
  helper : Option (BitVec 384)
  copyA : Option CfgCopy
  copyB : Option CfgCopy
  inCopyB : Bool
  chain : List Byte
  pufSeed : Option W32
  epochNo : Nat
  latSeqH : W32
  pending : List IdnWork
  flashBad : Bool
deriving DecidableEq, Repr

/-- Error reporting and injection (R383 to R392). Keys of `armStage` and the others are page keys (copy × 64 + type). -/
structure ErrState where
  armStage : SMap Nat
  pageInsts : SMap Nat
  corrected : SMap Nat
  secondAt : W64
  highNow : Bool
  sumWas : Bool
deriving DecidableEq, Repr

end Sys2Proof.Machine
end

