-- ==== Sys2Proof/Machine/Blk.lean ====
section
/-!
DEFINITION. `Blk`: what both builds hold (register file, time bases, step clocks, recorder, history, cones, ports and links,
supply, identity, errors), and what leaves the block (`Out`).
-/

namespace Sys2Proof.Machine

/-- The reset kinds (R11, R373). -/
inductive ResetKind where
  | cold | warm | unit | link
deriving DecidableEq, Repr

/-- Output signals of the block (spec/20_integration_ports.md and the chapters that own them). -/
inductive Pin where
  | hevIrq | errIrq | ppsOut | rstReq | rstEdge | ctThrottle | ctQuiesce | ctExpel | ctLevel | thermtripN | regErr
deriving DecidableEq, Repr

/-- Notices of the snapshot guard to the copier (R145 to R151). -/
inductive CopierNotice where
  | start | copyFirst | torn | copied
deriving DecidableEq, Repr

/-- What leaves the block, in the order it leaves: the model's observation log. -/
inductive Out where
  | read (addr : Nat) (val : W64)                 -- the answer of a register read
  | pin (p : Pin) (idx val : Nat)                 -- an output signal takes a level
  | msix (vec : Nat)                              -- an MSI-X message (T build)
  /-- A packet starts on an Ethernet port: Ethernet and envelope headers, then the message in clear (R408), or a time frame. `fault`: 0 none,
  1 a poisoned harvest or a bad word (R161), 2 the tag's bit 0 inverted, 3 the envelope counter reused (R388). -/
  | packet (port queue : Nat) (bytes : List Byte) (fault : Nat)
  | items (queue : Nat) (items : List Item) (fault : Nat)   -- the same packet on the leaf's frame port, item by item (R158)
  | idleItem                                    -- the leaf's frame port has nothing to send (R159)
  | dma (addr : Nat) (bytes : List Byte)          -- a write to host memory is issued
  | poisonTlp (addr : Nat)                        -- the word at an address of host memory went out as a Poisoned TLP (R384, R386)
  | guard (tag : Nat) (hold : Bool)               -- the answer of a guard check (R147)
  | release (tag : Nat)                           -- a held write is released
  | copier (n : CopierNotice) (region : Nat)      -- a notice to the copier
  | decision (chunk code : Nat)                   -- an answer on the decision port (R156)
  | slotOut (n : Nat) (word : W64)                -- `n` equal slots leave the ring controller, one a cycle (R63, R64)
  | partBus (bus addr reg : Nat) (i2c : Bool)     -- a private read is started on a part bus (R119)
  | debugRead (addr : W64) (size : Nat)           -- the dump walker issues an access (R131)
  | timed (onTb1 : Bool) (code : Nat) (late : Bool)   -- a queued timed action fires (R37)
  | core (kind a b c : Nat)                       -- a message between cores of the tray build
deriving DecidableEq, Repr

/-- What both builds hold. `cyc` has the registers as they stood when the present cycle began (R446), `rcNow` the bits of RC fields that hardware has
set in the present cycle (R13). `gather` has the reports of a cycle while their sources still act in it (R105). -/
structure Blk where
  build : Build
  regs : SMap W32
  cyc : SMap W32
  rcNow : SMap W32
  held : Option ResetKind
  clk : Clock
  steps : SMap StepClk
  timed : List TimedAction
  rcd : Recorder
  gather : Option (List Rec)
  his : History
  cones : Cones
  ports : SMap Port
  links : SMap Link
  tree : SMap TreeEntry
  mailbox : List Byte
  pw : Power
  idn : Identity
  er : ErrState
  host : SMap Byte
  poison : SMap Nat
  arrived : Nat
  fresh : Nat
  out : List Out
deriving DecidableEq, Repr

/-! ### Reset values -/

def Clock.reset (b : Build) : Clock :=
  { tb := 0, tb1 := 0,
    inc := (match b with | .leaf => 0x0100000000#40 | .tray => 0x0333333333#40),
    fracHeld := (match b with | .leaf => 0 | .tray => 0x33333333#32),
    valid := false, hold := false, ival := 0, discAt := 0, ppsOut := false, ppsAt := 0,
    latNsh := 0, latFrac := 0, latTb1 := 0, latTb1h := 0 }

def Recorder.reset : Recorder :=
  { ring := [], isOpen := false, openAt := 0, last := none, lastInHistory := false, firstLost := 0 }

/-- The history after a cold reset: the flash keeps what it holds. -/
def History.reset (flash : SMap (BitVec 512)) (canSuspend : Bool) : History :=
  { flash := flash, scanStarted := false, scanBusy := false, scanned := false, nofmt := false,
    canSuspend := canSuspend, block := 0, place := 0, gen := 0, staging := [], ahead := [], op := none, suspended := none,
    eraseDue := none, openRec := none, ticksDue := [], heldTicks := [], fmtDue := false, formatting := false, items := 0, opPlace := none, opTicks := 0, opStart := 0, lostCount := 0, lostFirst := 0,
    lostNote := false, heldBack := false, fails := 0, paused := false, opBase := 0, opCount := 0, pcyc := 0,
    readBusy := false, readPos := 0, rdy := false, cut := none }

def Cones.reset : Cones := { cone := [], weights := [], latHwH := 0, pollAt := [], secondAt := 0, ckptAt := [] }

def Power.reset : Power :=
  { code := 200, warning := none, parked := false, parkPend := false, stuck := false, step := 0, stage := .ladder, ladderAt := 0,
    pufDone := false, helloSent := false, admitted := false, tries := 0, waitMs := 0, waitAt := 0, waiting := false, draw := 0,
    tokens := [], refillAt := 0, ladderLate := none, tj := 0, tjSensor := 0, thermRec := none, thermCap := false, thermtrip := false, intervals := 0,
    busMaster := false, rail := 0 }

def Identity.reset : Identity :=
  { valid := false, secrets := false, anchor := false, mismatch := false, unverified := false, rdy := false, busy := false, taHash := 0,
    taValid := false, cfgSeq := 0, digest := 0, policy := 0, role := 0, slots := [], meas := [], devPub := 0, helper := none,
    copyA := none, copyB := none, inCopyB := false, chain := [], pufSeed := none, epochNo := 0, latSeqH := 0, pending := [], flashBad := false }

def ErrState.reset : ErrState :=
  { armStage := [], pageInsts := [], corrected := [], secondAt := 0, highNow := false, sumWas := false }

/-- A build after a cold reset, its reset released at time 0 of the ladder (R373, R374, R452). -/
def Blk.reset (b : Build) : Blk :=
  { build := b, regs := [], cyc := [], rcNow := [], held := none, clk := Clock.reset b, steps := [], timed := [], rcd := Recorder.reset, gather := none,
    his := History.reset [] false, cones := Cones.reset, ports := [], links := [], tree := [], mailbox := [], pw := Power.reset,
    idn := Identity.reset, er := ErrState.reset, host := [], poison := [], arrived := 0, fresh := 0, out := [] }

end Sys2Proof.Machine
end

