-- ==== Sys2Proof/Machine/Ops.lean ====
section
/-!
DEFINITION. The operations every sub-block shares: reading and writing the register file, moving the time bases, page causes and
the error interrupt (R383), the step stamp (R104), and the event recorder with its feed to the flash history (R104 to R112).
-/

namespace Sys2Proof.Machine

/-! ### Registers -/

/-- A register's stored value: its reset value where nothing has changed it. -/
def Blk.reg (u : Blk) (k : Nat) : W32 := smGet u.regs k (regReset u.build k)

/-- Set a register's stored value. -/
def Blk.setReg (u : Blk) (k : Nat) (v : W32) : Blk := { u with regs := smSet u.regs k v (regReset u.build k) }

/-- A register's value as a number. -/
def Blk.rn (u : Blk) (k : Nat) : Nat := (u.reg k).toNat

/-- A field of a register. -/
def Blk.rf (u : Blk) (k lo n : Nat) : Nat := fld (u.reg k) lo n

/-- A bit of a register. -/
def Blk.rb (u : Blk) (k i : Nat) : Bool := bit (u.reg k) i

/-- Set a register to a number. -/
def Blk.setN (u : Blk) (k v : Nat) : Blk := u.setReg k (BitVec.ofNat 32 v)

/-- Change a register. -/
def Blk.modReg (u : Blk) (k : Nat) (f : W32 → W32) : Blk := u.setReg k (f (u.reg k))

/-- Add 1 to a counter that stops at all ones. -/
def Blk.bump (u : Blk) (k : Nat) : Blk := u.modReg k satInc32

/-- Add to a counter that stops at all ones. -/
def Blk.bumpBy (u : Blk) (k n : Nat) : Blk := u.setN k (satAdd (u.rn k) n 0xFFFFFFFF)

/-- Add to a counter that wraps at 2^32. -/
def Blk.count (u : Blk) (k n : Nat) : Blk := u.setN k (u.rn k + n)

/-- Set or clear a bit of a register. -/
def Blk.setRb (u : Blk) (k i : Nat) (b : Bool) : Blk := u.modReg k (fun v => setBit v i b)

/-- Hardware sets a bit of an RC field: a read in this cycle leaves it set (R13). -/
def Blk.setRc (u : Blk) (k i : Nat) : Blk := { u.setRb k i true with rcNow := smSet u.rcNow k (setBit (smGet u.rcNow k 0) i true) 0 }

/-- Two registers as one 64-bit value, the low half first. -/
def Blk.rn64 (u : Blk) (lo hi : Nat) : Nat := u.rn hi * 2 ^ 32 + u.rn lo

/-- Add to a 64-bit count held in two registers. -/
def Blk.count64 (u : Blk) (lo hi n : Nat) : Blk :=
  let v := u.rn64 lo hi + n
  (u.setN lo v).setN hi (v / 2 ^ 32)

/-- Keep the larger value in a peak register. -/
def Blk.peak (u : Blk) (k v : Nat) : Blk := if u.rn k < v then u.setN k v else u

/-- Note that something left the block. -/
def Blk.emit (u : Blk) (o : Out) : Blk := { u with out := o :: u.out }

/-- Change count of a page's configuration (R445). -/
def Blk.bumpSeq (u : Blk) (page inst0 : Nat) : Blk := u.count (inst (page * 0x1000 + H.PGSEQ) inst0) 1

/-! ### Time -/

/-- TB0 nanoseconds. -/
def Clock.ns (c : Clock) : W64 := c.tb.extractLsb' 32 64

/-- TB0 fraction. -/
def Clock.frac (c : Clock) : W32 := c.tb.extractLsb' 0 32

/-- `k` cycles pass (R30): TB0 adds the increment each cycle, TB1 adds 1, and the interval sum follows the increment. -/
def Clock.adv (c : Clock) (k : Nat) : Clock :=
  { c with tb := c.tb + BitVec.ofNat 96 (k * c.inc.toNat), tb1 := c.tb1 + BitVec.ofNat 64 k, ival := c.ival + k * c.inc.toNat }

/-- Cycles until the interval sum is at or past a target. -/
def Clock.cyclesTo (c : Clock) (target : Nat) : Nat := ceilDiv (target - c.ival) c.inc.toNat

/-- Cycles until TB0 nanoseconds reach a time (R36): none when it is reached already. -/
def Clock.cyclesToNs (c : Clock) (t : W64) : Nat :=
  if reached64 c.ns t then 0 else ceilDiv ((t - c.ns).toNat * 2 ^ 32 - c.frac.toNat) c.inc.toNat

/-- Cycles until TB1 reaches a time (R36). -/
def Clock.cyclesToTb1 (c : Clock) (t : W64) : Nat := if reached64 c.tb1 t then 0 else (t - c.tb1).toNat

/-- Nanoseconds, microseconds and milliseconds in the units of the interval sum. -/
def nsIv (n : Nat) : Nat := n * 2 ^ 32
def usIv (n : Nat) : Nat := n * 1000 * 2 ^ 32
def msIv (n : Nat) : Nat := n * 1000000 * 2 ^ 32

/-- Whole nanoseconds, microseconds and milliseconds of an interval sum. -/
def ivNs (n : Nat) : Nat := n / 2 ^ 32
def ivUs (n : Nat) : Nat := n / (1000 * 2 ^ 32)
def ivMs (n : Nat) : Nat := n / (1000000 * 2 ^ 32)

/-- `k` cycles pass in a build: a new cycle finds the registers as they stand. -/
def Blk.adv (u : Blk) (k : Nat) : Blk := { u with clk := u.clk.adv k, cyc := if k = 0 then u.cyc else u.regs, rcNow := if k = 0 then u.rcNow else [] }

/-- Time moves to the first cycle in which the interval sum is at or past `target`; it stays where that is so already. -/
def Blk.toIv (u : Blk) (target : Nat) : Blk := u.adv (u.clk.cyclesTo target)

/-- Time moves to the first cycle in which TB0 reaches `t` (R36, R37). -/
def Blk.toNs (u : Blk) (t : W64) : Blk := u.adv (u.clk.cyclesToNs t)

/-- Time moves to the first cycle in which TB1 reaches `t` (R36, R37). -/
def Blk.toTb1 (u : Blk) (t : W64) : Blk := u.adv (u.clk.cyclesToTb1 t)

/-! ### Step clocks -/

def Blk.step (u : Blk) (s : Nat) : StepClk := smGet u.steps s StepClk.reset

def Blk.setStep (u : Blk) (s : Nat) (c : StepClk) : Blk := { u with steps := smSet u.steps s c StepClk.reset }

/-- e of R42: TB1 cycles (leaf) or TB0 nanoseconds (T build, R51: 0 while the carried time lies ahead) since the last mark. -/
def Blk.sinceMark (u : Blk) (c : StepClk) : Nat :=
  match u.build with
  | .leaf => (u.clk.tb1 - c.markAt).toNat
  | .tray => if reached64 u.clk.ns c.markAt then (u.clk.ns - c.markAt).toNat else 0

/-- The angle of a slot (R42). It stays at overrun until the next mark, whatever TB0 does meanwhile (R51). -/
def Blk.angle (u : Blk) (s : Nat) : W32 :=
  let c := u.step s
  if !c.haveMark || !c.estValid then 0
  else if c.overrun then 0xFFFFFFFF#32
  else
    let e := u.sinceMark c
    if e < c.per.toNat then BitVec.ofNat 32 (min (e * 2 ^ 32 / c.per.toNat) 0xFFFFFFFE) else 0xFFFFFFFF#32

/-- The number of job slots of a build. -/
def slotCount : Build → Nat
  | .leaf => 2
  | .tray => 64

/-- The lowest attached slot (R104). -/
def Blk.firstSlot (u : Blk) : Option Nat := (List.range (slotCount u.build)).find? (fun s => (u.step s).en)

/-- A step stamp: whether it is valid, the slot, the index, the angle and the replay epoch (R104). -/
structure StampVal where
  ok : Bool
  slot : Nat
  idx : W32
  ang : W32
  epoch : Byte
deriving DecidableEq, Repr

def Blk.stampOf (u : Blk) (src : StampSrc) : StampVal :=
  let s := match src with
    | .slot n => some n
    | .dflt => u.firstSlot
  match s with
  | none => ⟨false, 0, 0, 0, 0⟩
  | some n => if (u.step n).en then ⟨true, n, (u.step n).idx, u.angle n, (u.step n).epoch⟩ else ⟨false, 0, 0, 0, (u.step n).epoch⟩

/-! ### Causes and the error interrupt -/

/-- The page number of a page (R439, R449). -/
def pageNo (b : Build) (p n : Nat) : Nat :=
  match b with
  | .leaf => p
  | .tray =>
    if p = 0x2C then 0x20 + n
    else if p = 0x2D then 0x40 + n
    else [0x00, 0x01, 0x02, 0, 0, 0, 0, 0, 0x03, 0x04, 0x05, 0, 0, 0, 0, 0x12, 0x14, 0x15, 0x16, 0x06, 0x07, 0x08, 0x09, 0, 0, 0,
      0, 0, 0, 0, 0, 0, 0x0A, 0x0B, 0x0C, 0x0D, 0x0E, 0x0F, 0x10, 0x11, 0x13, 0x17, 0x18, 0x19].getD p 0

/-- The unmasked causes of the page whose PGCAUSE has key `k` (R383, R444). -/
def Blk.unmaskedAt (u : Blk) (k : Nat) : W32 := u.reg k &&& ~~~(u.reg (k + 4))

/-- Some `ERR.SUM` bit is 1 (R383). -/
def Blk.anyUnmasked (u : Blk) : Bool :=
  u.regs.any (fun e => e.1 % 0x1000 == 0x14 && decide (u.unmaskedAt e.1 ≠ 0))

/-- The stored dword `i` of the T build's MSI-X table, four to a vector: address, address high, data, vector control. Vector control is
stored with its mask bit inverted, so that vectors are masked at reset as PCI Express has it. -/
def msixKey (i : Nat) : Nat := 0x50000001 + 0x1000 * i

/-- The stored word `i` of the MSI-X pending-bit array. -/
def pbaKey (i : Nat) : Nat := 0x58000001 + 0x1000 * i

/-- A vector is masked, or the function may not send (R312). -/
def Blk.msixHeld (u : Blk) (v : Nat) : Bool := !u.rb (msixKey (4 * v + 3)) 0 || !u.pw.busMaster

/-- An MSI-X message on a vector (R312): a masked vector keeps it as its pending bit. -/
def Blk.msixSend (u : Blk) (v : Nat) : Blk :=
  if u.msixHeld v then u.setRb (pbaKey (v / 32)) (v % 32) true else u.emit (.msix v)

/-- A vector that is free to send sends the message its pending bit holds (R312). -/
def Blk.msixFree (u : Blk) (v : Nat) : Blk :=
  if u.rb (pbaKey (v / 32)) (v % 32) && !u.msixHeld v then (u.setRb (pbaKey (v / 32)) (v % 32) false).emit (.msix v) else u

/-- The error interrupt goes out (R383): `err_irq` rises in the leaf, the vector's message is sent in the T build. -/
def Blk.errInterrupt (u : Blk) : Blk :=
  match u.build with
  | .leaf => u.emit (.pin .errIrq 0 1)
  | .tray => u.msixSend (u.rf R.ERR_CTL 0 6)

/-- `ERR.FIRST` of cause `i` of a page (R383). -/
def firstCode (page i : Nat) : Nat := 2 ^ 31 + page * 2 ^ 16 + i

/-- An unmasked cause fills an empty `ERR.FIRST`, with its time (R383). -/
def Blk.fillFirst (u : Blk) (page i : Nat) : Blk :=
  if u.rb R.ERR_FIRST 31 then u
  else ((u.setN R.ERR_FIRST (firstCode page i)).setN R.ERR_FIRSTT_L u.clk.ns.toNat).setN R.ERR_FIRSTT_H (u.clk.ns.toNat / 2 ^ 32)

/-- Cause bit `i` of the PGCAUSE with key `k` is set, on page `page` (R383). An unmasked cause fills an empty `ERR.FIRST`, and raises
the error interrupt when the summary rises from all zero while `ERR.CTL.ie` is 1. -/
def Blk.causeAt (u : Blk) (k page i : Nat) : Blk :=
  let was := u.anyUnmasked
  let u := u.setRb k i true
  if u.rb (k + 4) i then u
  else
    let u := u.fillFirst page i
    if !was && u.rb R.ERR_CTL 31 then u.errInterrupt else u

/-- A detector sets cause bit `i` of copy `n` of page `p`, where the page has that cause (R383, R442). -/
def Blk.cause (u : Blk) (p n i : Nat) : Blk :=
  if Nat.testBit (pgCauses u.build p) i then u.causeAt (inst (p * 0x1000 + H.PGCAUSE) n) (pageNo u.build p n) i else u

/-! ### Creating a record -/

/-- A record's payload from fields at their record offsets (R104). -/
def pay (fs : List Field) : BitVec 160 := BitVec.ofNat 160 (packNat (fs.map (fun f => { f with off := f.off - 0x24 })))

/-- Operating seconds (R106, R113). -/
def Blk.opsec (u : Blk) : W32 := BitVec.ofNat 32 (u.his.opBase + u.his.opCount)

/-- The record that a report would create now, without its sequence number and continued flag. -/
def Blk.draft (u : Blk) (k : RecKind) (src : StampSrc) (p : BitVec 160) : Rec :=
  let st := u.stampOf src
  { kind := k, tb0Invalid := !u.clk.valid, suspect := u.pw.warning.isSome, continued := false, seq := 0, tb0 := u.clk.ns,
    stepIdx := st.idx, angle := st.ang, stampValid := st.ok, slot := st.slot, epoch := st.epoch, rep := 0, opsec := u.opsec,
    pcyc := u.his.pcyc, payload := p, tail := 0, carried := none }

/-- The next sequence number is taken (R105). -/
def Blk.takeSeq (u : Blk) : Blk := u.count R.EVR_SEQ 1

/-- "overflow", the record of lost records (R108). -/
def rkOverflow : RecKind := rk 0x08 0x0001 2 .bySeverity

/-- No place of the ring is left for a record: 63 are ordinary, and one is the overflow record's (R108). -/
def Recorder.full (r : Recorder) : Bool :=
  decide (63 ≤ (r.ring.filter (fun x => x.kind ≠ rkOverflow)).length) || decide (64 ≤ r.ring.length)

/-- A record is created (R105, R107, R108): it takes the next number, closes the open record, and is lost when 63 places are occupied by ordinary records,
unless it is the overflow record, whose place is reserved. Answered is the record. -/
def Blk.createRam (u : Blk) (d : Rec) (isOverflow : Bool) : Blk × Rec :=
  let r := { d with seq := u.reg R.EVR_SEQ, continued := decide (u.rcd.last = some d.key) }
  let u := u.takeSeq
  (if u.rcd.full && !isOverflow then
      let u := { u with rcd := { u.rcd with isOpen := false, last := some r.key, lastInHistory := false,
                                            firstLost := if u.rn R.EVR_LOST = 0 then r.seq else u.rcd.firstLost } }
      ((u.bump R.EVR_LOST).bump R.EVR_LOSTTOT).cause 0x08 0 0
    else
      { u with rcd := { u.rcd with ring := u.rcd.ring ++ [r], isOpen := decide (u.rf R.EVR_COAL 0 16 ≠ 0),
                                   openAt := u.clk.ival, last := some r.key, lastInHistory := false } }, r)

/-! ### Records of the history's own (R110, R111, R114) -/

/-- Records of R117 and the device error of R394. -/
def rkBlockOpen : RecKind := rk 0x09 0x0001 0 .never
def rkHisLost : RecKind := rk 0x09 0x0002 2 .never
def rkHisResumed : RecKind := rk 0x09 0x0003 1 .always
def rkOperating : RecKind := rk 0x09 0x0004 0 .never
def rkFlashError : RecKind := rk 0x09 0x0005 3 .never

/-- The history creates a record of its own: it takes its number from the recorder and goes to the RAM ring like any other. Answered is the item to write. -/
def Blk.hisOwn (u : Blk) (k : RecKind) (p : BitVec 160) (role : HRole) : Blk × HItem :=
  let r := u.createRam (u.draft k .dflt p) false
  let n := r.1.his.items + 1
  ({ r.1 with his := { r.1.his with items := n } }, ⟨n, r.2, r.2.flashBits, role, 0, false⟩)

/-- A record of the history's own takes its turn in the staging queue, behind the records with lower numbers (R110, P8). -/
def Blk.hisQueue (u : Blk) (k : RecKind) (p : BitVec 160) (role : HRole) : Blk :=
  let r := u.hisOwn k p role
  { r.1 with his := { r.1.his with staging := r.1.his.staging ++ [r.2] } }

def Blk.hisNblk (u : Blk) : Nat := u.rf R.HIS_NBLK 0 15

/-- The block open record of the block after the current one is created, and waits its turn. -/
def Blk.queueHeader (u : Blk) : Blk :=
  u.hisQueue rkBlockOpen (pay [fd 0x24 4 (u.his.gen + 1).toNat, fd 0x28 4 u.hisNblk]) .blockOpen

/-- The item that a flash operation programs. -/
def FlashOp.item : FlashOp → Option HItem
  | .program _ i _ => some i
  | _ => none

/-- The items that wait for a place or are being written to one. -/
def History.queue (h : History) : List HItem := (h.op.bind FlashOp.item).toList ++ (h.cut.bind FlashOp.item).toList ++ h.ahead ++ h.staging

/-- The record that takes the last place of the current block is followed in the queue by the next block's block open record, so that numbers rise from
place to place (R111, P8). -/
def Blk.headerDue (u : Blk) : Blk :=
  let h := u.his
  if h.scanned && !h.nofmt && decide (1024 ≤ h.place + h.queue.length) && !h.queue.any (fun i => i.role == .blockOpen) then u.queueHeader else u

/-! ### The recorder's feed to the flash history -/

/-- Records of this kind go to the history (R110). -/
def Blk.hisWants (u : Blk) (k : RecKind) : Bool :=
  match k.flash with
  | .never => false
  | .always => true
  | .bySeverity => decide (u.rf R.HIS_CTL 0 4 ≤ k.sevBits.toNat)

/-- The history takes records: it waits for its scan or is on (R113). -/
def Blk.hisOpen (u : Blk) : Bool := !u.his.nofmt && (!u.his.scanned || u.rb R.HIS_CTL 31)

/-- Change the item that a flash operation programs. -/
def FlashOp.mapItem (f : HItem → HItem) : FlashOp → FlashOp
  | .program st i p => .program st (f i) p
  | x => x

/-- The open flash record closes (R112): ticks it still owes go with its item when it has not been written yet. -/
def History.closeOpen (h : History) : History :=
  match h.openRec with
  | some o =>
    match o.place with
    | some _ => { h with openRec := none }
    | none =>
      let close := fun (i : HItem) => if i.id = o.id then { i with ticks := o.ticks } else i
      { h with
        openRec := none
        staging := h.staging.map close
        ahead := h.ahead.map close
        op := h.op.map (FlashOp.mapItem close)
        cut := h.cut.map (FlashOp.mapItem close) }
  | none => h

/-- A record enters the 16-entry staging queue, or is lost to the history (R110). Answers whether it was taken. -/
def Blk.hisStage (u : Blk) (r : Rec) : Blk × Bool :=
  let h := u.his
  if h.staging.length < 16 then
    let h := h.closeOpen
    let n := h.items + 1
    let i : HItem := ⟨n, r, r.flashBits, .staged, 0, !h.scanned⟩
    let h := { h with staging := h.staging ++ [i], openRec := some ⟨n, none, r, 0⟩, items := n }
    ({ u with his := h }.headerDue, true)
  else
    let u := { u with his := { h with lostCount := h.lostCount + 1, lostNote := true,
                                      lostFirst := if h.lostCount = 0 then r.seq else h.lostFirst } }
    ((u.bump R.HIS_LOST).cause 0x09 0 1, false)

/-- A repeat of a record ticks the thermometer of its open flash record (R112); the 65th, and one after the flash record has closed, writes a new one with
continued set. The one written at the 65th carries the number and the stamps of the open flash record, with only TB0 taken anew (DESIGN CHOICE, log entry
120). -/
def Blk.hisTick (u : Blk) (r : Rec) : Blk :=
  match u.his.openRec with
  | none => (u.hisStage { r with continued := true, tb0 := u.clk.ns }).1
  | some o =>
    if o.ticks < 64 then
      let due := match o.place with | some p => u.his.ticksDue ++ [p] | none => u.his.ticksDue
      { u with his := { u.his with openRec := some { o with ticks := o.ticks + 1 }, ticksDue := due } }
    else (u.hisStage { o.r with continued := true, tb0 := u.clk.ns }).1

/-- A created record goes to the history if it is to (R110). A record with the key of the open flash record ticks it instead
(R112), also where RAM records that did not go to the history came between the two (DESIGN CHOICE, log entry 120). Answers whether repeats of it tick a flash record. -/
def Blk.hisFeed (u : Blk) (r : Rec) : Blk × Bool :=
  if u.hisWants r.kind && u.hisOpen then
    match u.his.openRec with
    | some o => if o.r.key = r.key then (u.hisTick r, true) else u.hisStage r
    | none => u.hisStage r
  else (u, false)

/-! ### The event recorder -/

/-- A record is created, and goes to the history where it is to (R105, R110). -/
def Blk.create (u : Blk) (d : Rec) (isOverflow : Bool) : Blk :=
  let r := u.createRam d isOverflow
  let f := r.1.hisFeed r.2
  { f.1 with rcd := { f.1.rcd with lastInHistory := f.2 } }

/-- A carried record of a foreign message (R313): it is never open, never a repeat and never goes to the history. `tb0` is its time
field, `c` its bytes 0x10 to 0x3F. -/
def Blk.carriedRec (u : Blk) (page : Nat) (tb0 : W64) (c : BitVec 384) : Rec :=
  { u.draft (rk page 0x0100 0 .never) .dflt 0 with tb0 := tb0, carried := some c }

/-- The bytes 0x10 to 0x3F of part `i` of a message that takes `n` records (R313). -/
def carriedPart (msg : List Byte) (cflags n i : Nat) : BitVec 384 :=
  BitVec.ofNat 384 (leVal (leBytes 1 (i * 16 + n) ++ leBytes 1 cflags ++ leBytes 2 msg.length ++ bytesAt msg (44 * i) 44))

/-- Create a record that is closed from the start and does not go to the history. -/
def Blk.createClosed (u : Blk) (d : Rec) : Blk :=
  let r := { d with seq := u.reg R.EVR_SEQ }
  let u := u.takeSeq
  if u.rcd.full then
    let u := { u with rcd := { u.rcd with isOpen := false, last := none, lastInHistory := false,
                                          firstLost := if u.rn R.EVR_LOST = 0 then r.seq else u.rcd.firstLost } }
    ((u.bump R.EVR_LOST).bump R.EVR_LOSTTOT).cause 0x08 0 0
  else { u with rcd := { u.rcd with ring := u.rcd.ring ++ [r], isOpen := false, last := none, lastInHistory := false } }

/-- Bring a foreign message to the host as carried records, created one after another (R313); one longer than 264 bytes is
discarded. -/
def Blk.carry (u : Blk) (page : Nat) (tb0 : W64) (cflags : Nat) (msg : List Byte) : Blk :=
  if 264 < msg.length then
    let k := match u.build with | .leaf => R.HEV_TOOLONG | .tray => R.HEVT_TOOLONG
    (u.bump k).cause 0x16 0 2
  else
    let n := ceilDiv msg.length 44
    (List.range n).foldl (fun (v : Blk) i => v.createClosed (v.carriedRec page tb0 (carriedPart msg cflags n i))) u

/-- Replace the newest record of the ring. -/
def mapLast {α : Type} (f : α → α) : List α → List α
  | [] => []
  | [a] => [f a]
  | a :: b :: t => a :: mapLast f (b :: t)

/-- A report reaches the recorder (R107): a repeat folds into the open record, anything else creates a record. -/
def Blk.reported (u : Blk) (d : Rec) : Blk :=
  match u.rcd.ring.getLast? with
  | some n =>
    if u.rcd.isOpen && n.key = d.key then
      let rep := n.rep + 1
      let u := { u with rcd := { u.rcd with ring := mapLast (fun r => { r with rep := rep, tail := u.clk.ns }) u.rcd.ring,
                                            isOpen := decide (rep < 65535) } }
      if u.rcd.lastInHistory then u.hisTick n else u
    else u.create d false
  | none => u.create d false

/-- A sub-block reports an event. Where several sources act in one cycle, their reports wait for its end. -/
def Blk.report (u : Blk) (k : RecKind) (src : StampSrc) (p : BitVec 160) : Blk :=
  let d := u.draft k src p
  match u.gather with
  | some ds => { u with gather := some (ds ++ [d]) }
  | none => u.reported d

/-- A cycle begins in which several sources may report. -/
def Blk.gatherReports (u : Blk) : Blk := { u with gather := some [] }

/-- The reports of a cycle reach the recorder in the order of their pages and codes (R105). -/
def Blk.ungather (u : Blk) : Blk :=
  let before := fun (a b : Rec) => decide (a.kind.page < b.kind.page) || (decide (a.kind.page = b.kind.page) && decide (a.key.code ≤ b.key.code))
  ((u.gather.getD []).mergeSort before).foldl Blk.reported { u with gather := none }

/-- A place of the ring frees: the overflow record follows lost records before any new record (R108). -/
def Blk.ringFreed (u : Blk) : Blk :=
  if u.rn R.EVR_LOST ≠ 0 && u.rcd.ring.length < 64 then
    let d := u.draft rkOverflow .dflt (pay [fd 0x24 4 (u.rn R.EVR_LOST), fd 0x28 4 u.rcd.firstLost.toNat])
    (u.create d true).setReg R.EVR_LOST 0
  else u

/-- The oldest record leaves the ring (it has been handed on), and the place frees. -/
def Blk.ringPop (u : Blk) : Blk := { u with rcd := { u.rcd with ring := u.rcd.ring.drop 1 } }.ringFreed

/-- The oldest record of the ring, if it is closed (R107): only closed records are handed on. -/
def Blk.ringHead (u : Blk) : Option Rec :=
  match u.rcd.ring with
  | [] => none
  | [r] => if u.rcd.isOpen then none else some r
  | r :: _ :: _ => some r

/-- A report of a record whose code, severity and payload layout the spec does not give. -/
def Blk.reportOpen (u : Blk) (page n : Nat) (src : StampSrc) (data : List Nat) : Blk :=
  u.report (rkOpen page n) src (Config.recordPayload page n data)

/-! ### Host memory and free values -/

/-- The next free value's number: each use of a free value takes a fresh one. -/
def Blk.freshen (u : Blk) : Blk := { u with fresh := u.fresh + 1 }

/-- A write to host memory, seen at the port and held as the host's memory holds it: good data clears the poison of the words that it covers whole. -/
def Blk.hostWrite (u : Blk) (a : Nat) (l : List Byte) : Blk :=
  { u with poison := u.poison.filter (fun e => !(decide (a ≤ 8 * e.1) && decide (8 * e.1 + 8 ≤ a + l.length))),
           host := (l.zipIdx a).foldl (fun (m : SMap Byte) (p : Byte × Nat) => smPut m p.2 p.1) u.host }.emit (.dma a l)

/-- A word of host memory is written in the poisoned form (R384, R386). -/
def Blk.hostPoison (u : Blk) (a : Nat) : Blk := { u with poison := smPut u.poison (a / 8) 1 }.emit (.poisonTlp a)

/-- `n` bytes of host memory; a byte nothing has written is a free value. -/
def Blk.hostRead (u : Blk) (a n : Nat) : List Byte :=
  (List.range n).map (fun i => match smGet? u.host (a + i) with | some b => b | none => Config.hostByte (a + i))

/-- `BLK.PGVER`: version 2.3, the patch level and the build letter (R1). -/
def Blk.pgver (u : Blk) : W32 :=
  BitVec.ofNat 32 (0x02030000 + Config.patchLevel.toNat * 256 + (match u.build with | .leaf => 0x4C | .tray => 0x54))

end Sys2Proof.Machine
end

