-- ==== Sys2Proof/Machine/Egress.lean ====
section
/-!
DEFINITION. Egress buffers, the scheduler with its gates, the timestamp queue and the control link
(spec/08_frames_links_scheduling.md, R162 to R178), and the firing of an armed injection (R391).
-/

namespace Sys2Proof.Machine

/-! ### Injection -/

/-- An injection is armed at bit `i` of copy `n` of page `p` (R390). -/
def Blk.armed (u : Blk) (p n i : Nat) : Bool := u.rb (inst (p * 0x1000 + H.PGINJ) n) i

/-- The injection parameter of a page, PGINJSEL [11:0]. -/
def Blk.injParam (u : Blk) (p n : Nat) : Nat := u.rf (inst (p * 0x1000 + H.PGINJSEL) n) 0 12

/-- "injection fired" (R391, R394). -/
def rkInjectionFired : RecKind := rk 0x15 0x0005 1 .always

/-- A page's armed injections are disarmed, and its arming sequence starts over, as a link reset does to the pages it resets (R392). -/
def Blk.disarmPage (u : Blk) (p n : Nat) : Blk :=
  let u := { u with er := { u.er with armStage := smSet u.er.armStage (n * 64 + p) 0 0 } }
  u.setReg (inst (p * 0x1000 + H.PGINJ) n) 0

/-- An armed injection fires (R391): its record, its count, the ERR cause, and the bit clears unless repeat is set. -/
def Blk.fire (u : Blk) (p n i : Nat) (memoryKind : Bool) : Blk :=
  let sel := u.rf (inst (p * 0x1000 + H.PGINJSEL) n) 0 16
  let u := u.report rkInjectionFired .dflt (pay [fd 0x24 2 (pageNo u.build p n), fd 0x26 1 i, fd 0x28 2 sel])
  let u := (u.bump R.ERR_INJFIRED).cause 0x15 0 4
  if Nat.testBit sel 15 && !memoryKind then u else u.setRb (inst (p * 0x1000 + H.PGINJ) n) i false

/-! ### Ports, links and cells -/

def Blk.port (u : Blk) (p : Nat) : Port := smGet u.ports p Port.reset
def Blk.setPort (u : Blk) (p : Nat) (x : Port) : Blk := { u with ports := smPut u.ports p x }
def Blk.modPort (u : Blk) (p : Nat) (f : Port → Port) : Blk := u.setPort p (f (u.port p))

def Blk.link (u : Blk) (l : Nat) : Link := smGet u.links l Link.reset
def Blk.setLink (u : Blk) (l : Nat) (x : Link) : Blk := { u with links := smPut u.links l x }
def Blk.modLink (u : Blk) (l : Nat) (f : Link → Link) : Blk := u.setLink l (f (u.link l))

def Blk.treeAt (u : Blk) (i : Nat) : TreeEntry := smGet u.tree i ⟨0, 0, 0⟩

/-- The parent link in use: the leaf has one link, the T build takes the alternate parent while `LNK.CTL.alt` is 1 (R346, R381). -/
def Blk.parentLink (u : Blk) : Nat :=
  match u.build with
  | .leaf => 0
  | .tray => if u.rb R.LNK_CTL 30 then 1 else 0

/-- The port that reaches a link (R451). -/
def Blk.linkPort (u : Blk) (l : Nat) : Nat :=
  match u.build with
  | .leaf => 0
  | .tray => fld (u.treeAt l).attr 0 3

/-- Cells a message takes (R167). -/
def Msg.cells (m : Msg) : Nat := ceilDiv (8 + m.body.length) 256

/-- A record of the leaf's queue 3, which leaves through the DMA port (R170); no message of a link has its kind. -/
def kindRecord : Nat := 8

/-- Bytes of a message in the weighted group (R171): a record has no link header (R170). -/
def Msg.size (m : Msg) : Nat := if m.kind = kindRecord then m.body.length else 8 + m.body.length

/-- Port bytes B of a message (R173). -/
def Msg.portBytes (m : Msg) (tagged : Bool) : Nat :=
  if m.kind = 0 then m.body.length else m.body.length + 54 + (if tagged then 4 else 0)

def Port.queue (p : Port) (q : Nat) : List Msg := smGet p.queues q []
def Port.setQueue (p : Port) (q : Nat) (l : List Msg) : Port := { p with queues := smSet p.queues q l [] }
def Port.wait (p : Port) (q : Nat) : List Msg := smGet p.waiting q []
def Port.setWait (p : Port) (q : Nat) (l : List Msg) : Port := { p with waiting := smSet p.waiting q l [] }

/-- Cells that the messages of a list take. -/
def cellsOf (l : List Msg) : Nat := (l.map Msg.cells).sum

/-- Cells queue `q` of port `p` holds: committed messages, the one on the port, and retained control messages (R167, R168). A
message that is queued again for a resend keeps the cells it has. -/
def Blk.cellsHeld (u : Blk) (p q : Nat) : Nat :=
  let x := u.port p
  let fresh := (x.queue q).filter (fun m => !(m.kind == 4 && m.lseq.isSome))
  let onp := match x.onPort with
    | some o => if o.queue = q && (o.msg.isAck || o.msg.kind ≠ 4) then o.msg.cells else 0
    | none => 0
  let ret := if q = 1 then ((u.links.filter (fun e => u.linkPort e.1 = p)).map (fun e => cellsOf e.2.retained)).sum else 0
  cellsOf fresh + onp + ret

/-- Room for a message in queue `q` of port `p` (R167). -/
def Blk.room (u : Blk) (p q : Nat) (cells : Nat) : Bool :=
  decide (u.cellsHeld p q + cells ≤ u.rf (inst (R.SCH_QLIM + 4 * q) p) 0 13)

/-- A launch time is reached (R175): never while TB0 is not valid (R33). -/
def Blk.launched (u : Blk) (m : Msg) : Bool :=
  match m.launch with
  | none => true
  | some t => u.clk.valid && reached64 u.clk.ns t

/-- The even parity bit of a word of bytes (R158). -/
def wordParity (bs : List Byte) : Bool := popBelow (leVal bs) 32 % 2 = 1

/-- A list cut into pieces of `n` bytes, the last one shorter: `fuel` bounds how many. -/
def chunksOf (n : Nat) : Nat → List Byte → List (List Byte)
  | 0, _ => []
  | fuel + 1, l => if l.isEmpty then [] else l.take n :: chunksOf n fuel (l.drop n)

/-- The parity bits that the buffer stores with words (R161). -/
def storedParity (bytes : List Byte) : List Bool := (chunksOf 4 (bytes.length / 4 + 1) bytes).map wordParity

/-- The link header of a message of queue `q` (R163); the lseq is written when the message is first sent. -/
def Msg.header (m : Msg) (q : Nat) : List Byte :=
  let qf := (if m.kind = 4 && !m.isAck then 128 else 0) + (if m.resent then 64 else 0) + (if m.restart then 32 else 0) + q
  layout 8 [fd 0 1 m.kind, fd 1 1 qf, fd 2 2 m.body.length, fd 4 4 (m.lseq.getD 0).toNat]

/-- The message has a link header: a time frame (R162) and a record (R170) have none. -/
def Msg.headed (m : Msg) : Bool := decide (m.kind ≠ 0) && decide (m.kind ≠ kindRecord)

/-- What the buffer stores of a message: its link header, where it has one, and its body (R167). -/
def Msg.stored (m : Msg) (q : Nat) : List Byte := (if m.headed then m.header q else []) ++ m.body

/-- The first stored word of a message whose parity does not hold as it is read out (R161). -/
def Msg.firstBad (m : Msg) (q : Nat) : Option Nat := (storedParity (m.stored q)).zip m.parity |>.findIdx? (fun x => x.1 != x.2)

/-- The message's parity bits are stored with it; an upset inverts those of the first word written (R388). -/
def Msg.store (m : Msg) (q : Nat) (upset : Bool) : Msg :=
  let ps := storedParity (m.stored q)
  { m with parity := match ps with | b :: t => (b != upset) :: t | [] => [] }

/-- The link header of a message is written anew, with its parity (R161, R164, R166): the words of the body keep theirs. -/
def Msg.rehead (m : Msg) (q : Nat) : Msg :=
  if m.headed then { m with parity := storedParity (m.header q) ++ m.parity.drop 2 } else m

/-- The items of a packet (R158, R417): word `bad`, if there is one, goes out as it was stored, and it and every later word with the poison tag
(R161). -/
def packetItems (bytes : List Byte) (bad : Option Nat) : List Item :=
  let beats := chunksOf 64 (bytes.length / 64 + 1) bytes
  let n := beats.length
  (beats.zipIdx).map (fun (x : List Byte × Nat) =>
    let d := bytesAt x.1 0 64
    let bits := fun (f : Nat → Bool) => BitVec.ofNat 16 (((List.range 16).filter f).map (fun j => 2 ^ j)).sum
    { data := d, start := decide (x.2 = 0), stop := decide (x.2 + 1 = n), count := if x.2 + 1 = n then BitVec.ofNat 7 x.1.length else 0,
      parity := bits (fun j => wordParity (bytesAt d (4 * j) 4) != decide (bad = some (16 * x.2 + j))),
      poison := bits (fun j => match bad with | some b => decide (b ≤ 16 * x.2 + j) | none => false) })

/-- Commit a message (R168): the scheduler sees it from now on, and every word stands with its parity bit (R161). A launch time that is reached
already makes it late (R175). An armed egress parity injection takes the first word written (R388). -/
def Blk.commit (u : Blk) (p q : Nat) (m : Msg) : Blk :=
  let inj := u.armed 0x10 0 2 && decide (u.injParam 0x10 0 % 8 = q)
  let late := m.launch.isSome && u.launched m
  let u := if late then u.bump (inst R.SCH_LATE p) else u
  let u := u.modPort p (fun x =>
    x.setQueue q (x.queue q ++ [{ m.store q inj with commitAt := u.clk.ival, late := late }]))
  if inj then u.fire 0x10 0 2 false else u

/-- Commit a message, or let it wait in order for room (R169). -/
def Blk.enqueue (u : Blk) (p q : Nat) (m : Msg) : Blk :=
  if ((u.port p).wait q).isEmpty && u.room p q m.cells then u.commit p q m
  else u.modPort p (fun x => x.setWait q (x.wait q ++ [m]))

/-- Commit the waiting messages that fit now, in order: `n` bounds how many. -/
def Blk.promoteN (u : Blk) (p q : Nat) : Nat → Blk
  | 0 => u
  | n + 1 =>
    match (u.port p).wait q with
    | [] => u
    | m :: t => if u.room p q m.cells then ((u.modPort p (fun x => x.setWait q t)).commit p q m).promoteN p q n else u

/-- Cells of queue `q` freed: waiting messages are committed in order while they fit. -/
def Blk.promote (u : Blk) (p q : Nat) : Blk := u.promoteN p q ((u.port p).wait q).length

/-- A message of a kind for a link, with nothing special. -/
def mkMsg (kind link : Nat) (body : List Byte) : Msg :=
  { kind := kind, link := link, body := body, isAck := false, notice := false, tag := 0, launch := none, late := false,
    commitAt := 0, sentAt := 0, lseq := none, restart := false, resent := false, badWord := false, parity := [], dest := none, ingress := none }

/-- A control message body (R165): code, body length, the rest. -/
def ctlBody (code : Nat) (rest : List Byte) : List Byte := leBytes 2 code ++ leBytes 2 (4 + rest.length) ++ rest

/-- Send a control message on a link: it waits in order where there is no room (R169). The keepalive interval starts again
(R376). -/
def Blk.sendCtl (u : Blk) (link : Nat) (code : Nat) (rest : List Byte) : Blk :=
  (u.enqueue (u.linkPort link) 1 (mkMsg 4 link (ctlBody code rest))).modLink link (fun l => { l with keepAt := u.clk.ival })

/-- Send a control message toward the parent. -/
def Blk.sendUp (u : Blk) (code : Nat) (rest : List Byte) : Blk := u.sendCtl u.parentLink code rest

/-- Send a link acknowledgement for an lseq (R164, R166): it requests none and takes no lseq. -/
def Blk.sendAck (u : Blk) (link : Nat) (lseq : W32) : Blk :=
  u.enqueue (u.linkPort link) 1 { mkMsg 4 link (ctlBody 1 (leBytes 4 lseq.toNat)) with isAck := true }

/-- Send a message of another kind on its queue of a link's port, waiting in order for room. -/
def Blk.sendMsg (u : Blk) (link kind q : Nat) (body : List Byte) : Blk := u.enqueue (u.linkPort link) q (mkMsg kind link body)

/-! ### Gates (R172, R173) -/

/-- The gate entries that take part: the first GLEN of the active bank, entries of duration 0 passed over. -/
def Port.gateList (p : Port) : List (Byte × Nat) :=
  let b := if p.activeBank then p.bank1 else p.bank0
  ((List.range b.glen).map (fun e => let g := smGet b.gates e 0; (BitVec.ofNat 8 (fld g 24 8), fld g 0 24))).filter (fun x => x.2 ≠ 0)

/-- Lay gate entries over one cycle: (mask, start, end), cut off at the cycle's end, the last held to it. -/
def laySegs (cyc : Nat) : Nat → List (Byte × Nat) → List (Byte × Nat × Nat)
  | _, [] => []
  | at0, [(m, _)] => if at0 < cyc then [(m, at0, cyc)] else []
  | at0, (m, d) :: e :: t => if at0 < cyc then (m, at0, min (at0 + d) cyc) :: laySegs cyc (at0 + d) (e :: t) else []

/-- The gates take part (R172): enabled, TB0 valid and at or past GBASE, a cycle length, and some entry with a duration. -/
def Blk.gatesOn (u : Blk) (p : Nat) : Bool :=
  u.rb (inst R.SCH_CTL p) 31 && u.clk.valid &&
  reached64 u.clk.ns (BitVec.ofNat 64 (u.rn64 (inst R.SCH_GBASE_L p) (inst R.SCH_GBASE_H p))) &&
  decide (u.rn (inst R.SCH_GCYC p) ≠ 0) && !(u.port p).gateList.isEmpty

/-- Nanoseconds since the last cycle start. -/
def Blk.gatePhase (u : Blk) (p : Nat) : Nat :=
  (u.clk.ns - BitVec.ofNat 64 (u.rn64 (inst R.SCH_GBASE_L p) (inst R.SCH_GBASE_H p))).toNat % u.rn (inst R.SCH_GCYC p)

/-- The gate mask in force (R172). -/
def Blk.gateMask (u : Blk) (p : Nat) : Byte :=
  if u.gatesOn p then
    let ph := u.gatePhase p
    match (laySegs (u.rn (inst R.SCH_GCYC p)) 0 (u.port p).gateList).find? (fun s => s.2.1 ≤ ph && ph < s.2.2) with
    | some s => s.1
    | none => 0
  else 0xFF

/-- The total length of the leading segments that are open for `q`. -/
def openRun (q : Nat) : List (Byte × Nat × Nat) → Nat
  | [] => 0
  | s :: t => if bit s.1 q then (s.2.2 - s.2.1) + openRun q t else 0

/-- rem(q, t) of R173 in nanoseconds, looking through later cycles, those after a pending swap with the list it brings: none where the gate never
closes. -/
def Blk.gateRem (u : Blk) (p q : Nat) : Option Nat :=
  if u.gatesOn p then
    let ph := u.gatePhase p
    let x := u.port p
    let cyc := u.rn (inst R.SCH_GCYC p)
    let ahead := (laySegs cyc 0 x.gateList).filterMap (fun s => if ph < s.2.2 then some (s.1, max s.2.1 ph, s.2.2) else none)
    let later := laySegs cyc 0 (if x.swapPend then { x with activeBank := !x.activeBank } else x).gateList
    if (ahead ++ later).all (fun s => bit s.1 q) then none else some (openRun q (ahead ++ later))
  else none

/-- The longest open interval of `q`, looking through later cycles: none where the gate never closes. -/
def Blk.gateLongest (u : Blk) (p q : Nat) : Option Nat :=
  if u.gatesOn p then
    let segs := laySegs (u.rn (inst R.SCH_GCYC p)) 0 (u.port p).gateList
    if segs.all (fun s => bit s.1 q) then none
    else some (((List.range segs.length).map (fun i => openRun q (segs.drop i ++ segs))).foldl max 0)
  else none

/-- The transmission time of a message in nanoseconds (R173). -/
def Blk.txTime (u : Blk) (p : Nat) (m : Msg) : Nat :=
  ceilDiv ((m.portBytes (u.rb R.LNK_CTL 29) + u.rf (inst R.SCH_OVH p) 0 8) * 1000) (u.rf (inst R.SCH_RATE p) 0 24)

/-- The head fits before its gate closes (R173). -/
def Blk.fits (u : Blk) (p q : Nat) (m : Msg) : Bool :=
  match u.gateRem p q with
  | none => true
  | some r => bit (u.gateMask p) q && decide (u.txTime p m + u.rf (inst R.SCH_GUARD p) 0 16 ≤ r)

/-- The head could never start (R173). -/
def Blk.neverFits (u : Blk) (p q : Nat) (m : Msg) : Bool :=
  match u.gateLongest p q with
  | none => false
  | some r => decide (r < u.txTime p m + u.rf (inst R.SCH_GUARD p) 0 16)

/-! ### The timestamp queue -/

/-- "timestamp queue overflow" (R178, R183). -/
def rkTsqOverflow : RecKind := rk 0x12 0x0001 2 .bySeverity

/-- Place an entry in the 16-entry timestamp queue of a port, or lose it (R177, R178). -/
def Blk.tsqPush (u : Blk) (p : Nat) (e : TsEntry) : Blk :=
  if (u.port p).tsq.length < 16 then u.modPort p (fun x => { x with tsq := x.tsq ++ [e] })
  else
    let u := ((u.bump (inst R.TSQ_LOST p)).setRb (inst R.TSQ_STS p) 31 true).cause 0x12 0 0
    u.report rkTsqOverflow .dflt (pay [fd 0x24 4 e.e1.toNat])

/-- The PTP message of a time frame: what follows its EtherType, an 802.1Q tag passed over (R53). -/
def ptpOf (frame : List Byte) : List Byte :=
  if beVal (bytesAt frame 12 2) = 0x8100 then frame.drop 18 else frame.drop 14

/-- TB0 nanoseconds plus a signed 16-bit correction register (R53). -/
def Blk.stampWith (u : Blk) (k : Nat) : W64 := u.clk.ns + ((u.reg k).extractLsb' 0 16).signExtend 64

/-- TB0 as a T-build port stamps what it receives and what it sends, at its PCS reference plane and with its PHY's fixed latency corrected (R56). -/
def Blk.portRx (u : Blk) (p : Nat) : W96 := u.clk.tb - Config.phyRx p
def Blk.portTx (u : Blk) (p : Nat) : W96 := u.clk.tb + Config.phyTx p

/-- The octet at which the IEEE 1588 message of a frame begins: behind the addresses, a tag if there is one, and the EtherType. -/
def ptpAt (frame : List Byte) : Nat := if beVal (bytesAt frame 12 2) = 0x8100 then 18 else 14

/-- A transmit timestamp, in TB0 nanoseconds: the leaf's at its frame port (R53), the T build's at the port's reference plane (R56). -/
def Blk.txStamp (u : Blk) (p : Nat) : W64 :=
  match u.build with
  | .leaf => u.stampWith R.TBS_TXLAT
  | .tray => (u.portTx p).extractLsb' 32 64

/-- The timestamps of a message that starts on the port: of an event message that this unit sends itself (R53 to R55, R177), not of one it forwards. -/
def Blk.tsqFor (u : Blk) (p q : Nat) (m : Msg) : Blk :=
  let ptp := ptpOf m.body
  let ty := (ptp.headD 0).toNat % 16
  let u := if m.kind = 0 && m.ingress.isNone && decide (ty ≤ 3) then
      u.tsqPush p ⟨BitVec.ofNat 32 (2 ^ 31 + (if m.late then 2 ^ 29 else 0) + q * 2 ^ 16),
        BitVec.ofNat 32 (ty * 2 ^ 28 + (bytesAt ptp 4 1 |> leVal) * 2 ^ 16 + beVal (bytesAt ptp 30 2)), u.txStamp p⟩
    else u
  if m.notice then
    u.tsqPush p ⟨BitVec.ofNat 32 (2 ^ 31 + 2 ^ 30 + (if m.late then 2 ^ 29 else 0) + q * 2 ^ 16), m.tag, u.clk.ns⟩
  else u

/-! ### Link down and numbering (R164, R166) -/

/-- "link down" and "link up" (R166, R183). -/
def rkLinkDown : RecKind := rk 0x10 0x0001 3 .always
def rkLinkUp : RecKind := rk 0x10 0x0002 1 .always

/-- Number retained messages afresh from 0; the oldest carries the restart flag. -/
def renumber : Nat → List Msg → List Msg
  | _, [] => []
  | n, m :: t =>
    ({ m with lseq := some (BitVec.ofNat 32 n), restart := decide (n = 0), resent := true } : Msg).rehead 1 :: renumber (n + 1) t

/-- A sender's numbering restarts on every queue of a link (R164): retained control messages are numbered afresh (R166). -/
def Link.restart (l : Link) : Link :=
  { l with sendSeq := if l.retained.isEmpty then [] else [(1, BitVec.ofNat 32 l.retained.length)],
           restartDue := if l.retained.isEmpty then 0xFF else 0xFD#8,
           retained := renumber 0 l.retained, acked := none }

/-- Queue messages of a link that wait for a resend leave the queue: they are queued again from the retained list. -/
def Blk.dropResends (u : Blk) (link : Nat) : Blk :=
  u.modPort (u.linkPort link) (fun x => x.setQueue 1 ((x.queue 1).filter (fun m => !(m.link == link && m.kind == 4 && m.lseq.isSome))))

/-- Queue a link's retained messages again, ahead of what has not been sent yet. -/
def Blk.requeue (u : Blk) (link : Nat) (ms : List Msg) : Blk :=
  let u := u.dropResends link
  let u := u.modPort (u.linkPort link) (fun x => x.setQueue 1 (ms ++ x.queue 1))
  u.modLink link (fun l => { l with retained := l.retained.map (fun m => { m with sentAt := u.clk.ival }) })

/-- Declare a link down (R166): the record, the link reset of the frame port with its cause and its numbering, and the oldest
retained message sent with restart. -/
def Blk.linkDown (u : Blk) (link : Nat) : Blk :=
  let l := u.link link
  let u := (u.cause 0x10 0 0).disarmPage 0x10 0
  let u := u.setN R.BLK_RSTCAUSE (3 * 2 ^ 30 + 16)
  let u := u.report rkLinkDown .dflt
    (pay [fd 0x24 4 (((l.retained.head?.bind Msg.lseq).map BitVec.toNat).getD 0), fd 0x28 4 l.resends])
  let u := u.modLink link (fun x => { x.restart with down := true, downAt := u.clk.ival, restartAt := u.clk.ival, resends := 0 })
  u.requeue link ((u.link link).retained.take 1)

/-- A link comes up (R166): the record with the time it was down, and the remaining retained messages follow in order. -/
def Blk.linkUp (u : Blk) (link : Nat) : Blk :=
  let l := u.link link
  let u := u.report rkLinkUp .dflt (pay [fd 0x24 4 (ivUs (u.clk.ival - l.downAt))])
  let u := u.modLink link (fun x => { x with down := false })
  u.requeue link (u.link link).retained

/-- A link acknowledgement arrives (R166): it releases retained messages up to its lseq, and brings a link that is down up. -/
def Blk.linkAck (u : Blk) (link : Nat) (lseq : W32) : Blk :=
  let l := u.link link
  let fresh := match l.acked with | none => true | some a => stepAfter lseq a
  if fresh then
    let keep := l.retained.filter (fun m => match m.lseq with | some s => stepAfter s lseq | none => true)
    let u := u.modLink link (fun x => { x with retained := keep, acked := some lseq, resends := 0 })
    let u := u.modPort (u.linkPort link) (fun x => x.setQueue 1 ((x.queue 1).filter (fun m =>
      !(m.link == link && m.kind == 4 && (match m.lseq with | some s => !stepAfter s lseq | none => false)))))
    let u := if l.down then u.linkUp link else u
    u.promote (u.linkPort link) 1
  else if l.down then u.linkUp link else u

/-- The resend interval of a link: `LNK.ACKTO`, 0 acting as 1 (R166). -/
def Blk.ackTo (u : Blk) : Nat := usIv (max 1 (u.rf R.LNK_ACKTO 0 16))

/-- The sender rewinds to the oldest retained message (R166). -/
def Blk.rewind (u : Blk) (link : Nat) : Blk :=
  let u := (u.bump R.LNK_RESENT).modLink link (fun l => { l with resends := l.resends + 1 })
  u.requeue link ((u.link link).retained.map (fun m => ({ m with resent := true } : Msg).rehead 1))

/-! ### Starting and finishing a packet -/

/-- A hello, an accept or a refusal: the only control messages of the bootstrap epoch (R408). -/
def Msg.bootstrap (m : Msg) : Bool := m.kind = 4 && decide (numAt m.body 0 2 = 8) && decide (numAt m.body 4 1 ≤ 2)

/-- Where a packet of a link goes (R162): the parent's or alternate parent's address in the leaf, the tree table's in the T build. -/
def Blk.destMac (u : Blk) (link : Nat) : Nat :=
  match u.build with
  | .leaf => if u.rb R.LNK_CTL 30 then u.rn64 R.LNK_PMAC1_L R.LNK_PMAC1_H else u.rn64 R.LNK_PMAC0_L R.LNK_PMAC0_H
  | .tray => (u.treeAt link).mac.toNat

/-- Where a packet comes from (R162): `LNK.SMAC` in the leaf. -/
def Blk.srcMac (u : Blk) (link : Nat) : Nat :=
  match u.build with
  | .leaf => u.rn64 R.LNK_SMAC_L R.LNK_SMAC_H
  | .tray => (Config.portMac (u.linkPort link)).toNat

/-- A saggar frame, its message in clear (R162, R163, R408): Ethernet header, envelope header, link header, body, and the GCM tag, of which an armed
injection inverts bit 0 (R388). -/
def Blk.packetBytes (u : Blk) (m : Msg) (q : Nat) (epoch : Byte) (ctr : Nat) (badTag : Bool) : List Byte :=
  if m.kind = 0 then m.body
  else
    let tag := if u.rb R.LNK_CTL 29 then beBytes 2 0x8100 ++ beBytes 2 (u.rf R.LNK_VLAN 0 16) else []
    beBytes 6 (match m.dest with | some d => d.toNat | none => u.destMac m.link) ++ beBytes 6 (u.srcMac m.link) ++ tag ++ beBytes 2 (u.rf R.LNK_ETYPE 0 16) ++
      layout 16 [fd 0 1 1, fd 1 1 epoch.toNat, fd 4 8 ctr, fd 0x0C 2 (8 + m.body.length)] ++
      m.stored q ++ leBytes 16 (Config.gcmTag u.fresh ^^^ (if badTag then 1 else 0)).toNat

/-- "egress poisoned" (R161, R183). -/
def rkEgressPoisoned : RecKind := rk 0x10 0x0006 3 .always

/-- A message of a link takes the next lseq of its queue (R164), with the restart flag where one is due. -/
def Link.number (l : Link) (q : Nat) (m : Msg) : Link × Msg :=
  if m.isAck || m.kind = 0 || m.lseq.isSome then (l, m)
  else
    let s := smGet l.sendSeq q 0
    ({ l with sendSeq := smPut l.sendSeq q (s + 1), restartDue := setBit l.restartDue q false },
     { m with lseq := some s, restart := bit l.restartDue q })

/-- The epoch a message travels in (R407, R408): hellos, accepts and refusals in the bootstrap epoch 0. -/
def Link.epochOf (l : Link) (m : Msg) : Byte := if m.bootstrap then 0 else l.epoch

/-- The envelope counter of the next frame of an epoch (R409); `again` reuses the one before (R388). -/
def Link.nextCtr (l : Link) (epoch : Byte) (again : Bool) : Link × Nat :=
  if epoch = 0 then
    let c := if again then l.boot else l.boot + 1
    ({ l with boot := c }, c)
  else
    let c := if again then l.txCtr else l.txCtr + 1
    ({ l with txCtr := c }, c)

/-- Residence time of a forwarded time frame in correctionField units of 2^-16 ns, truncated (R56): negative where a step of TB0 set it back while the
frame was queued. -/
def residence (ingress egress : W96) : Int := (egress - ingress).toInt / 2 ^ 16

/-- A forwarded time frame as it leaves (R56): residence time and link delay are added to its correctionField, which stops at its largest value. -/
def correctFrame (frame : List Byte) (add : Int) : List Byte :=
  let o := ptpAt frame + 8
  let c := (BitVec.ofNat 64 (beVal (bytesAt frame o 8)) : W64).toInt + add
  overlay frame o (beBytes 8 (BitVec.ofInt 64 (min c 0x7FFFFFFFFFFFFFFF)).toNat)

/-- The frame that a message of kind 0 is sent as on a port, in the present cycle: Sync and Delay_Req are corrected (R55, R56). -/
def Blk.timeFrame (u : Blk) (p : Nat) (m : Msg) : Msg :=
  match m.ingress with
  | some (at0, pld) =>
    let ty := ((m.body.getD (ptpAt m.body) 0).toNat) % 16
    if ty ≤ 1 then { m with body := correctFrame m.body (residence at0 (u.portTx p) + pld.toInt) } else m
  | none => m

/-- A record of queue 3 takes the buffer's read port for one cycle, in which the frame port sends the idle item (R159, R170). -/
def Blk.startRecord (u : Blk) (p q : Nat) (m : Msg) : Blk :=
  let u := if (m.firstBad q).isSome then
      ((u.bump R.LNK_EPOIS).cause 0x10 0 2).report rkEgressPoisoned .dflt (pay [fd 0x24 1 q])
    else u
  let u := u.emit .idleItem
  u.modPort p (fun x => { x with onPort := some ⟨m, q, u.clk.ival + u.clk.inc.toNat, m.size, none⟩ })

/-- A message starts on a port: it is numbered, counted by the envelope, retained when it is a control message, stamped where a
timestamp is due, and it occupies the port for its transmission time. -/
def Blk.startMsg (u : Blk) (p q : Nat) (m : Msg) : Blk :=
  if m.kind = kindRecord then u.startRecord p q m
  else
    let bad := m.firstBad q
    let m := u.timeFrame p m
    let l := u.link m.link
    let injTag := m.kind ≠ 0 && u.armed 0x15 0 1 && decide (u.injParam 0x15 0 % 8 = q)
    let injCtr := m.kind ≠ 0 && u.armed 0x15 0 2 && decide (u.injParam 0x15 0 % 8 = q)
    let (l, m) := l.number q m
    let m := m.rehead q
    let epoch := l.epochOf m
    let (l, ctr) := if m.kind ≠ 0 then l.nextCtr epoch injCtr else (l, 0)
    let isNew := m.kind = 4 && !m.isAck && !l.retained.any (fun r => r.lseq = m.lseq)
    let stamp := fun (r : Msg) => if r.lseq = m.lseq then { r with sentAt := u.clk.ival } else r
    let l := if m.kind = 4 && !m.isAck then
        { l with retained := if isNew then l.retained ++ [{ m with sentAt := u.clk.ival }] else l.retained.map stamp }
      else l
    let bytes := u.packetBytes m q epoch ctr injTag
    let u := if m.kind = 0 then u else u.freshen.setLink m.link l
    let u := if injTag then u.fire 0x15 0 1 false else u
    let u := if injCtr then u.fire 0x15 0 2 false else u
    let u := if m.badWord || bad.isSome then
        ((u.bump R.LNK_EPOIS).cause 0x10 0 2).report rkEgressPoisoned .dflt
          (pay [fd 0x24 1 q, fd 0x28 4 ((m.lseq.map BitVec.toNat).getD 0)])
      else u
    let fault := if m.badWord || bad.isSome then 1 else if injTag then 2 else if injCtr then 3 else 0
    let head := if m.headed then bytes.length - m.body.length - 24 else 0
    let u := u.emit (match u.build with
      | .leaf => .items q (packetItems bytes (bad.map (fun w => (head + 4 * w) / 4))) fault
      | .tray => .packet p q bytes fault)
    let u := u.tsqFor p q m
    let tx := u.txTime p m
    let closes := (u.gateRem p q).map (fun r => u.clk.ival + nsIv r)
    u.modPort p (fun x => { x with onPort := some ⟨m, q, u.clk.ival + nsIv tx, m.portBytes (u.rb R.LNK_CTL 29), closes⟩ })

/-- The last beat leaves after the gate has closed (R174). -/
def OnPort.late (o : OnPort) (now : Nat) : Bool := match o.closes with | none => false | some c => decide (c < now)

/-- The packet on the port ends (R168, R174, R176): it is counted, and its cells free unless a control message retains them. Its
last beat leaves at the end of its transmission time, or later, where the network interface is slower than SCH.RATE and the
command comes later: then it may leave after the gate has closed. -/
def Blk.finishMsg (u : Blk) (p : Nat) : Blk :=
  match (u.port p).onPort with
  | none => u
  | some o =>
    let u := u.toIv o.endAt
    let u := u.modPort p (fun x => { x with onPort := none })
    let u := u.count (inst (R.SCH_SENT + 32 * o.queue) p) 1
    let u := u.count64 (inst (R.SCH_BYTES_L + 32 * o.queue) p) (inst (R.SCH_BYTES_H + 32 * o.queue) p) o.bytes
    let u := match u.build with | .tray => u.count (inst R.ETH_TXOK p) 1 | .leaf => u
    let u := if o.late u.clk.ival then (u.bump (inst (R.SCH_OVR + 32 * o.queue) p)).cause 0x11 0 0 else u
    u.promote p o.queue

/-! ### The scheduler (R170, R171) -/

/-- A message may go out on its link: before admission only time frames and bootstrap messages do, from a T build acknowledgements besides (R368, R376),
and while a link is down, of the control messages, only the restarted one besides (R166). A link whose counter is used up sends no
protected frame (R409). -/
def Blk.linkOpen (u : Blk) (m : Msg) : Bool :=
  let l := u.link m.link
  m.kind = 0 || m.kind = kindRecord || m.bootstrap || ((l.epoch = 0 || decide (l.txCtr < 2 ^ 48)) &&
    ((m.isAck && (l.admitted || u.build = .tray)) || (l.admitted && (m.kind ≠ 4 || m.restart || !l.down))))

/-- The message queue `q` would send: its head, if its link lets it go; on the control queue, the first whose link does. -/
def Blk.headOf (u : Blk) (p q : Nat) : Option Msg :=
  if q = 1 then ((u.port p).queue 1).find? u.linkOpen else ((u.port p).queue q).head?.filter u.linkOpen

/-- Queue `q` is eligible (R170). Queue 3 leaves through the DMA port in the leaf, whatever the gates; it is empty in the T build. -/
def Blk.eligible (u : Blk) (p q : Nat) : Bool :=
  match u.headOf p q with
  | none => false
  | some m => q = 3 || (u.launched m && u.fits p q m)

/-- The weighted round (R171): `fuel` bounds the visits. Answers the queue to send from and the port with its deficits. -/
def Blk.drr (u : Blk) (p : Nat) : Nat → Port → Option Nat × Port
  | 0, x => (none, x)
  | fuel + 1, x =>
    let q := x.round
    let nextQ := if q < 7 then q + 1 else 2
    let wt := u.rf (inst (R.SCH_WGT + 4 * q) p) 0 8
    if u.eligible p q && decide (wt ≠ 0) then
      let d := smGet x.deficit q 0 + (if x.granted then 0 else wt * 256)
      let size := match u.headOf p q with | some m => m.size | none => 0
      if size ≤ d then (some q, { x with deficit := smSet x.deficit q (d - size) 0, granted := true })
      else u.drr p fuel { x with deficit := smSet x.deficit q d 0, round := nextQ, granted := false }
    else u.drr p fuel { x with round := nextQ, granted := false }

/-- The next queue to send from, and the port's round (R170): queue 0, then queue 1, then the weighted group; a weight of 0 takes
its turn only when no other weighted queue is eligible. -/
def Blk.pick (u : Blk) (p : Nat) : Option Nat × Port :=
  let x := u.port p
  if u.eligible p 0 then (some 0, x)
  else if u.eligible p 1 then (some 1, x)
  else
    let el := [2, 3, 4, 5, 6, 7].filter (fun q => u.eligible p q)
    if el.isEmpty then (none, x)
    else if el.all (fun q => u.rf (inst (R.SCH_WGT + 4 * q) p) 0 8 = 0) then (el.head?, x)
    else u.drr p 512 x

/-- "gate too short" (R173, R183). -/
def rkGateTooShort : RecKind := rk 0x11 0x0001 3 .always

/-- Remove the message that queue `q` would send; a queue that empties has its deficit set to 0 (R171). -/
def Blk.takeHead (u : Blk) (p q : Nat) : Blk :=
  let l := (u.port p).queue q
  let l' := if q = 1 then
      match l.findIdx? u.linkOpen with | some i => l.eraseIdx i | none => l
    else l.drop 1
  u.modPort p (fun x => { x.setQueue q l' with deficit := if l'.isEmpty then smDel x.deficit q else x.deficit })

/-- A head of queue `q` that could never start is discarded (R173). -/
def Blk.dropTooLong (u : Blk) (p q : Nat) : Blk :=
  match u.headOf p q with
  | some m =>
    if q ≠ 3 && u.neverFits p q m then
      let u := ((u.takeHead p q).bump (inst (R.SCH_DROP + 32 * q) p)).cause 0x11 0 1
      (u.report rkGateTooShort .dflt (pay [fd 0x24 1 q, fd 0x28 4 m.size])).promote p q
    else u
  | none => u

/-- The scheduler picks and starts the next message (R170); a leaf with nothing to send sends the idle item (R159). -/
def Blk.schedule (u : Blk) (p : Nat) : Blk :=
  let u := (List.range 8).foldl (fun (v : Blk) q => v.dropTooLong p q) u
  let r := u.pick p
  match r.1 with
  | none => match u.build with | .leaf => u.emit .idleItem | .tray => u
  | some q =>
    match u.headOf p q with
    | none => u
    | some m => ((u.setPort p r.2).takeHead p q).startMsg p q m

/-! ### Gate swaps (R172) -/

/-- The number of the cycle that TB0 is in; none before `GBASE`, where no cycle has started. -/
def Blk.cycleNo (u : Blk) (p : Nat) (ns : W64) : Option Nat :=
  let base := BitVec.ofNat 64 (u.rn64 (inst R.SCH_GBASE_L p) (inst R.SCH_GBASE_H p))
  if reached64 ns base then some ((ns - base).toNat / u.rn (inst R.SCH_GCYC p)) else none

/-- A cycle start has passed since the pending swap began to wait. -/
def Blk.swapDue (u : Blk) (p : Nat) : Bool :=
  (u.port p).swapPend &&
  (match u.cycleNo p (u.port p).swapFrom, u.cycleNo p u.clk.ns with
   | none, some _ => true
   | some a, some b => decide (a < b)
   | _, none => false)

/-- When the gate of queue `q` next closes, as it stands now. Queue 3 has no gate in force (R170). -/
def Blk.gateClose (u : Blk) (p q : Nat) : Option Nat := if q = 3 then none else (u.gateRem p q).map (fun r => u.clk.ival + nsIv r)

/-- The gate of a packet on the port closes at another time; once it has closed it stays so (R174). -/
def OnPort.regate (o : OnPort) (now : Nat) (closes : Option Nat) : OnPort :=
  match o.closes with
  | some c => if c ≤ now then o else { o with closes := closes }
  | none => { o with closes := closes }

/-- The gate state of a port follows a change of TB0 or of its gate registers (R172). -/
def Blk.gateFollow (u : Blk) (p : Nat) : Blk :=
  u.modPort p (fun x => { x with mask := u.gateMask p,
                                 onPort := x.onPort.map (fun o => o.regate u.clk.ival (u.gateClose p o.queue)) })

/-- The banks of a port's gate list change places, which changes the page's configuration (R172, R445). -/
def Blk.gateSwapNow (u : Blk) (p : Nat) : Blk :=
  ((u.modPort p (fun x => { x with activeBank := !x.activeBank, swapPend := false })).bumpSeq 0x11 0).gateFollow p

/-- A pending swap whose cycle start has passed is taken. -/
def Blk.gateSettle (u : Blk) (p : Nat) : Blk := if u.swapDue p then u.gateSwapNow p else u

/-- A pending swap after `GCYC` or `GBASE` or TB0 has changed: at once while `GCYC` is 0 (R172), else it looks for a cycle start from now on. -/
def Blk.gateRebase (u : Blk) (p : Nat) : Blk :=
  let u := if (u.port p).swapPend && decide (u.rn (inst R.SCH_GCYC p) = 0) then u.gateSwapNow p
    else u.modPort p (fun x => { x with swapFrom := u.clk.ns })
  u.gateFollow p

/-- A write of `SCH.CTL.swap`: at once while GCYC is 0, else at the next cycle start; ignored while one is pending. -/
def Blk.gateSwap (u : Blk) (p : Nat) : Blk :=
  let u := u.gateSettle p
  if (u.port p).swapPend then u else (u.modPort p (fun x => { x with swapPend := true })).gateRebase p

/-- A port of the T build whose link is down starts no packet (R182). -/
def Blk.portDown (u : Blk) (p : Nat) : Bool :=
  match u.build with
  | .leaf => false
  | .tray => !(u.port p).linkUp

/-- PACKET_SENT: the port finishes its packet, or is idle, and the scheduler picks the next. -/
def Blk.packetSent (u : Blk) (p : Nat) : Blk :=
  let u := (u.finishMsg p).gateSettle p
  if (u.port p).stopped || u.portDown p then u else u.schedule p

/-! ### Sampling (R176) -/

/-- Sample one queue of a port. -/
def Blk.sampleQueue (u : Blk) (p q : Nat) : Blk :=
  let l := (u.port p).queue q
  let d := match l.head? with | some m => min (ivNs (u.clk.ival - m.commitAt)) 0xFFFFFFFF | none => 0
  let u := u.setN (inst (R.SCH_DEPTH + 32 * q) p) ((l.length % 8192) * 2 ^ 16 + u.cellsHeld p q % 8192)
  (u.setN (inst (R.SCH_DELAY + 32 * q) p) d).peak (inst (R.SCH_MAXD + 32 * q) p) d

/-- QUEUE_SAMPLE: 2^SPER cycles after the last sample each queue of the port is sampled. -/
def Blk.queueSample (u : Blk) (p : Nat) : Blk :=
  let u := u.toTb1 ((u.port p).sampleAt + BitVec.ofNat 64 (2 ^ u.rf (inst R.SCH_SPER p) 0 5))
  let u := (List.range 8).foldl (fun (v : Blk) q => v.sampleQueue p q) u
  u.modPort p (fun x => { x with sampleAt := u.clk.tb1 })

/-- Nanoseconds to the next change of the gate list: the end of the present entry, or the next cycle start; before `GBASE`, the first. -/
def Blk.gateNext (u : Blk) (p : Nat) : Nat :=
  if (u.cycleNo p u.clk.ns).isNone then (BitVec.ofNat 64 (u.rn64 (inst R.SCH_GBASE_L p) (inst R.SCH_GBASE_H p)) - u.clk.ns).toNat
  else
  let ph := u.gatePhase p
  let ends := (laySegs (u.rn (inst R.SCH_GCYC p)) 0 (u.port p).gateList).map (fun s => s.2.2)
  match ends.find? (fun e => ph < e) with
  | some e => e - ph
  | none => u.rn (inst R.SCH_GCYC p) - ph

/-- GATE_ENTRY_CHANGE: time moves to the end of the entry in force or the next cycle start; a pending swap is taken at a cycle
start; the mask in force follows. -/
def Blk.gateEntryChange (u : Blk) (p : Nat) : Blk :=
  let cyc := u.rn (inst R.SCH_GCYC p)
  if cyc = 0 then u
  else
    ((u.toNs (u.clk.ns + BitVec.ofNat 64 (u.gateNext p))).gateSettle p).gateFollow p

/-- The gate state and launch times after TB0 jumped from `old` (R38, R172, R175): messages whose launch time was passed are late, and a pending swap
whose cycle start was passed is taken. -/
def Blk.egressAfterJump (u : Blk) (old : W64) : Blk :=
  let passed := fun (m : Msg) => match m.launch with
    | some t => !reached64 old t && reached64 u.clk.ns t
    | none => false
  let u := u.ports.foldl (fun (v : Blk) e =>
    let n := (e.2.queues.map (fun q => (q.2.filter passed).length)).sum
    let v := v.bumpBy (inst R.SCH_LATE e.1) n
    v.modPort e.1 (fun x => { x with queues := x.queues.map (fun q => (q.1, q.2.map (fun m => if passed m then { m with late := true } else m))) })) u
  u.ports.foldl (fun (v : Blk) e => (v.gateSettle e.1).gateRebase e.1) u

/-! ### Receiving: lseq (R164, R166) -/

/-- "receive gap" (R164, R183). -/
def rkReceiveGap : RecKind := rk 0x10 0x0003 1 .bySeverity

/-- Judge the lseq of a received message on a queue other than control (R164). Answers whether it is accepted. -/
def Blk.rxSeq (u : Blk) (link q : Nat) (lseq : W32) (restart : Bool) : Blk × Bool :=
  let l := u.link link
  let take := fun (v : Blk) => v.setLink link { l with base := smPut l.base q lseq }
  if restart then (take u, true)
  else
    match smGet? l.base q with
    | none => (take u, true)
    | some b =>
      if !stepAfter lseq b then (u.bump R.LNK_RXDUP, false)
      else if lseq = b + 1 then (take u, true)
      else
        let u := (take u).bumpBy R.LNK_RXGAP ((lseq - b).toNat - 1)
        (u.report rkReceiveGap .dflt (pay [fd 0x24 1 q, fd 0x28 4 (b + 1).toNat, fd 0x2C 4 lseq.toNat]), true)

/-- Judge the lseq of a control message (R166): exactly one past the last accepted, or restart; an accepted one is acknowledged. -/
def Blk.rxCtlSeq (u : Blk) (link : Nat) (lseq : W32) (restart : Bool) : Blk × Bool :=
  let l := u.link link
  let ok := restart || (match smGet? l.base 1 with | some b => decide (lseq = b + 1) | none => false)
  if ok then ((u.setLink link { l with base := smPut l.base 1 lseq }).sendAck link lseq, true)
  else
    match smGet? l.base 1 with
    | some b => if !stepAfter lseq b then (u.bump R.LNK_RXDUP, false) else (u, false)
    | none => (u, false)

/-! ### The mailbox (R169) -/

/-- The message kind that the mailbox gives a queue (R163). -/
def mailKind (q : Nat) : Nat := if q = 0 then 7 else if q = 1 then 4 else 6

/-- A write of `LNK.TXCTL`: with go set, the mailbox body is committed on queue 0, 1 or 7, or refused. A control message among them starts the keepalive
interval again (R376). -/
def Blk.mailboxSend (u : Blk) (d : W32) : Blk :=
  if !bit d 31 then u
  else
    let q := fld d 26 3
    let n := fld d 0 10
    let link := u.parentLink
    let p := u.linkPort link
    let m := { mkMsg (if bit d 25 then 0 else mailKind q) link (bytesAt u.mailbox 0 n) with
      notice := bit d 30, tag := u.reg R.LNK_TXTAG,
      launch := if bit d 29 then some (BitVec.ofNat 64 (u.rn64 R.LNK_TXAT_L R.LNK_TXAT_H)) else none }
    if (q = 0 || q = 1 || q = 7) && decide (1 ≤ n) && decide (n ≤ 512) && ((u.port p).wait q).isEmpty && u.room p q m.cells then
      let u := (u.setN R.LNK_TXSTS 0).commit p q m
      if m.kind = 4 then u.modLink link (fun l => { l with keepAt := u.clk.ival }) else u
    else u.setN R.LNK_TXSTS 2

end Sys2Proof.Machine
end

