-- ==== Sys2Proof/Machine/Sha2.lean ====
section
/-!
DEFINITION. SHA-256 and SHA-384 (FIPS 180-4), which R153, R357, R403 and others name. PRESUMED: the published algorithms; their
constants are the leading fraction bits of the square and cube roots of the first primes.
-/

namespace Sys2Proof.Machine

/-- The round constants of SHA-256: cube roots of the first 64 primes. -/
def shaSKa : List (BitVec 32) := [
  0x428A2F98#32, 0x71374491#32, 0xB5C0FBCF#32, 0xE9B5DBA5#32, 0x3956C25B#32, 0x59F111F1#32, 0x923F82A4#32, 0xAB1C5ED5#32,
  0xD807AA98#32, 0x12835B01#32, 0x243185BE#32, 0x550C7DC3#32, 0x72BE5D74#32, 0x80DEB1FE#32, 0x9BDC06A7#32, 0xC19BF174#32,
  0xE49B69C1#32, 0xEFBE4786#32, 0x0FC19DC6#32, 0x240CA1CC#32, 0x2DE92C6F#32, 0x4A7484AA#32, 0x5CB0A9DC#32, 0x76F988DA#32,
  0x983E5152#32, 0xA831C66D#32, 0xB00327C8#32, 0xBF597FC7#32, 0xC6E00BF3#32, 0xD5A79147#32, 0x06CA6351#32, 0x14292967#32,
  0x27B70A85#32, 0x2E1B2138#32, 0x4D2C6DFC#32, 0x53380D13#32, 0x650A7354#32, 0x766A0ABB#32, 0x81C2C92E#32, 0x92722C85#32]

/-- The round constants of SHA-256: cube roots of the first 64 primes. -/
def shaSKb : List (BitVec 32) := [
  0xA2BFE8A1#32, 0xA81A664B#32, 0xC24B8B70#32, 0xC76C51A3#32, 0xD192E819#32, 0xD6990624#32, 0xF40E3585#32, 0x106AA070#32,
  0x19A4C116#32, 0x1E376C08#32, 0x2748774C#32, 0x34B0BCB5#32, 0x391C0CB3#32, 0x4ED8AA4A#32, 0x5B9CCA4F#32, 0x682E6FF3#32,
  0x748F82EE#32, 0x78A5636F#32, 0x84C87814#32, 0x8CC70208#32, 0x90BEFFFA#32, 0xA4506CEB#32, 0xBEF9A3F7#32, 0xC67178F2#32]

/-- The round constants of SHA-256: cube roots of the first 64 primes. -/
def shaSK : List (BitVec 32) := shaSKa ++ shaSKb

/-- The round constants of SHA-384: cube roots of the first 80 primes. -/
def shaLKa : List (BitVec 64) := [
  0x428A2F98D728AE22#64, 0x7137449123EF65CD#64, 0xB5C0FBCFEC4D3B2F#64, 0xE9B5DBA58189DBBC#64,
  0x3956C25BF348B538#64, 0x59F111F1B605D019#64, 0x923F82A4AF194F9B#64, 0xAB1C5ED5DA6D8118#64,
  0xD807AA98A3030242#64, 0x12835B0145706FBE#64, 0x243185BE4EE4B28C#64, 0x550C7DC3D5FFB4E2#64,
  0x72BE5D74F27B896F#64, 0x80DEB1FE3B1696B1#64, 0x9BDC06A725C71235#64, 0xC19BF174CF692694#64,
  0xE49B69C19EF14AD2#64, 0xEFBE4786384F25E3#64, 0x0FC19DC68B8CD5B5#64, 0x240CA1CC77AC9C65#64,
  0x2DE92C6F592B0275#64, 0x4A7484AA6EA6E483#64, 0x5CB0A9DCBD41FBD4#64, 0x76F988DA831153B5#64,
  0x983E5152EE66DFAB#64, 0xA831C66D2DB43210#64, 0xB00327C898FB213F#64, 0xBF597FC7BEEF0EE4#64,
  0xC6E00BF33DA88FC2#64, 0xD5A79147930AA725#64, 0x06CA6351E003826F#64, 0x142929670A0E6E70#64,
  0x27B70A8546D22FFC#64, 0x2E1B21385C26C926#64, 0x4D2C6DFC5AC42AED#64, 0x53380D139D95B3DF#64,
  0x650A73548BAF63DE#64, 0x766A0ABB3C77B2A8#64, 0x81C2C92E47EDAEE6#64, 0x92722C851482353B#64]

/-- The round constants of SHA-384: cube roots of the first 80 primes. -/
def shaLKb : List (BitVec 64) := [
  0xA2BFE8A14CF10364#64, 0xA81A664BBC423001#64, 0xC24B8B70D0F89791#64, 0xC76C51A30654BE30#64,
  0xD192E819D6EF5218#64, 0xD69906245565A910#64, 0xF40E35855771202A#64, 0x106AA07032BBD1B8#64,
  0x19A4C116B8D2D0C8#64, 0x1E376C085141AB53#64, 0x2748774CDF8EEB99#64, 0x34B0BCB5E19B48A8#64,
  0x391C0CB3C5C95A63#64, 0x4ED8AA4AE3418ACB#64, 0x5B9CCA4F7763E373#64, 0x682E6FF3D6B2B8A3#64,
  0x748F82EE5DEFB2FC#64, 0x78A5636F43172F60#64, 0x84C87814A1F0AB72#64, 0x8CC702081A6439EC#64,
  0x90BEFFFA23631E28#64, 0xA4506CEBDE82BDE9#64, 0xBEF9A3F7B2C67915#64, 0xC67178F2E372532B#64,
  0xCA273ECEEA26619C#64, 0xD186B8C721C0C207#64, 0xEADA7DD6CDE0EB1E#64, 0xF57D4F7FEE6ED178#64,
  0x06F067AA72176FBA#64, 0x0A637DC5A2C898A6#64, 0x113F9804BEF90DAE#64, 0x1B710B35131C471B#64,
  0x28DB77F523047D84#64, 0x32CAAB7B40C72493#64, 0x3C9EBE0A15C9BEBC#64, 0x431D67C49C100D4C#64,
  0x4CC5D4BECB3E42B6#64, 0x597F299CFC657E2A#64, 0x5FCB6FAB3AD6FAEC#64, 0x6C44198C4A475817#64]

/-- The round constants of SHA-384: cube roots of the first 80 primes. -/
def shaLK : List (BitVec 64) := shaLKa ++ shaLKb

/-- The initial hash value of SHA-256: square roots of the first 8 primes. -/
def sha256H : List (BitVec 32) := [
  0x6A09E667#32, 0xBB67AE85#32, 0x3C6EF372#32, 0xA54FF53A#32, 0x510E527F#32, 0x9B05688C#32, 0x1F83D9AB#32, 0x5BE0CD19#32]

/-- The initial hash value of SHA-384: square roots of the 9th to 16th primes. -/
def sha384H : List (BitVec 64) := [
  0xCBBB9D5DC1059ED8#64, 0x629A292A367CD507#64, 0x9159015A3070DD17#64, 0x152FECD8F70E5939#64,
  0x67332667FFC00B31#64, 0x8EB44A8768581511#64, 0xDB0C2E0D64F98FA7#64, 0x47B5481DBEFA4FA4#64]

/-- Message schedule: 64 words, newest first, from the block's 16. -/
def shaSExpand : Nat → List (BitVec 32) → List (BitVec 32)
  | 0, ws => ws
  | n + 1, ws =>
    let a := ws.getD 14 0
    let b := ws.getD 1 0
    let g0 := (a.rotateRight 7) ^^^ (a.rotateRight 18) ^^^ (a >>> 3)
    let g1 := (b.rotateRight 17) ^^^ (b.rotateRight 19) ^^^ (b >>> 10)
    shaSExpand n ((g1 + ws.getD 6 0 + g0 + ws.getD 15 0) :: ws)

/-- One round on the eight working variables. -/
def shaSRound (v : List (BitVec 32)) (kw : BitVec 32) : List (BitVec 32) :=
  match v with
  | [a, b, c, d, e, f, g, h] =>
    let t1 := h + ((e.rotateRight 6) ^^^ (e.rotateRight 11) ^^^ (e.rotateRight 25)) + ((e &&& f) ^^^ (~~~e &&& g)) + kw
    let t2 := ((a.rotateRight 2) ^^^ (a.rotateRight 13) ^^^ (a.rotateRight 22)) + ((a &&& b) ^^^ (a &&& c) ^^^ (b &&& c))
    [t1 + t2, a, b, c, d + t1, e, f, g]
  | x => x

/-- The hash state after one block of 64 bytes. -/
def shaSBlock (h : List (BitVec 32)) (block : List Byte) : List (BitVec 32) :=
  let ws := (List.range 16).map (fun i => BitVec.ofNat 32 (beVal (bytesAt block (4 * i) 4)))
  let ws := (shaSExpand 48 ws.reverse).reverse
  let v := (ws.zip shaSK).foldl (fun (v : List (BitVec 32)) (p : BitVec 32 × BitVec 32) => shaSRound v (p.1 + p.2)) h
  (h.zip v).map (fun p => p.1 + p.2)

/-- The hash state after `n` blocks. -/
def shaSBlocks : Nat → List (BitVec 32) → List Byte → List (BitVec 32)
  | 0, h, _ => h
  | n + 1, h, l => shaSBlocks n (shaSBlock h (l.take 64)) (l.drop 64)

/-- A message padded to whole blocks: a one bit, zeros, and the length in bits. -/
def shaSPad (l : List Byte) : List Byte :=
  l ++ 0x80#8 :: (List.replicate ((128 - 8 - 1 - l.length % 64) % 64) 0 ++ beBytes 8 (8 * l.length))

/-- The hash of a byte string, as the list of final words. -/
def shaSWords (h0 : List (BitVec 32)) (l : List Byte) : List (BitVec 32) :=
  let p := shaSPad l
  shaSBlocks (p.length / 64) h0 p

/-- Message schedule: 80 words, newest first, from the block's 16. -/
def shaLExpand : Nat → List (BitVec 64) → List (BitVec 64)
  | 0, ws => ws
  | n + 1, ws =>
    let a := ws.getD 14 0
    let b := ws.getD 1 0
    let g0 := (a.rotateRight 1) ^^^ (a.rotateRight 8) ^^^ (a >>> 7)
    let g1 := (b.rotateRight 19) ^^^ (b.rotateRight 61) ^^^ (b >>> 6)
    shaLExpand n ((g1 + ws.getD 6 0 + g0 + ws.getD 15 0) :: ws)

/-- One round on the eight working variables. -/
def shaLRound (v : List (BitVec 64)) (kw : BitVec 64) : List (BitVec 64) :=
  match v with
  | [a, b, c, d, e, f, g, h] =>
    let t1 := h + ((e.rotateRight 14) ^^^ (e.rotateRight 18) ^^^ (e.rotateRight 41)) + ((e &&& f) ^^^ (~~~e &&& g)) + kw
    let t2 := ((a.rotateRight 28) ^^^ (a.rotateRight 34) ^^^ (a.rotateRight 39)) + ((a &&& b) ^^^ (a &&& c) ^^^ (b &&& c))
    [t1 + t2, a, b, c, d + t1, e, f, g]
  | x => x

/-- The hash state after one block of 128 bytes. -/
def shaLBlock (h : List (BitVec 64)) (block : List Byte) : List (BitVec 64) :=
  let ws := (List.range 16).map (fun i => BitVec.ofNat 64 (beVal (bytesAt block (8 * i) 8)))
  let ws := (shaLExpand 64 ws.reverse).reverse
  let v := (ws.zip shaLK).foldl (fun (v : List (BitVec 64)) (p : BitVec 64 × BitVec 64) => shaLRound v (p.1 + p.2)) h
  (h.zip v).map (fun p => p.1 + p.2)

/-- The hash state after `n` blocks. -/
def shaLBlocks : Nat → List (BitVec 64) → List Byte → List (BitVec 64)
  | 0, h, _ => h
  | n + 1, h, l => shaLBlocks n (shaLBlock h (l.take 128)) (l.drop 128)

/-- A message padded to whole blocks: a one bit, zeros, and the length in bits. -/
def shaLPad (l : List Byte) : List Byte :=
  l ++ 0x80#8 :: (List.replicate ((256 - 16 - 1 - l.length % 128) % 128) 0 ++ beBytes 16 (8 * l.length))

/-- The hash of a byte string, as the list of final words. -/
def shaLWords (h0 : List (BitVec 64)) (l : List Byte) : List (BitVec 64) :=
  let p := shaLPad l
  shaLBlocks (p.length / 128) h0 p

/-- SHA-256 as a 256-bit number whose most significant byte is the digest's first. -/
def sha256 (l : List Byte) : BitVec 256 :=
  BitVec.ofNat 256 ((shaSWords sha256H l).foldl (fun (a : Nat) (w : BitVec 32) => a * 2 ^ 32 + w.toNat) 0)

/-- SHA-384 as a 384-bit number whose most significant byte is the digest's first. -/
def sha384 (l : List Byte) : BitVec 384 :=
  BitVec.ofNat 384 (((shaLWords sha384H l).take 6).foldl (fun (a : Nat) (w : BitVec 64) => a * 2 ^ 64 + w.toNat) 0)

/-- A digest's bytes in the byte order of FIPS 180-4. -/
def digestBytes {w : Nat} (d : BitVec w) : List Byte := beBytes (w / 8) d.toNat

end Sys2Proof.Machine
end

