-- ==== Sys2Proof/Machine/Ident.lean ====
section
/-!
DEFINITION. Identity: measurement, enrolment, certificates, signed configuration and attestation
(spec/19_identity_protection.md, R395 to R404). What a signature or a certificate verifies to is an operand of the commands.
-/

namespace Sys2Proof.Machine

/-- Records of the IDN page (R410). -/
def rkIdFailed : RecKind := rk 0x13 0x0001 4 .always
def rkCfgApplied : RecKind := rk 0x13 0x0002 1 .always
def rkIdRefused : RecKind := rk 0x13 0x0003 2 .always
def rkHandshake : RecKind := rk 0x13 0x0004 2 .bySeverity
def rkEnrolled : RecKind := rk 0x13 0x0005 3 .always

/-! ### Measurement (R403) -/

/-- M of a measurement register. -/
def Identity.m (i : Identity) (n : Nat) : BitVec 384 := smGet i.meas n 0

/-- Extend a measurement register with bytes. -/
def Blk.extend (u : Blk) (n : Nat) (d : List Byte) : Blk :=
  { u with idn := { u.idn with meas := smSet u.idn.meas n (sha384 (digestBytes (u.idn.m n) ++ d)) 0 } }

/-- The bytes that a row of registers holds. -/
def Blk.regBytes (u : Blk) (k words : Nat) : List Byte := (List.range words).flatMap (fun i => leBytes 4 (u.rn (k + 4 * i)))

/-- MEASUREMENT_EXTEND: a write of `IDN.EXTIDX` extends M(4 + value) with EXTBUF; a value of 0 extends nothing. -/
def Blk.extIdx (u : Blk) (w : W32) : Blk :=
  let v := fld w 0 2
  if v = 0 then u else u.extend (4 + v) (u.regBytes R.IDN_EXTBUF 12)

/-- What a cold or warm reset measures (R403): every register starts from zero; M0 takes the design digest and `PGVER`, M1 the trust
anchor. -/
def Blk.measureReset (u : Blk) : Blk :=
  let u := { u with idn := { u.idn with meas := [] } }
  let u := u.extend 0 (digestBytes (Config.designDigest (match u.build with | .leaf => false | .tray => true)) ++
    leBytes 4 u.pgver.toNat)
  u.extend 1 (digestBytes u.idn.taHash)

/-! ### Configuration (R400 to R402) -/

/-- A refused blob or chain and its detail (R401, R410). -/
def Blk.idRefuse (u : Blk) (item detail : Nat) : Blk :=
  (u.cause 0x13 0 1).report rkIdRefused .dflt (pay [fd 0x24 1 item, fd 0x25 1 detail])

/-- A configuration copy takes effect: every entry together (R402). -/
def Blk.takeCfg (u : Blk) (c : CfgCopy) : Blk :=
  let i := u.idn
  let i := { i with cfgSeq := c.cseq, digest := c.digest, policy := c.policy.getD 0, role := c.role.getD 0, slots := c.slots,
                    mismatch := false }
  ({ u with idn := i }).extend 2 (digestBytes c.digest)

/-- The copy that a reset applies: the valid one with the greater cseq (R402). -/
def Identity.newest (i : Identity) : Option (Bool × CfgCopy) :=
  match i.copyA, i.copyB with
  | none, none => none
  | some a, none => some (false, a)
  | none, some b => some (true, b)
  | some a, some b => if b.cseq.toNat < a.cseq.toNat then some (false, a) else some (true, b)

/-- After a cold or warm reset the newest copy is applied, unless its root differs from the present anchor (R402). -/
def Blk.cfgReset (u : Blk) : Blk :=
  let i := u.idn
  let i := { i with cfgSeq := 0, digest := 0, policy := 0, role := 0, slots := [], mismatch := false, pending := [] }
  let u := { u with idn := i }
  match i.newest with
  | none => u
  | some c =>
    if i.anchor && decide (c.2.root = i.taHash) then
      let u := u.takeCfg c.2
      { u with idn := { u.idn with inCopyB := c.1 } }
    else ({ u with idn := { u.idn with mismatch := true } }).cause 0x13 0 3

/-- One entry of a blob (R400). -/
def cfgEntryOk (e : List Byte) : Bool :=
  let item := numAt e 0 1
  let z := fun (off n : Nat) => (bytesAt e off n).all (fun b => b = 0)
  if item = 1 then z 1 3 && z 8 120 && decide (numAt e 4 4 < 4)
  else if item = 2 then z 1 3 && z 8 120 && decide (1 ≤ numAt e 4 4) && decide (numAt e 4 4 ≤ 3)
  else if item = 3 then decide (numAt e 1 1 < 8) && z 3 5 && decide (numAt e 0x18 1 = 4) && z 0x79 7
  else false

/-- The key slots that a blob's entries fill; slot 0 has every role (R399). -/
def cfgSlots (es : List (List Byte)) : SMap KeySlot :=
  es.foldl (fun (m : SMap KeySlot) e =>
    if numAt e 0 1 = 3 then
      let s := numAt e 1 1
      smPut m s ⟨bv (beVal (bytesAt e 8 16)), bv (beVal (bytesAt e 0x18 97)), bv (if s = 0 then 7 else numAt e 2 1 % 8)⟩
    else m) []

/-- The last value that the entries of an item give. -/
def cfgItem (es : List (List Byte)) (item : Nat) : Option Nat :=
  (es.filter (fun e => numAt e 0 1 = item)).getLast?.map (fun e => numAt e 4 4)

/-- The hash of a key slot's public key, compared with `ta_hash` (R398, R401). -/
def KeySlot.hash (k : KeySlot) : BitVec 384 := sha384 (digestBytes k.key)

/-- What checking a blob's signature gives: the operator slots in force whose key verifies it, and whether the key that hashes to
`ta_hash` does. -/
structure SigVerdict where
  slots : Byte
  root : Bool
deriving DecidableEq, Repr

/-- A slot in force with a role verifies (R399, R401). -/
def Identity.slotVerifies (i : Identity) (v : SigVerdict) (role : Nat) : Bool :=
  (List.range 8).any (fun s => bit v.slots s && (match smGet? i.slots s with | some k => bit k.roles role | none => false))

/-- The identifier that a blob's scope names: the leaf number, or `PAN.NODE`. -/
def Blk.nodeId (u : Blk) : W32 :=
  match u.build with
  | .leaf => u.reg R.SMP_LEAFNO
  | .tray => u.reg R.PAN_NODE

/-- Why a blob is refused, if it is (R401); `some 0` stands for one that equals the applied blob and has no effect. -/
def Blk.cfgCheck (u : Blk) (blob : List Byte) (v : SigVerdict) : Option Nat :=
  let n := numAt blob 0x0C 4
  let es := (List.range n).map (fun i => bytesAt blob (64 + 128 * i) 128)
  let body := blob.take (64 + 128 * n)
  let fmt := decide (numAt blob 0 4 = 0x55544346) && decide (1 ≤ n) && decide (n ≤ 16) && decide (blob.length = 192 + 128 * n) &&
    (bytesAt blob 0x18 36).all (fun b => b = 0) &&
    decide (numAt blob 0x3C 4 = (crc32c (overlay body 0x3C [0, 0, 0, 0])).toNat) && es.all cfgEntryOk
  let target := decide (numAt blob 4 2 = 0x0203) && Nat.testBit (numAt blob 6 1) (match u.build with | .leaf => 0 | .tray => 1) &&
    (decide (numAt blob 7 1 = 0) || (decide (numAt blob 7 1 = 1) && decide (numAt blob 8 4 = u.nodeId.toNat)))
  let slots := cfgSlots es
  let i := u.idn
  let cseq := numAt blob 0x10 8
  let rootOk := i.anchor && (match smGet? slots 0 with | some k => decide (k.hash = i.taHash) | none => true)
  let sigOk := if slots ≠ i.slots then v.root else i.slotVerifies v 0
  if !fmt then some 1
  else if !target then some 7
  else if i.cfgSeq.toNat = cseq && i.digest = sha384 blob then some 0
  else if cseq ≤ i.cfgSeq.toNat then some 2
  else if !rootOk then some 4
  else if !sigOk then some 3
  else none

/-- The copy that an accepted blob becomes. -/
def Blk.cfgOf (u : Blk) (blob : List Byte) : CfgCopy :=
  let es := (List.range (numAt blob 0x0C 4)).map (fun i => bytesAt blob (64 + 128 * i) 128)
  { cseq := bv (numAt blob 0x10 8), digest := sha384 blob, policy := (cfgItem es 1).map (fun x => bv x), role := cfgItem es 2,
    slots := cfgSlots es, root := u.idn.taHash }

/-- The flash write of an accepted blob ends (R402): the valid mark is programmed and every entry applies, or the blob is refused. -/
def Blk.cfgWritten (u : Blk) (c : CfgCopy) (flashOk : Bool) : Blk :=
  let u := { u with idn := { u.idn with busy := false } }
  if !flashOk then u.idRefuse 0 5
  else
    let toB := !u.idn.inCopyB && u.idn.newest.isSome
    let i := u.idn
    let i := if toB then { i with copyB := some c, inCopyB := true } else { i with copyA := some c, inCopyB := false }
    let u := (({ u with idn := i }).takeCfg c).bumpSeq 0x13 0
    u.report rkCfgApplied .dflt (pay [fd 0x24 8 c.cseq.toNat, fd 0x2C 1 toB.toNat])

/-- Flash work of the identity is held: during a supply warning, and while the unit is parked or is to be (R370, R377). -/
def Blk.flashWaits (u : Blk) : Bool := u.pw.warning.isSome || u.pw.parked || u.pw.parkPend

/-- Identity work waits for its flash write. -/
def Blk.idnHold (u : Blk) (w : IdnWork) (busy : Bool) : Blk :=
  { u with idn := { u.idn with busy := busy, pending := u.idn.pending ++ [w] } }

/-- CONFIGURATION_APPLY: the blob at `CFGADDR` is checked, written to the other copy and applied, or refused (R401, R402). During a
supply warning the flash write is held (R370). `flashOk`: the flash write succeeds. -/
def Blk.cfgApply (u : Blk) (blob : List Byte) (v : SigVerdict) (flashOk : Bool) : Blk :=
  if u.idn.busy then u.idRefuse 0 6
  else
    match u.cfgCheck blob v with
    | some 0 => u
    | some d => u.idRefuse 0 d
    | none => if u.flashWaits then u.idnHold (.config (u.cfgOf blob)) true else u.cfgWritten (u.cfgOf blob) flashOk

/-! ### The device key, enrolment and certificates (R395 to R397) -/

/-- The PUF step ends (R395, R396): the device key is regenerated and checked. `crcOk`: the helper data's CRC matches; `flashOk`: the
flash device is usable (R431). The PUF-derived secrets are held from then on where the helper data could be used. The first such step after a cold reset
seeds the backoff generator (R367). -/
def Blk.pufStep (u : Blk) (flashOk crcOk : Bool) : Blk :=
  let i := u.idn
  let cause : Option Nat :=
    match i.helper with
    | none => some 0
    | some h => if !flashOk then some 0 else if !crcOk then some 1 else if h ≠ sha384 (digestBytes i.devPub) then some 2 else none
  let derived := cause.all (fun c => c = 2)
  let seed := i.pufSeed.getD (Config.pufSeed (decide (u.build = .tray)) u.fresh)
  let u := { u.freshen with idn := { i with flashBad := !flashOk, valid := cause.isNone, secrets := derived, pufSeed := some seed }, pw := { u.pw with pufDone := true } }
  match cause with
  | none => u
  | some c => (u.cause 0x13 0 0).report rkIdFailed .dflt (pay [fd 0x24 1 c])

/-- The PUF is measured afresh, which makes a new device key, and new helper data is written (R396). -/
def Blk.enrollWrite (u : Blk) : Blk :=
  let key := Config.deviceKey u.fresh
  let h := sha384 (digestBytes key)
  let u := { u.freshen with idn := { u.idn with devPub := key, helper := some h, valid := true, secrets := true, chain := [] } }
  u.report rkEnrolled .dflt (pay [fd 0x24 16 (leVal ((digestBytes h).take 16))])

/-- A checked chain's flash write ends. -/
def Blk.chainWritten (u : Blk) (chain : List Byte) (flashOk : Bool) : Blk :=
  let u := { u with idn := { u.idn with busy := false } }
  if flashOk then { u with idn := { u.idn with chain := chain } } else u.idRefuse 1 5

/-- INSTALL_CERTS: the chain at `CFGADDR` goes to flash when it is the device key's and every certificate meets the subset of R399,
which `ok` tells; else it is refused with a detail: 1 format, 3 signature. -/
def Blk.installCerts (u : Blk) (chain : List Byte) (verdict : Nat) (flashOk : Bool) : Blk :=
  if u.idn.busy then u.idRefuse 1 6
  else if verdict ≠ 0 then u.idRefuse 1 verdict
  else if u.flashWaits then u.idnHold (.chain chain) true
  else u.chainWritten chain flashOk

/-! ### Attestation (R404) -/

/-- An attestation report for a requester's nonce. -/
def Blk.attestation (u : Blk) (nonce : List Byte) : List Byte :=
  let letter := match u.build with | .leaf => 0x4C | .tray => 0x54
  layout 64 [fd 0 1 1, fd 1 1 letter, fd 2 1 (u.rb R.BLK_DBG 0).toNat, fd 4 4 u.nodeId.toNat, fd 8 8 u.idn.cfgSeq.toNat,
    fd 0x10 8 u.clk.ns.toNat, fd 0x18 4 u.his.pcyc.toNat] ++
  (List.range 8).flatMap (fun n => digestBytes (u.idn.m n)) ++ bytesAt nonce 0 32 ++
  (List.range 96).map (fun i => Config.signatureByte u.fresh i)

/-- The address of `IDN.RPTADDR`, and of `IDN.CFGADDR`. -/
def Blk.rptAddr (u : Blk) : Nat := u.rn64 R.IDN_RPTADDR_L R.IDN_RPTADDR_H
def Blk.cfgAddr (u : Blk) : Nat := u.rn64 R.IDN_CFGADDR_L R.IDN_CFGADDR_H
def Blk.cfgLen (u : Blk) : Nat := u.rf R.IDN_CFGLEN 0 17

/-- Parts of a certificate chain, at most 8,000 bytes each (R405). -/
def chainParts : Nat → List Byte → List (List Byte)
  | 0, _ => []
  | n + 1, l => if l.isEmpty then [] else l.take 8000 :: chainParts n (l.drop 8000)

/-- ATTESTATION_REQUEST: the child answers its parent's request with a report and its certificate chain (R404, R405). -/
def Blk.attestAnswer (u : Blk) (nonce : List Byte) : Blk :=
  let r := u.attestation nonce
  let u := (u.sendUp 8 (leBytes 4 4 ++ r)).freshen
  (chainParts 3 u.idn.chain).foldl (fun (v : Blk) p => v.sendUp 8 (leBytes 4 5 ++ p)) u

end Sys2Proof.Machine
end

