-- ==== Sys2Proof/Machine/Admit.lean ====
section
/-!
DEFINITION. A child's admission by its parent: hellos, backoff, accepts, refusals and keepalives
(spec/17_power_reset_hotplug.md, R366 to R368 and R376; spec/19_identity_protection.md, R405 to R407).
-/

namespace Sys2Proof.Machine

/-- The epoch that follows one: after 255 comes 1 (R409). -/
def nextEpoch (e : Byte) : Byte := if e = 255 then 1 else e + 1

/-- A hello or accept body after code and length (R405): sub, flags, role, epoch, node, and the tail the spec leaves to the keys. -/
def Blk.helloRest (u : Blk) (sub : Nat) (epoch : Byte) : List Byte :=
  let flags := (match u.build with | .leaf => 0 | .tray => 2) + (u.rb R.BLK_DBG 0).toNat
  layout 12 [fd 0 1 sub, fd 1 1 flags, fd 2 1 u.idn.role, fd 3 1 epoch.toNat, fd 4 4 u.nodeId.toNat] ++ Config.helloTail u.fresh

/-- W_k of R367. -/
def backoffW (k : Nat) : Nat := min (32 * 2 ^ (k - 1)) 256

/-- A hello goes to the parent, and the wait of the next retry is drawn (R367, R407): a handshake in progress is replaced. -/
def Blk.sendHello (u : Blk) : Blk :=
  let l := u.link u.parentLink
  let e := nextEpoch l.epoch
  let k := u.pw.tries + 1
  let wait := 1 + Config.backoffDraw (u.idn.pufSeed.getD 0) u.fresh % backoffW k
  let u := (u.modLink u.parentLink (fun l => { l with handshake := some e })).sendUp 8 (u.helloRest 0 e)
  { u.freshen with pw := { u.pw with helloSent := true, waiting := true, tries := k, waitMs := wait, waitAt := u.clk.ival } }

/-- The first hello is due (R365, R368, R396): the link is enabled, the PUF step has ended with a valid identity, and a T build has
reached stage B. -/
def Blk.helloDue (u : Blk) : Bool :=
  !u.pw.helloSent && u.pw.pufDone && u.idn.valid && !u.pw.stuck &&
  (match u.build with
   | .leaf => u.rb R.LNK_CTL 31
   | .tray => u.pw.stage = .b || u.pw.stage = .c)

/-- Send the first hello where it is due. -/
def Blk.helloCheck (u : Blk) : Blk := if u.helloDue then u.sendHello else u

/-- ENROLL: accepted only while `valid` is 0 (R396). A valid identity lets the first hello go (R368). -/
def Blk.enroll (u : Blk) : Blk :=
  if u.idn.valid || u.idn.pending.contains .enroll then u
  else if u.flashWaits then u.idnHold .enroll u.idn.busy
  else u.enrollWrite.helloCheck

/-- The identity's flash work goes on once neither a supply warning nor a park holds it (R370, R377, R402); whether a held write succeeds is a
free value. -/
def Blk.idnResume (u : Blk) : Blk :=
  if u.flashWaits then u
  else
    u.idn.pending.foldl (fun (v : Blk) w =>
      let ok := Config.heldFlashOk v.fresh
      match w with
      | .config c => v.freshen.cfgWritten c ok
      | .chain l => v.freshen.chainWritten l ok
      | .enroll => v.enrollWrite.helloCheck) { u with idn := { u.idn with pending := [] } }

/-- The parent of a node changes: keys, admission and the handshake start over with it (R346, R380, R381). -/
def Blk.parentMoved (u : Blk) : Blk :=
  let u := u.modLink u.parentLink (fun l => { l with epoch := 0, oldEpoch := none, admitted := false, handshake := none, boot := 0 })
  let u := { u with pw := { u.pw with admitted := false, tries := 0 } }
  if u.pw.helloSent then u.sendHello else u.helloCheck

/-- A write of `LNK.CTL`; LINK_ENABLE is the one that sets en (R368). A write that changes alt changes the parent (R346). -/
def Blk.lnkCtl (u : Blk) (w : W32) : Blk :=
  let m : W32 := match u.build with | .leaf => 0xE0000000#32 | .tray => 0x60000000#32
  let v := u.setReg R.LNK_CTL (w &&& m)
  if v.rb R.LNK_CTL 30 = u.rb R.LNK_CTL 30 then v.helloCheck else (v.bumpSeq 0x10 0).parentMoved

/-- HELLO_RETRY: the backoff wait ends, and another hello goes out (R367). -/
def Blk.helloRetry (u : Blk) : Blk :=
  if u.pw.waiting && u.idn.valid then (u.toIv (u.pw.waitAt + msIv u.pw.waitMs)).sendHello else u

/-- HELLO_REFUSE: the attempt ends with a refusal, and the wait for the next one begins (R366, R367). -/
def Blk.helloRefused (u : Blk) : Blk :=
  if u.pw.waiting then { u with pw := { u.pw with waitAt := u.clk.ival } } else u

/-- A failed handshake (R406, R410). -/
def Blk.handshakeFailed (u : Blk) (peer : W32) (detail : Nat) : Blk :=
  ((u.bump R.IDN_HSFAIL).cause 0x13 0 2).report rkHandshake .dflt (pay [fd 0x24 4 peer.toNat, fd 0x28 1 detail])

/-- The keys of a new epoch become current on a link (R407, R409). -/
def Link.newEpoch (l : Link) (e : Byte) : Link :=
  { l with epoch := e, oldEpoch := if l.epoch = 0 then none else some l.epoch, txCtr := 0, rxCtr0 := l.rxCtr, rxCtr := 0,
           handshake := none, admitted := true }

/-- ACCEPT: the child verifies the accept (`detail` 0: it verifies; else the detail of R406, of which 3 refuses only under policy bit 0) and takes the
new keys; admission ends the backoff, and keepalives count from now (R367, R376). -/
def Blk.accept (u : Blk) (epoch : Byte) (peer : W32) (detail : Nat) : Blk :=
  if (u.link u.parentLink).handshake ≠ some epoch then u
  else if detail ≠ 0 && !(detail = 3 && !bit u.idn.policy 0) then u.handshakeFailed peer detail
  else
    let u := if detail = 3 then { u with idn := { u.idn with unverified := true } } else u
    let u := u.modLink u.parentLink (fun l => { l.newEpoch epoch with keepAt := u.clk.ival, node := peer })
    { u with pw := { u.pw with admitted := true, waiting := false, tries := 0 } }

/-- KEEPALIVE: `KEEP` microseconds have passed since the last control message of an admitted link (R376). While the link is down it waits behind the
restarted message (R166). -/
def Blk.keepalive (u : Blk) (link : Nat) : Blk :=
  if (u.link link).admitted then
    (u.toIv ((u.link link).keepAt + usIv (max 1 (u.rf R.LNK_KEEP 0 16)))).sendCtl link 8 (leBytes 1 6)
  else u

end Sys2Proof.Machine
end

