-- ==== Sys2Proof/Machine/Pages.lean ====
section
/-!
DEFINITION. The page header, error reporting, debug mode and injection (spec/21_register_pages.md, R441 to R446;
spec/18_errors_injection.md, R383, R385, R389 to R392).
-/

namespace Sys2Proof.Machine

/-- "debug mode changed", "corrected errors high" (R394). -/
def rkDebugMode : RecKind := rk 0x15 0x0006 2 .always
def rkCorrectedHigh : RecKind := rk 0x15 0x0004 2 .bySeverity

/-- The key of a header register of copy `n` of page `p`. -/
abbrev headKey (p n off : Nat) : Nat := inst (p * 0x1000 + off) n

/-! ### The error interrupt (R383) -/

/-- The level of the leaf's `err_irq`. -/
def Blk.errLevel (u : Blk) : Bool := u.rb R.ERR_CTL 31 && u.anyUnmasked

/-- The error interrupt follows a change of causes, masks or `ERR.CTL.ie`: the leaf's output takes its new level, and the T build
sends its message for a rise. -/
def Blk.errFollow (u old : Blk) : Blk :=
  if u.errLevel = old.errLevel then u
  else
    match u.build with
    | .leaf => u.emit (.pin .errIrq 0 u.errLevel.toNat)
    | .tray => if u.errLevel then u.errInterrupt else u

/-- A write of `ERR.CTL`; ERROR_INTERRUPT_ENABLE is the one that sets ie. -/
def Blk.errCtl (u : Blk) (w : W32) : Blk :=
  let m : W32 := match u.build with | .leaf => 0x80000000#32 | .tray => 0x8000003F#32
  (u.setReg R.ERR_CTL (w &&& m)).errFollow u

/-- The read of `ERR.FIRST` clears it (R394). -/
def Blk.errFirst (u : Blk) : Blk := u.setN R.ERR_FIRST 0

/-- `ERR.SUM[k]` (R383): bit p for page 32k + p. -/
def Blk.errSum (u : Blk) (k : Nat) : W32 :=
  BitVec.ofNat 32 ((u.regs.filter (fun e => e.1 % 0x1000 == 0x14 && decide (u.unmaskedAt e.1 ≠ 0))).foldl (fun (a : Nat) e =>
    let n := pageNo u.build (e.1 % 0x100000 / 0x1000) (e.1 / 0x100000)
    if n / 32 = k then a ||| 2 ^ (n % 32) else a) 0)

/-! ### Debug mode (R389) -/

/-- Every armed injection of the unit is disarmed (R392). -/
def Blk.disarmAll (u : Blk) : Blk :=
  let u := { u with er := { u.er with armStage := [] } }
  (u.regs.filter (fun e => e.1 % 0x1000 == 0x1C)).foldl (fun (v : Blk) e => v.setReg e.1 0) u

/-- The debug state changes (R389, R403): the record, M3, and a leaf that is admitted sends a new hello (R406). -/
def Blk.debugSet (u : Blk) (b : Bool) : Blk :=
  if u.rb R.BLK_DBG 0 = b then u
  else
    let u := u.setN R.BLK_DBG b.toNat
    let u := u.report rkDebugMode .dflt (pay [fd 0x24 1 b.toNat])
    let u := u.extend 3 (leBytes 1 b.toNat)
    let u := if b then u else u.disarmAll
    match u.build with
    | .leaf => if u.pw.admitted then u.sendHello else u
    | .tray => u

/-- DEBUG_MODE_WRITE: `BLK.DBG` acts only with its key (R389). -/
def Blk.debugWrite (u : Blk) (w : W32) : Blk := if fld w 16 16 = 0xDB60 then u.debugSet (bit w 0) else u

/-! ### Arming (R390) -/

/-- The arming stage of a page: 0 nothing, 1 after the first key, 2 after the second. -/
def Blk.stage (u : Blk) (p n : Nat) : Nat := smGet u.er.armStage (n * 64 + p) 0
def Blk.setStage (u : Blk) (p n v : Nat) : Blk := { u with er := { u.er with armStage := smSet u.er.armStage (n * 64 + p) v 0 } }

/-- A register of copy `n` of page `p` beyond those of the arming sequence is written: the sequence starts over (R390). -/
def Blk.pageWritten (u : Blk) (p n : Nat) : Blk := u.setStage p n 0

/-- INJECTION_KEY: a write of `PGINJSEL`. The parameter and the repeat bit take every write (R13, RW); the keys move the arming
sequence (R390). -/
def Blk.injKey (u : Blk) (p n : Nat) (w : W32) : Blk :=
  let key := fld w 16 16
  let u := u.setReg (headKey p n H.PGINJSEL) (w &&& 0x8FFF#32)
  if key = 0x1A7E then u.setStage p n 1
  else if key = 0x5EED && u.stage p n = 1 then u.setStage p n 2
  else u.setStage p n 0

/-- Injections that fire in the cycle of arming: counter-store parity in the leaf, memory errors in the T build (R388, R391). -/
def firesAtOnce (b : Build) (p i : Nat) : Bool :=
  match b with
  | .leaf => p = 0x15 && i = 3
  | .tray => (p = 0x15 && i = 0) || (p = 0x28 && i = 0)

/-- INJECTION_ARM: a write of `PGINJ` (R390): a 0 disarms, a 1 arms where the sequence is complete, the bit has an injection point
and R389 is met, and is refused otherwise; a bit outside `PGCAP.causes` ignores the write (R442). Answers the bits that fire at once. -/
def Blk.injArm (u : Blk) (p n : Nat) (w : W32) : Blk × List Nat :=
  let ok := u.stage p n = 2 && u.rb R.BLK_DBG 0 && u.rb (headKey p n H.PGCTL) 0
  let one := fun (a : Blk × List Nat) (i : Nat) =>
    if !Nat.testBit (pgCauses u.build p) i then a
    else if !bit w i then (a.1.setRb (headKey p n H.PGINJ) i false, a.2)
    else if ok && Nat.testBit (pgInj u.build p) i then
      let v := a.1.setRb (headKey p n H.PGINJ) i true
      if firesAtOnce u.build p i then (v.fire p n i true, a.2 ++ [i]) else (v, a.2)
    else (a.1.bump R.ERR_INJREF, a.2)
  let r := (List.range 8).foldl one (u, [])
  (r.1.setStage p n 0, r.2)

/-! ### The page header (R441 to R446) -/

/-- The page type byte of a page. -/
def pgType (p : Nat) : Nat := p

/-- A read of a header register. -/
def Blk.headRead (u : Blk) (p n off : Nat) : W32 :=
  let cause := u.reg (headKey p n H.PGCAUSE)
  if off = H.PGID then BitVec.ofNat 32 (pageNo u.build p n * 2 ^ 16 + pgType p * 256 + (if p = 0x2C || p = 0x2D then n else 0))
  else if off = H.PGVER then u.pgver
  else if off = H.PGCAP then pgCap u.build p
  else if off = H.PGSTS then
    let armed := decide (u.reg (headKey p n H.PGINJ) ≠ 0)
    BitVec.ofNat 32 (armed.toNat * 4 + (decide (cause &&& ~~~(u.reg (headKey p n H.PGMASK)) ≠ 0)).toNat * 2 + (decide (cause ≠ 0)).toNat)
  else if off = H.PGCTL || off = H.PGCAUSE || off = H.PGMASK || off = H.PGINJ || off = H.PGINJSEL || off = H.PGSEQ then
    u.reg (headKey p n off)
  else 0

/-- A write of a header register; answers the injections that fire at once. A clearing of `inj_en` disarms the page's bits (R392). -/
def Blk.headWrite (u : Blk) (p n off : Nat) (w : W32) : Blk × List Nat :=
  if off = H.PGINJSEL then (u.injKey p n w, [])
  else if off = H.PGINJ then u.injArm p n w
  else
    let v := u.pageWritten p n
    if off = H.PGCTL then
      let v := v.setReg (headKey p n off) (w &&& 1)
      (if bit w 0 then v else v.setReg (headKey p n H.PGINJ) 0, [])
    else if off = H.PGCAUSE then ((v.modReg (headKey p n off) (fun c => c &&& ~~~w)).errFollow v, [])
    else if off = H.PGMASK then ((v.setReg (headKey p n off) (w &&& BitVec.ofNat 32 (pgCauses u.build p))).errFollow v, [])
    else (v, [])

/-! ### Corrected errors (R385) -/

/-- CORRECTED_ERROR_SECOND: a second of TB1 ends at the cycle that starts the next whole second since the last one; each space whose
corrected errors reached `CELIM` reports it. `perSec` is the cycles of a second. -/
def Blk.correctedSecond (u : Blk) (perSec : Nat) : Blk :=
  let u := u.toTb1 (u.er.secondAt + BitVec.ofNat 64 perSec)
  let lim := u.rf R.ERR_CELIM 0 16
  let high := u.er.corrected.filter (fun e => decide (lim ≠ 0) && decide (lim ≤ e.2))
  let u := high.foldl (fun (v : Blk) e =>
    (v.cause 0x15 0 0).report rkCorrectedHigh .dflt (pay [fd 0x24 1 e.1, fd 0x28 4 e.2])) u
  { u with er := { u.er with corrected := [], secondAt := u.clk.tb1 } }

end Sys2Proof.Machine
end

