-- ==== Sys2Proof/Machine/Links.lean ====
section
/-!
DEFINITION. What both builds do with a received frame's envelope and time messages, and the timers of the control link
(spec/08_frames_links_scheduling.md, R160, R166; spec/19_identity_protection.md, R408, R409; spec/02_time_step_angle.md, R53, R54).
-/

namespace Sys2Proof.Machine

/-- Records of LNK and ERR that receiving writes (R183, R394). -/
def rkReceiveDiscard : RecKind := rk 0x10 0x0004 2 .bySeverity
def rkUnknownControl : RecKind := rk 0x10 0x0005 2 .bySeverity
def rkAuthFailed : RecKind := rk 0x15 0x0001 3 .always
def rkReplay : RecKind := rk 0x15 0x0002 2 .bySeverity

/-- A received packet is discarded with a cause (R160). -/
def Blk.rxDiscard (u : Blk) (why : Nat) : Blk :=
  ((u.bump R.LNK_RXBAD).cause 0x10 0 1).report rkReceiveDiscard .dflt (pay [fd 0x24 1 why])

/-- A control message the node does not act on (R165). -/
def Blk.unknownControl (u : Blk) (code : Nat) : Blk :=
  (u.cause 0x10 0 3).report rkUnknownControl .dflt (pay [fd 0x24 2 code])

/-- A frame's tag does not verify (R387). -/
def Blk.authFailed (u : Blk) (port ctr : Nat) : Blk :=
  ((u.bump R.ERR_AUTHFAIL).cause 0x15 0 1).report rkAuthFailed .dflt (pay [fd 0x24 1 port, fd 0x28 4 ctr])

/-- A frame's counter is not above the last accepted one (R387, R409). -/
def Blk.replayed (u : Blk) (port ctr last : Nat) : Blk :=
  ((u.bump R.ERR_REPLAY).cause 0x15 0 2).report rkReplay .dflt (pay [fd 0x24 1 port, fd 0x28 4 ctr, fd 0x2C 4 last])

/-- A message that may travel in the bootstrap epoch: subs 0 to 2 of code 0x0008, and a link acknowledgement. -/
def Packet.bootOk (p : Packet) : Bool :=
  p.kind = 4 && ((decide (ctlCode p.body = 8) && decide (ctlSub p.body ≤ 2)) || decide (ctlCode p.body = 1))

/-- The envelope of a frame on a link is checked: its tag, then its counter (R387, R408, R409). The counter of the
bootstrap epoch, which a child starts afresh at its cold reset, is not judged. Answers whether the frame passes. -/
def Blk.rxEnvelope (u : Blk) (link port : Nat) (p : Packet) : Blk × Bool :=
  let l := u.link link
  let ctr := p.ctr.toNat
  if !p.tagOk then (u.authFailed port ctr, false)
  else if p.epoch = 0 then
    if p.bootOk then (u, true) else (u.authFailed port ctr, false)
  else if p.epoch = l.epoch then
    if ctr ≤ l.rxCtr then (u.replayed port ctr l.rxCtr, false)
    else (u.modLink link (fun l => { l with rxCtr := ctr, oldEpoch := none }), true)
  else if l.oldEpoch = some p.epoch then
    if ctr ≤ l.rxCtr0 then (u.replayed port ctr l.rxCtr0, false)
    else (u.modLink link (fun l => { l with rxCtr0 := ctr }), true)
  else (u.replayed port ctr l.rxCtr, false)

/-- A received IEEE 1588 message goes to the host as carried records with its receive timestamp (R53, R54, R313): event messages,
messageType 0 to 3, carry it, general ones do not. -/
def Blk.timeMessage (u : Blk) (port : Nat) (stamp : W64) (ptp : List Byte) : Blk :=
  let event := decide ((ptp.headD 0).toNat % 16 ≤ 3)
  u.carry 0x01 stamp ((if event then 128 else 0) + port) ptp

/-- The receive timestamp of a leaf's frame port, in the present cycle (R53). -/
def Blk.rxStamp (u : Blk) : W64 := u.stampWith R.TBS_RXLAT

/-! ### Timers of the control link (R166) -/

/-- "parent switched" (R346). -/
def rkParentSwitched : RecKind := rk 0x10 0x0007 3 .always

/-- A node takes its alternate parent (R346, R381). -/
def Blk.toAlternate (u : Blk) : Blk :=
  let u := (u.setRb R.LNK_CTL 30 true).bumpSeq 0x10 0
  (u.report rkParentSwitched .dflt (pay [fd 0x24 4 (u.rn R.LNK_PMAC1_L)])).parentMoved

/-- The resends without progress that a link allows: `LNK.RETRY`, 0 acting as 1 (R166). -/
def Blk.retryMax (u : Blk) : Nat := max 1 (u.rf R.LNK_RETRY 0 4)

/-- The oldest retained message has gone `ACKTO` without release (R166): time moves there, and the sender rewinds. Answers whether
the resends are used up, so that the link is to be declared down. -/
def Blk.ackTimeout (u : Blk) (link : Nat) : Blk × Bool :=
  let l := u.link link
  match l.retained with
  | [] => (u, false)
  | m :: _ =>
    if l.down then (u, false)
    else
      let u := u.toIv (m.sentAt + u.ackTo)
      if l.resends < u.retryMax then (u.rewind link, false) else (u, true)

/-- RESTART_RESEND: while a link is down its oldest retained message goes out again every 16 × `ACKTO`, with the restart flag. -/
def Blk.restartResend (u : Blk) (link : Nat) : Blk :=
  let l := u.link link
  if l.down && !l.retained.isEmpty then
    let u := u.toIv (l.restartAt + 16 * u.ackTo)
    let u := u.modLink link (fun l => { l with restartAt := u.clk.ival })
    u.requeue link ((u.link link).retained.take 1)
  else u

/-- A link whose envelope counter is used up and is not down yet (R409). -/
def Blk.usedUp (u : Blk) (link : Nat) : Bool := decide (2 ^ 48 ≤ (u.link link).txCtr) && !(u.link link).down

/-! ### Link resets of received numbering -/

/-- A link reset of a sender (R164, R373): the numbering of every queue restarts, retained messages stay. -/
def Blk.linkReset (u : Blk) (link : Nat) : Blk :=
  let u := u.modLink link Link.restart
  u.requeue link (u.link link).retained

end Sys2Proof.Machine
end

