-- ==== Sys2Proof/Machine/History.lean ====
section
/-!
DEFINITION. Life cones and the flash history (spec/05_history_cones.md, R106, R110 to R121).
-/

namespace Sys2Proof.Machine

/-! ### Cones: state and records (R118, R120) -/

def Blk.cone (u : Blk) (c : Nat) : Cone := smGet u.cones.cone c Cone.reset
def Blk.setCone (u : Blk) (c : Nat) (x : Cone) : Blk := { u with cones := { u.cones with cone := smSet u.cones.cone c x Cone.reset } }

/-- The number of cones of a build. -/
def coneCount : Build → Nat
  | .leaf => 16
  | .tray => 256

/-- A cone is enabled. -/
def Blk.coneOn (u : Blk) (c : Nat) : Bool := u.rb (inst R.CONE_CFG c) 31

/-- The cone state as a payload (R118). -/
def conePay (c : Nat) (x : Cone) (archived : Bool) : BitVec 160 :=
  pay [fd 0x24 2 c, fd 0x26 1 (archived.toNat * 16 + x.absent.toNat * 8 + x.levels.toNat), fd 0x28 8 x.heat.toNat,
    fd 0x30 4 x.cycles.toNat, fd 0x34 2 x.inserts.toNat]

/-- Records of the CONE page (R117). -/
def rkCone (code sev : Nat) : RecKind := rk 0x0A code sev .always

/-- A checkpoint of a cone is written (R121). -/
def Blk.coneCheckpoint (u : Blk) (c : Nat) : Blk :=
  let x := u.cone c
  (u.report (rkCone 2 0) .dflt (conePay c x false)).setCone c { x with dirty := false }

/-- A report of a cone's state, with its checkpoint, which comes first: reports of one cycle stand in the order of their codes (R105, R121). -/
def Blk.coneState (u : Blk) (c code sev : Nat) (archived : Bool) : Blk :=
  (u.coneCheckpoint c).report (rkCone code sev) .dflt (conePay c (u.cone c) archived)

/-- The levels that a cone's measures have reached (R120): bit 0 75 %, bit 1 90 %, bit 2 bent. -/
def Blk.coneLevels (u : Blk) (c : Nat) (x : Cone) : Nat :=
  let bend := u.rn (inst R.CONE_BEND_L c) + u.rf (inst R.CONE_BEND_H c) 0 16 * 2 ^ 32
  let ms := [(x.heat.toNat, bend), (x.cycles.toNat, u.rn (inst R.CONE_PCLIM c)), (x.inserts.toNat, u.rf (inst R.CONE_INSLIM c) 0 16)]
  let at' := fun (k d : Nat) => ms.any (fun m => decide (m.2 ≠ 0 ∧ m.2 * k ≤ m.1 * d))
  (at' 3 4).toNat + (at' 9 10).toNat * 2 + (at' 1 1).toNat * 4

/-- The levels that a cone has newly reached are noted; answered are the reports they make, by code and cone: each level's, and a checkpoint with it
(R120, R121). -/
def Blk.coneReached (u : Blk) (c : Nat) : Blk × List (Nat × Nat) :=
  let x := u.cone c
  let new := (List.range 3).filter (fun i => (u.coneLevels c x).testBit i && !bit x.levels i)
  (u.setCone c { x with levels := x.levels ||| BitVec.ofNat 3 ((new.map (fun i => 2 ^ i)).sum) }, new.flatMap (fun i => [(2, c), (3 + i, c)]))

/-- Reports of cones in one cycle stand in the order of their codes (R105), those of one code by cone. -/
def Blk.coneReports (u : Blk) (rs : List (Nat × Nat)) : Blk :=
  (rs.mergeSort (fun a b => decide (a.1 < b.1) || (decide (a.1 = b.1) && decide (a.2 ≤ b.2)))).foldl (fun (v : Blk) e =>
    if e.1 = 2 then v.coneCheckpoint e.2
    else (v.cause 0x0A 0 0).report (rkCone e.1 (e.1 - 2)) .dflt (conePay e.2 (v.cone e.2) false)) u

/-- CONE_LEVEL_REPORT: levels newly reached are reported in ascending order, each with a checkpoint (R120, R121). -/
def Blk.coneReport (u : Blk) (c : Nat) : Blk := let r := u.coneReached c; r.1.coneReports r.2

/-- The cones of a list do something in one cycle, and what levels that reaches is reported (R105). -/
def Blk.conesDo (u : Blk) (f : Blk → Nat → Blk) : Blk :=
  let r := (List.range (coneCount u.build)).foldl (fun (a : Blk × List (Nat × Nat)) c => let x := (f a.1 c).coneReached c; (x.1, a.2 ++ x.2)) (u, [])
  r.1.coneReports r.2

/-- The weight of a sensor code in a cone's table (R120): entry 63 where the code is invalid. -/
def Blk.coneWeight (u : Blk) (c : Nat) (code : Option (BitVec 6)) : Nat :=
  let n := match u.build with | .leaf => 4 | .tray => 16
  let t := u.rf (inst R.CONE_CFG c) 8 4 % n
  (smGet u.cones.weights (t * 64 + (match code with | some k => k.toNat | none => 63)) 0).toNat

/-- Cones work once the scan of the history has ended (R113). -/
def Blk.conesLive (u : Blk) : Bool := u.his.scanned

/-- One second of heat-work for a cone (R120). -/
def Blk.coneSecond (u : Blk) (c : Nat) (codes : List (Option (BitVec 6))) : Blk :=
  let x := u.cone c
  if u.coneOn c && x.bound && !x.absent && u.conesLive then
    let w := u.coneWeight c ((codes[u.rf (inst R.CONE_CFG c) 0 8]?).join)
    (u.setCone c { x with heat := BitVec.ofNat 48 (satAdd x.heat.toNat w (2 ^ 48 - 1)),
                          dirty := x.dirty || decide (w ≠ 0) })
  else u

/-- OPERATING_SECOND: time moves to the next whole second of powered time (R106); `codes` are the temperature codes. -/
def Blk.operatingSecond (u : Blk) (codes : List (Option (BitVec 6))) : Blk :=
  let u := u.toIv (u.cones.secondAt + msIv 1000)
  let u := { u with cones := { u.cones with secondAt := u.cones.secondAt + msIv 1000 },
                    his := { u.his with opCount := u.his.opCount + 1 } }
  u.conesDo (fun v c => v.coneSecond c codes)

/-! ### Identities (R119) -/

/-- A read of a cone's identity starts on its part bus. -/
def Blk.coneRead (u : Blk) (c : Nat) : Blk :=
  let cfg := u.reg (inst R.CONE_CFG c)
  (u.setCone c { u.cone c with reading := true }).emit
    (.partBus (match u.build with | .leaf => 0 | .tray => fld cfg 28 2) (fld cfg 14 7) (u.rf (inst R.CONE_REG c) 0 16) (bit cfg 30))

/-- CONE_ENABLE and every write of `CONE.CFG` of the selected cone: a rise of en starts a read. -/
def Blk.coneCfg (u : Blk) (c : Nat) (w : W32) : Blk :=
  let was := u.coneOn c
  let mask : W32 := match u.build with | .leaf => 0xC01FC3FF#32 | .tray => 0xF01FCFFF#32
  let u := u.setReg (inst R.CONE_CFG c) (w &&& mask)
  if bit w 31 && !was && u.conesLive then u.coneRead c else u

/-- CONE_POLL: time moves to the end of a cone's poll interval, and its identity is read where it is enabled. -/
def Blk.conePoll (u : Blk) (c : Nat) : Blk :=
  let t := u.rf R.CONE_POLL 0 16
  if t = 0 || !u.conesLive || !u.coneOn c then u
  else
    let u := u.toIv (smGet u.cones.pollAt c 0 + msIv (1000 * t))
    let u := { u with cones := { u.cones with pollAt := smSet u.cones.pollAt c u.clk.ival 0 } }
    u.coneRead c

/-- A cone is archived with its final state, with a checkpoint (R119, R121). -/
def Blk.coneArchive (u : Blk) (c : Nat) : Blk :=
  let x := u.cone c
  if x.bound then u.coneState c 6 1 true else u

/-- A cone starts over with an identity (R119); a read of its identity that is under way goes on. -/
def Blk.coneBind (u : Blk) (c : Nat) (ident : BitVec 128) : Blk :=
  let x := { Cone.reset with bound := true, ident := ident, inserts := 1, dirty := true, reading := (u.cone c).reading }
  (u.setCone c x).report (rkCone 1 1) .dflt (pay [fd 0x24 2 c, fd 0x28 16 ident.toNat])

/-- IDENTITY_READ_DONE: the read completes with 16 bytes, or fails (R119). -/
def Blk.identityDone (u : Blk) (c : Nat) (r : Option (BitVec 128)) : Blk :=
  let x := u.cone c
  if !x.reading then u
  else
    let x := { x with reading := false }
    let u := u.setCone c x
    match r with
    | none =>
      if x.absent then u
      else
        let x := { x with absent := true }
        ((u.setCone c x).cause 0x0A 0 1).coneState c 7 2 false
    | some ident =>
      if x.bound && decide (ident = x.ident) then
        if x.absent then
          let x := { x with absent := false, inserts := BitVec.ofNat 16 (satAdd x.inserts.toNat 1 65535) }
          (u.setCone c x).coneState c 8 1 false
        else u
      else (u.coneArchive c).coneBind c ident

/-- CONE_RESTART: the selected cone is archived and starts over with the identity it has. -/
def Blk.coneRestart (u : Blk) : Blk :=
  let c := u.rf R.CONE_SEL 0 8
  let x := u.cone c
  if x.bound then (u.coneArchive c).coneBind c x.ident else u

/-- CONE_CHECKPOINT: a cone's `CKPT` minutes end; it is checkpointed where its state changed (R121); 0 acts as 1. -/
def Blk.checkpointDue (u : Blk) (c : Nat) : Blk :=
  let u := u.toIv (smGet u.cones.ckptAt c 0 + msIv (60000 * max 1 (u.rf R.CONE_CKPT 0 16)))
  let u := { u with cones := { u.cones with ckptAt := smSet u.cones.ckptAt c u.clk.ival 0 } }
  if (u.cone c).dirty && (u.cone c).bound then u.coneCheckpoint c else u

/-! ### The flash region (R111) -/

/-- An erased place. -/
def erased : BitVec 512 := BitVec.allOnes 512

/-- The flash place of a block and place of the region. -/
def Blk.hisKey (u : Blk) (block place : Nat) : Nat := (u.rn R.HIS_BASE_H * 2 ^ 32 + u.rn R.HIS_BASE_L) / 64 + block * 1024 + place

def Blk.flashAt (u : Blk) (key : Nat) : BitVec 512 := smGet u.his.flash key erased
def Blk.setFlash (u : Blk) (key : Nat) (v : BitVec 512) : Blk := { u with his := { u.his with flash := smSet u.his.flash key v erased } }

/-- A stored record is valid: its inverted valid bit is programmed (R111). -/
def flashValid (v : BitVec 512) : Bool := !bit v 31

/-- A place that is neither erased nor valid is abandoned (R111). -/
def flashAbandoned (v : BitVec 512) : Bool := decide (v ≠ erased) && bit v 31

/-- Page and code of a stored record. -/
def flashKind (v : BitVec 512) : Nat × Nat := (fld v 16 8, fld v 0 16)

/-- A number at a byte offset of a stored record. -/
def flashNum (v : BitVec 512) (off size : Nat) : Nat := fld v (8 * off) (8 * size)

/-- The repeats that a stored record's thermometer shows (R112). -/
def flashTicks (v : BitVec 512) : Nat := 64 - popBelow (fld v 448 64) 64

/-! ### Operating time (R114) -/

/-- A new operating-time record is due (R114). It waits for flash behind what is staged, where need be in a place beyond the 16 (log entry 96). -/
def Blk.newOperating (u : Blk) : Blk :=
  (({ u with his := { u.his with opPlace := none, opTicks := 0, opStart := u.his.opBase + u.his.opCount } }).hisQueue rkOperating 0 .operating).headerDue

/-- The operating seconds at which the open operating-time record is ticked next: a minute after its last tick. -/
def Blk.minuteDue (u : Blk) : Nat := u.his.opStart + 60 * (u.his.opTicks + 1)

/-- A minute of operating time ticks the open operating-time record (R114); the 65th writes a new one. -/
def Blk.operatingTick (u : Blk) : Blk :=
  if u.his.opTicks < 64 then
    let due := match u.his.opPlace with | some k => u.his.ticksDue ++ [k] | none => u.his.ticksDue
    { u with his := { u.his with opTicks := u.his.opTicks + 1, ticksDue := due } }
  else u.newOperating

/-- The minutes that the operating seconds have reached tick the record; `n` bounds them. -/
def Blk.operatingTicks (u : Blk) : Nat → Blk
  | 0 => u
  | n + 1 => if u.minuteDue ≤ u.his.opBase + u.his.opCount then u.operatingTick.operatingTicks n else u

/-! ### Block open (R115) -/

/-- Blocks of the region in the order they were written, the oldest first: the current one is last. -/
def Blk.blocksInOrder (u : Blk) : List Nat :=
  (List.range u.hisNblk).map (fun i => (u.his.block + 1 + i) % max 1 u.hisNblk)

/-- The valid records of the region in history order: (key, bits). -/
def Blk.hisRecords (u : Blk) : List (Nat × BitVec 512) :=
  u.blocksInOrder.flatMap (fun b =>
    (u.his.flash.filter (fun e => decide (u.hisKey b 0 ≤ e.1) && decide (e.1 < u.hisKey b 0 + 1024) && flashValid e.2)))

/-- The key by which a record is the latest of its kind (R115): cone × 2 for a cone bound, cone × 2 + 1 for a checkpoint. -/
def latestKey (v : BitVec 512) : Option Nat :=
  if flashKind v = (0x0A, 1) then some (flashNum v 0x24 2 * 2)
  else if flashKind v = (0x0A, 2) then some (flashNum v 0x24 2 * 2 + 1)
  else none

/-- A record's place in the history's order: power cycle, then sequence number (R322). -/
def flashOrder (v : BitVec 512) : Nat := flashNum v 0x20 4 * 2 ^ 32 + flashNum v 0x04 4

/-- The latest of some stored records (R322); of copies of one record the last one written. -/
def latestOf (rs : List (Nat × BitVec 512)) : Option (Nat × BitVec 512) :=
  rs.foldl (fun (a : Option (Nat × BitVec 512)) e => match a with
    | some x => if flashOrder x.2 ≤ flashOrder e.2 then some e else a
    | none => some e) none

/-- The places of the latest record of each kind. -/
def latestPlaces (rs : List (Nat × BitVec 512)) : SMap Nat :=
  let ks := (rs.filterMap (fun e => latestKey e.2)).dedup
  ks.foldl (fun (m : SMap Nat) k => match latestOf (rs.filter (fun e => latestKey e.2 = some k)) with | some x => smPut m k x.1 | none => m) []

/-- A record that is to be written again: as it stands, with its ticks. -/
def Blk.carried (u : Blk) (key : Nat) (role : HRole) : HItem :=
  let v := u.flashAt key
  ⟨0, u.draft rkOperating .dflt 0, v, role, flashTicks v, false⟩

/-- A place lies in a block. -/
def Blk.inBlock (u : Blk) (b k : Nat) : Bool := decide (u.hisKey b 0 ≤ k) && decide (k < u.hisKey b 0 + 1024)

/-- The records of the block to be erased next that are written again before it is (R115): the latest of each kind, then the open operating-time
record. -/
def Blk.rewrites (u : Blk) (nn : Nat) : List HItem :=
  (((latestPlaces u.hisRecords).map Prod.snd).filter (u.inBlock nn)).map (fun k => u.carried k .rewrite) ++
    (match u.his.opPlace with | some k => if u.inBlock nn k then [u.carried k .operating] else [] | none => [])

/-- What is rewritten out of a block stands ahead of other records, and the block is to be erased. -/
def Blk.clearBlock (u : Blk) (nn : Nat) : Blk :=
  let items := u.rewrites nn
  let op := match u.his.opPlace with | some k => if u.inBlock nn k then none else some k | none => none
  { u with his := { u.his with ahead := items ++ u.his.ahead, eraseDue := some nn, opPlace := op } }

/-- The item of the next block's block open record, taken out of the queue. Where the current block has run out of places before its turn (a place was
abandoned, or the records were staged before the scan had ended), it is taken out of its turn, and created where it does not exist (log entry 96). -/
def Blk.takeHeader (u : Blk) : Blk × HItem :=
  match u.his.staging.find? (fun i => i.role == .blockOpen) with
  | some i => ({ u with his := { u.his with staging := u.his.staging.filter (fun x => !(x.role == .blockOpen)) } }, i)
  | none => u.hisOwn rkBlockOpen (pay [fd 0x24 4 (u.his.gen + 1).toNat, fd 0x28 4 u.hisNblk]) .blockOpen

/-- The block after the current one. -/
def Blk.nextBlock (u : Blk) : Nat := (u.his.block + 1) % max 1 u.hisNblk

/-- BLOCK_OPEN (R111, R115): the next block, which is erased, is opened: its header is programmed at place 0, and the latest records of the block after it
come next. -/
def Blk.openBlock (u : Blk) : Blk :=
  let n := u.nextBlock
  let r := u.takeHeader
  let u := { r.1 with his := { r.1.his with block := n, place := 0, gen := r.1.his.gen + 1 } }
  let u := u.clearBlock u.nextBlock
  { u with his := { u.his with op := some (.program 0 { r.2 with role := .rewrite } (u.hisKey n 0)) } }

/-! ### Flash work (R111, R112, R115, R116) -/

/-- Records that are staged may be written: the scan has ended, the region is formatted and the history is on (R113). -/
def Blk.stageOpen (u : Blk) : Bool := u.his.scanned && !u.his.nofmt && u.rb R.HIS_CTL 31

/-- The history may issue flash work: records may be written or a format is under way, and no supply warning, park, pause or read holds it. -/
def Blk.flashFree (u : Blk) : Bool :=
  (u.stageOpen || u.his.formatting) && !u.his.heldBack && !u.pw.parked && !u.pw.parkPend && !u.his.paused && !u.his.readBusy

/-- The history lost record is queued as soon as a staging entry is free (R110). -/
def Blk.lostNoteDue (u : Blk) : Blk :=
  if u.his.lostNote && decide (u.his.staging.length < 16) then
    let n := u.his.lostCount
    let f := u.his.lostFirst
    let u := { u with his := { u.his with lostNote := false, lostCount := 0 } }
    (u.hisQueue rkHisLost (pay [fd 0x24 4 n, fd 0x28 4 f.toNat]) .lostNote).headerDue
  else u

/-- The next item to program, and whether it comes from the staging queue. -/
def Blk.front (u : Blk) : Option (HItem × Bool) :=
  match u.his.ahead with
  | i :: _ => some (i, false)
  | [] => if u.stageOpen then u.his.staging.head?.map (fun i => (i, true)) else none

/-- The next item needs the next block opened: it is that block's header, or the current block is full. -/
def Blk.needsBlock (u : Blk) : Bool :=
  match u.front with
  | some e => (e.1.role == .blockOpen && !u.his.formatting) || decide (1023 < u.his.place)
  | none => false

/-- Take the next record to program, opening the next block first where it needs it, and erasing that block before where that is still owed. -/
def Blk.takeItem (u : Blk) : Blk :=
  let h := u.his
  match u.front with
  | none => u
  | some e =>
    if u.needsBlock then
      let nb := u.nextBlock
      if h.eraseDue = some nb then { u with his := { h with op := some (.erase nb) } }
      else if h.suspended = some nb then { u with his := { h with op := some (.erase nb), suspended := none } }
      else u.openBlock
    else
      { u with his := { h with ahead := if e.2 then h.ahead else h.ahead.drop 1, staging := if e.2 then h.staging.drop 1 else h.staging,
                               op := some (.program 0 e.1 (u.hisKey h.block h.place)) } }

/-- An erase in flight is suspended for a program where the device allows it (R115), unless all that is to be programmed waits for that very block. -/
def Blk.suspendErase (u : Blk) : Blk :=
  let h := u.his
  match h.op with
  | some (.erase b) =>
    if h.canSuspend && (!h.ticksDue.isEmpty || (u.front.isSome && !(u.needsBlock && decide (b = u.nextBlock)))) then
      { u with his := { h with op := none, suspended := some b } }
    else u
  | _ => u

/-- The next flash operation where none is in flight: ticks, what stands ahead of the staging queue, ticks held through a supply warning, the erase that the
rewrites of a block open leave owed, staged records, and an erase that was suspended. Staged records pass an owed erase only as far as they may suspend it
(R115, R116). -/
def Blk.nextFlash (u : Blk) : Blk :=
  let h := u.his
  match h.ticksDue, h.ahead, h.heldTicks, h.eraseDue with
  | k :: t, _, _, _ => { u with his := { h with op := some (.tick k), ticksDue := t } }
  | [], [], k :: t, _ => { u with his := { h with op := some (.tick k), heldTicks := t } }
  | [], [], [], some b =>
    if h.canSuspend && u.front.isSome && !u.needsBlock then { u with his := { h with eraseDue := none, suspended := some b } }.takeItem
    else { u with his := { h with op := some (.erase b), eraseDue := none } }
  | [], _, _, _ =>
    let u := u.takeItem
    match u.his.op, u.his.suspended with
    | none, some b => { u with his := { u.his with op := some (.erase b), suspended := none } }
    | _, _ => u

/-- Start the next flash operation where none is in flight. Ticks held through a supply warning come after what it cut short (R116). The staging entry that
this frees takes the history lost record, if one is due (R110). -/
def Blk.flashStart (u : Blk) : Blk :=
  if !u.flashFree then u
  else
    let u := if u.his.heldTicks.isEmpty then u
      else { u with his := { u.his with heldTicks := u.his.heldTicks ++ u.his.ticksDue, ticksDue := [] } }
    let u := u.suspendErase
    (match u.his.op with
      | some _ => u
      | none => u.nextFlash).lostNoteDue

/-- The bits a program stage clears (R111): bytes 0x04 to 0x37, then word 0 but its bit 31, then bit 31. -/
def stageBits (stage : Nat) (raw : BitVec 512) : BitVec 512 :=
  match stage with
  | 0 => raw ||| BitVec.ofNat 512 (2 ^ 32 - 1) ||| (BitVec.allOnes 512 <<< 448)
  | 1 => raw ||| (BitVec.allOnes 512 <<< 32) ||| BitVec.ofNat 512 (2 ^ 31)
  | _ => raw ||| (BitVec.allOnes 512 <<< 32) ||| BitVec.ofNat 512 (2 ^ 31 - 1)

/-- The lowest bit still set of a thermometer is cleared (R112). -/
def tickDown (v : BitVec 512) : BitVec 512 :=
  match (List.range 64).find? (fun i => bit v (448 + i)) with
  | some i => setBit v (448 + i) false
  | none => v

/-- A record has been written at a place: its ticks follow, and it is or is not the open flash record (R112, R114). -/
def Blk.itemWritten (u : Blk) (i : HItem) (key : Nat) : Blk :=
  let h := u.his
  let mine : Bool := match h.openRec with | some o => o.id = i.id | none => false
  let ticks := if i.role == .operating then h.opTicks
    else if mine then (match h.openRec with | some o => o.ticks | none => 0) else i.ticks
  let open' := if mine then h.openRec.map (fun o => { o with place := some key })
    else if i.role == .operating then h.openRec
    else h.openRec.filter (fun o => o.place.isNone)
  { u with his := { h with place := h.place + 1, fails := 0, openRec := open', ticksDue := h.ticksDue ++ List.replicate ticks key,
                           opPlace := if i.role == .operating then some key else h.opPlace,
                           formatting := h.formatting && !(i.role == .blockOpen) } }

/-- The place in use is abandoned, and the record is written again at the next place with the same number (R116, R388). -/
def Blk.abandonPlace (u : Blk) (i : HItem) : Blk :=
  let u := { u with his := { u.his with place := u.his.place + 1, ahead := i :: u.his.ahead } }
  (u.bump R.HIS_ABANDON).headerDue

/-- A tick did not take (R116, R388): the record is abandoned where it stands, so that only its rewrite is valid (R319), and written again at the next
place, with all its repeats. -/
def Blk.abandonTicked (u : Blk) (key : Nat) : Blk :=
  let h := u.his
  let owed := (h.ticksDue.filter (· = key)).length + (h.heldTicks.filter (· = key)).length
  let mine := match h.openRec with | some o => if o.place = some key then some o.id else none | none => none
  let role : HRole := if h.opPlace = some key then .operating else if mine.isSome then .staged else .rewrite
  let i := { u.carried key role with id := mine.getD 0, ticks := flashTicks (u.flashAt key) + 1 + owed }
  let u := u.setFlash key (setBit (u.flashAt key) 31 true)
  let h := u.his
  let h := { h with ahead := i :: h.ahead, ticksDue := h.ticksDue.filter (· ≠ key), heldTicks := h.heldTicks.filter (· ≠ key),
                    opPlace := if h.opPlace = some key then none else h.opPlace,
                    openRec := h.openRec.map (fun (o : OpenFlash) => if o.place = some key then { o with place := none } else o) }
  (({ u with his := h }).bump R.HIS_ABANDON).headerDue

/-- The flash device reports a failure (R388): four in a row pause the history. -/
def Blk.flashFailed (u : Blk) (operation key : Nat) : Blk :=
  let u := { u with his := { u.his with fails := u.his.fails + 1, paused := u.his.paused || decide (4 ≤ u.his.fails + 1) } }
  (u.cause 0x09 0 0).report rkFlashError .dflt (pay [fd 0x24 1 operation, fd 0x28 8 (key * 64)])

/-- An injected device failure is taken (R388). -/
def Blk.takeFlashInj (u : Blk) : Blk × Bool := if u.armed 0x09 0 0 then (u.fire 0x09 0 0 false, true) else (u, false)

/-- FLASH_PROGRAM_DONE: the program in flight ends, well or with a failure that the device reports, and the next one starts. -/
def Blk.flashProgramDone (u : Blk) (fail : Bool) : Blk :=
  let u := u.flashStart
  match u.his.op with
  | some (.program stage i key) =>
    let f := u.takeFlashInj
    let u := f.1
    let u := { u with his := { u.his with op := none } }
    if fail || f.2 then
      let u := u.setFlash key (u.flashAt key &&& stageBits (min stage 1) i.raw)
      ((u.abandonPlace i).flashFailed 0 key).flashStart
    else
      let u := u.setFlash key (u.flashAt key &&& stageBits stage i.raw)
      if stage < 2 then { u with his := { u.his with op := some (.program (stage + 1) i key) } }
      else (u.itemWritten i key).flashStart
  | some (.tick key) =>
    let f := u.takeFlashInj
    let u := f.1
    let u := { u with his := { u.his with op := none } }
    if fail || f.2 then ((u.abandonTicked key).flashFailed 0 key).flashStart
    else (u.setFlash key (tickDown (u.flashAt key))).flashStart
  | _ => u

/-- Every place of a block is erased. -/
def Blk.eraseBlock (u : Blk) (b : Nat) : Blk :=
  { u with his := { u.his with flash := u.his.flash.filter (fun e => !(decide (u.hisKey b 0 ≤ e.1) && decide (e.1 < u.hisKey b 0 + 1024))) } }

/-- FLASH_ERASE_DONE: the erase in flight ends; what waited for it proceeds (R115). A failed erase is issued again. -/
def Blk.flashEraseDone (u : Blk) (fail : Bool) : Blk :=
  let u := match u.his.op with | none => u.flashStart | some _ => u
  match u.his.op with
  | some (.erase b) =>
    let f := u.takeFlashInj
    let u := f.1
    let u := { u with his := { u.his with op := none } }
    if fail || f.2 then (({ u with his := { u.his with eraseDue := some b } }).flashFailed 1 (u.hisKey b 0)).flashStart
    else
      let u := u.eraseBlock b
      ({ u with his := { u.his with eraseDue := if u.his.eraseDue = some b then none else u.his.eraseDue, fails := 0 } }).flashStart
  | _ => u

/-! ### Enable, scan and format (R113) -/

/-- HISTORY_ENABLE: `HIS.CTL.en` is written 1. The first such write after a cold reset starts the scan; a later one ends a pause
(R388). `susp`: the device's parameters report erase suspend (R115). -/
def Blk.hisEnable (u : Blk) (susp : Bool) : Blk :=
  let u := u.setRb R.HIS_CTL 31 true
  if u.his.scanStarted then { u with his := { u.his with paused := false, fails := 0 } }
  else { u with his := { u.his with scanStarted := true, scanBusy := true, canSuspend := susp } }

/-- The generation of a block whose header is valid (R113). -/
def Blk.blockGen (u : Blk) (b : Nat) : Option W32 :=
  let v := u.flashAt (u.hisKey b 0)
  if flashValid v && flashKind v = (0x09, 1) then some (BitVec.ofNat 32 (flashNum v 0x24 4)) else none

/-- The valid block with the greatest generation. -/
def Blk.latestBlock (u : Blk) : Option (Nat × W32) :=
  (List.range u.hisNblk).foldl (fun (a : Option (Nat × W32)) b =>
    match u.blockGen b, a with
    | some g, some x => if stepAfter g x.2 then some (b, g) else a
    | some g, none => some (b, g)
    | none, _ => a) none

/-- A cone restored from its latest bound and checkpoint records (R121), with its power cycle added (R120). A checkpoint of the cone's earlier life does not
count: it comes before the binding in the history's order (R322), wherever the two stand. -/
def restoredCone (bound check : Option (BitVec 512)) : Cone :=
  match bound with
  | none => Cone.reset
  | some b =>
    let c : Cone := { Cone.reset with bound := true, ident := BitVec.ofNat 128 (flashNum b 0x28 16), inserts := 1, cycles := 1, dirty := true }
    match check with
    | some v =>
      if flashOrder b < flashOrder v then
        { c with heat := BitVec.ofNat 48 (flashNum v 0x28 8), cycles := BitVec.ofNat 32 (satAdd (flashNum v 0x30 4) 1 (2 ^ 32 - 1)),
                 inserts := BitVec.ofNat 16 (flashNum v 0x34 2), levels := BitVec.ofNat 3 (flashNum v 0x26 1),
                 absent := (flashNum v 0x26 1).testBit 3 }
      else c
    | none => c

/-- The cones are restored, report levels, and enabled ones read their part's identity (R113, R120, R121). -/
def Blk.restoreCones (u : Blk) : Blk :=
  let rs := u.hisRecords
  let latest := latestPlaces rs
  let rec? := fun (k : Nat) => (smGet? latest k).map u.flashAt
  let u := u.conesDo (fun v c =>
    let x := restoredCone (rec? (2 * c)) (rec? (2 * c + 1))
    if x.bound then v.setCone c x else v)
  (List.range (coneCount u.build)).foldl (fun (v : Blk) c => if v.coneOn c then v.coneRead c else v) u

/-- The records of the scan's time take the restored counts (R113). -/
def restoreRec (pcyc : W32) (base : Nat) (r : Rec) : Rec := { r with pcyc := pcyc, opsec := BitVec.ofNat 32 (r.opsec.toNat + base) }
def restoreItem (pcyc : W32) (base : Nat) (i : HItem) : HItem :=
  if i.early then { i with r := restoreRec pcyc base i.r, raw := (restoreRec pcyc base i.r).flashBits, early := false } else i

/-- HISTORY_SCAN_DONE: the scan ends (R113); a format under way is waited for. Where a power loss has left the next block not erased, what it still holds of the latest records is written again
before it is (R115). -/
def Blk.hisScanDone (u : Blk) : Blk :=
  if !u.his.scanBusy || u.his.formatting then u
  else
    let u := { u with his := { u.his with scanBusy := false, scanned := true } }
    match u.latestBlock with
    | none =>
      let u := { u with his := { u.his with nofmt := true, pcyc := 1, staging := [], openRec := none } }
      (u.cause 0x09 0 2).restoreCones
    | some (b, g) =>
      let place := ((List.range 1024).find? (fun p => decide (u.flashAt (u.hisKey b p) = erased))).getD 1024
      let abandoned := ((List.range place).filter (fun p => flashAbandoned (u.flashAt (u.hisKey b p)))).length
      let u := { u with his := { u.his with block := b, place := place, gen := g } }
      let rs := u.hisRecords
      let lastV := match latestOf rs with | some e => e.2 | none => 0
      let opV := latestOf (rs.filter (fun e => flashKind e.2 = (0x09, 4)))
      let opsec := max (flashNum lastV 0x1C 4) (match opV with | some e => flashNum e.2 0x1C 4 + 60 * flashTicks e.2 | none => 0)
      let pcyc : W32 := BitVec.ofNat 32 (flashNum lastV 0x20 4 + 1)
      let nn := (b + 1) % max 1 u.hisNblk
      let dirty := u.his.flash.any (fun e => u.inBlock nn e.1)
      let u := u.bumpBy R.HIS_ABANDON abandoned
      let u := { u with his := { u.his with pcyc := pcyc, opBase := opsec, opPlace := opV.map Prod.fst,
                                            opTicks := (match opV with | some e => flashTicks e.2 | none => 0),
                                            opStart := (match opV with | some e => flashNum e.2 0x1C 4 | none => 0),
                                            staging := u.his.staging.map (restoreItem pcyc opsec),
                                            openRec := u.his.openRec.map (fun (o : OpenFlash) => { o with r := restoreRec pcyc opsec o.r }) } }
      let u := if dirty && decide (nn ≠ b) then u.clearBlock nn else u
      let u := u.restoreCones
      let valid := ((List.range u.hisNblk).filter (fun i => (u.blockGen i).isSome)).length
      let u := u.report rkHisResumed .dflt (pay [fd 0x24 4 abandoned, fd 0x28 4 valid])
      let u := if opV.isNone then u.newOperating else u.operatingTicks 65
      u.headerDue.flashStart

/-- The region is erased and block 0 is opened at generation 0 (R113). Records that wait in the staging queue wait on (DESIGN CHOICE, log entry 120); where
the scan has not ended, it still does, and finds block 0. -/
def Blk.formatNow (u : Blk) : Blk :=
  let size := u.hisNblk * 1024
  let kept := u.his.flash.filter (fun e => !(decide (u.hisKey 0 0 ≤ e.1) && decide (e.1 < u.hisKey 0 0 + size)))
  let h := u.his
  let h := { h with flash := kept, nofmt := false, formatting := true, fmtDue := false, block := 0, place := 0, gen := 0, op := none, suspended := none,
                    eraseDue := none, ahead := [], ticksDue := [], heldTicks := [], opPlace := none, opTicks := 0,
                    staging := h.staging.filter (fun i => i.role == .staged || i.role == .lostNote),
                    openRec := h.openRec.filter (fun o => o.place.isNone) }
  let r := ({ u with his := h }).hisOwn rkBlockOpen (pay [fd 0x24 4 0, fd 0x28 4 u.hisNblk]) .blockOpen
  let u := { r.1 with his := { r.1.his with ahead := [r.2] } }
  (if h.scanned then u.newOperating else u).flashStart

/-- Flash work that was held goes on, a format that waited first (R113, R116, R377). -/
def Blk.flashGo (u : Blk) : Blk :=
  if u.his.fmtDue && !u.his.heldBack && !u.pw.parked && !u.pw.parkPend then u.formatNow else u.flashStart

/-- HISTORY_FORMAT: a write of 1 to `HIS.CTL.fmt` formats the region (R113); while a supply warning or a park holds flash work, the format waits for its
end (R116, R377). -/
def Blk.hisFormat (u : Blk) : Blk := ({ u with his := { u.his with fmtDue := true } }).flashGo

/-- OPERATING_MINUTE: time moves to the end of the minute of operating time that follows the open operating-time record's last tick, and ticks it (R114).
Before the scan has ended there is no such record, and the minutes are counted by the operating seconds (R113). -/
def Blk.operatingMinute (u : Blk) : Blk :=
  if u.his.nofmt || !u.his.scanned then u
  else (u.toIv (u.cones.secondAt + msIv (1000 * (u.minuteDue - (u.his.opBase + u.his.opCount))))).operatingTick

/-! ### Reading (R117) -/

/-- The words of a place fill `HIS.RDATA`. -/
def Blk.setRdata (u : Blk) (v : BitVec 512) : Blk :=
  (List.range 16).foldl (fun (w : Blk) i => w.setN (R.HIS_RDATA + 4 * i) (fld v (32 * i) 32)) u

/-- HISTORY_READ: a write of `HIS.RPOS` starts a read; a position outside the region reads all ones. -/
def Blk.hisRead (u : Blk) (w : W32) : Blk :=
  let pos := fld w 0 28
  let u := u.setN R.HIS_RPOS pos
  if u.hisNblk ≤ pos / 1024 then
    let u := (u.setRdata erased).cause 0x09 0 3
    { u with his := { u.his with rdy := true, readBusy := false } }
  else { u with his := { u.his with rdy := false, readBusy := true, readPos := pos } }

/-- A read of the flash waits: for a program in flight, and for an erase where the device cannot suspend it (R117). -/
def Blk.flashReadWaits (u : Blk) : Bool :=
  match u.his.op with
  | some (.program _ _ _) => true
  | some (.tick _) => true
  | some (.erase _) => !u.his.canSuspend
  | none => false

/-- HISTORY_READ_DONE: the read completes once the flash can be read. -/
def Blk.hisReadDone (u : Blk) : Blk :=
  if !u.his.readBusy || u.flashReadWaits then u
  else
    let v := u.flashAt (u.hisKey (u.his.readPos / 1024) (u.his.readPos % 1024))
    let u := u.setRdata (setBit v 31 (!bit v 31))
    ({ u with his := { u.his with rdy := true, readBusy := false } }).flashStart

/-! ### Supply warnings (R116) -/

/-- From the start of a supply warning no flash work is issued; the operation in flight is cut short. -/
def Blk.flashHold (u : Blk) : Blk := { u with his := { u.his with heldBack := true, cut := u.his.op, op := none } }

/-- On return: an unfinished record is written again, an issued program is read back (`took`), an erase is issued again, and held ticks come last (R116). -/
def Blk.flashReturn (u : Blk) (took : Bool) : Blk :=
  let c := u.his.cut
  let u := { u with his := { u.his with heldBack := false, cut := none, heldTicks := u.his.heldTicks ++ u.his.ticksDue, ticksDue := [] } }
  let u := match c with
    | none => u
    | some (.erase b) => { u with his := { u.his with op := some (.erase b) } }
    | some (.tick k) => if took then u.setFlash k (tickDown (u.flashAt k)) else u.abandonTicked k
    | some (.program stage i key) =>
      if stage = 2 && took then (u.setFlash key (u.flashAt key &&& stageBits 2 i.raw)).itemWritten i key
      else
        let u := u.setFlash key (u.flashAt key &&& stageBits (min stage 1) i.raw)
        u.abandonPlace i
  u.flashGo

/-! ### The recorder's window (R107) -/

/-- RECORD_WINDOW_END: time moves to the end of the open record's `COAL` window, and the record closes. -/
def Blk.windowEnd (u : Blk) : Blk :=
  if u.rcd.isOpen then
    let u := u.toIv (u.rcd.openAt + usIv (u.rf R.EVR_COAL 0 16))
    { u with rcd := { u.rcd with isOpen := false } }
  else u

end Sys2Proof.Machine
end

