-- ==== Sys2Proof/Machine/Supply.lean ====
section
/-!
DEFINITION. Supply warnings and dips, and parking (spec/17_power_reset_hotplug.md, R369 to R371 and R377).
-/

namespace Sys2Proof.Machine

/-- Records of the PWR page (R382). -/
def rkDip : RecKind := rk 0x14 0x0001 2 .always
def rkWarningLong : RecKind := rk 0x14 0x0002 3 .always
def rkParked : RecKind := rk 0x14 0x0003 1 .always

/-- The levels of `PWR.LEVELS`. -/
def Blk.warnLv (u : Blk) : Nat := u.rf R.PWR_LEVELS 8 8
def Blk.rstLv (u : Blk) : Nat := u.rf R.PWR_LEVELS 0 8
def Blk.hyst (u : Blk) : Nat := u.rf R.PWR_LEVELS 16 8

/-- The supply is at its reset level (R369): a cold reset is due. -/
def Blk.atResetLevel (u : Blk) (code : Nat) : Bool := decide (code ≤ u.rstLv)

/-- The rail byte of a record: 0 in the leaf, which reads one code (R370). -/
def Blk.railByte (u : Blk) (rail : Nat) : Nat := match u.build with | .leaf => 0 | .tray => rail

/-- The park takes effect once no flash operation is in progress and no warning is active (R377). -/
def Blk.parkSettle (u : Blk) : Blk :=
  if u.pw.parkPend && u.pw.warning.isNone && u.his.op.isNone then
    let u := { u with pw := { u.pw with parkPend := false, parked := true } }
    (u.cause 0x14 0 1).report rkParked .dflt (pay [fd 0x24 4 u.his.staging.length])
  else u

/-- A supply warning begins (R369, R370): flash work is held. -/
def Blk.warningBegin (u : Blk) (code rail : Nat) : Blk :=
  let u := { u with pw := { u.pw with warning := some ⟨u.clk.tb1, u.clk.ival, code, u.railByte rail, false⟩ } }
  (u.cause 0x14 0 0).flashHold

/-- A supply warning ends as a dip (R370): flash work resumes, then the record. -/
def Blk.warningEnd (u : Blk) (w : Warning) (took : Bool) : Blk :=
  let u := { u with pw := { u.pw with warning := none } }
  let u := (u.flashReturn took).bump R.PWR_DIPCNT
  (u.report rkDip .dflt (pay [fd 0x24 4 (ivUs (u.clk.ival - w.startAt)), fd 0x28 1 w.low, fd 0x29 1 w.rail,
    fd 0x2C 8 w.tb1.toNat])).parkSettle

/-- The supply code takes a value above the reset level (R369): `rail` is the rail it is lowest on, `took` whether a program in
flight when the warning began reads back as done. -/
def Blk.supplyCode (u : Blk) (code rail : Nat) (took : Bool) : Blk :=
  let u := ({ u with pw := { u.pw with code := code, rail := rail } }).modReg R.PWR_MINCODE (fun m => BitVec.ofNat 32 (min code m.toNat))
  match u.pw.warning with
  | none => if code ≤ u.warnLv then u.warningBegin code rail else u
  | some w =>
    if u.warnLv + u.hyst ≤ code then u.warningEnd w took
    else if code < w.low then
      let w' := { w with low := code, rail := u.railByte rail }
      { u with pw := { u.pw with warning := some w' } }
    else u

/-- SUPPLY_WARNING_LONG: time moves to `WLONG` milliseconds after the start of the active warning, and the record is written once. -/
def Blk.warningLong (u : Blk) : Blk :=
  match u.pw.warning with
  | none => u
  | some w =>
    if w.longDone then u
    else
      let u := u.toIv (w.startAt + msIv (max 1 (u.rf R.PWR_WLONG 0 16)))
      let w' := { w with longDone := true }
      let u := { u with pw := { u.pw with warning := some w' } }
      u.report rkWarningLong .dflt (pay [fd 0x24 1 u.pw.code, fd 0x25 1 w.rail])

/-- A write of `PWR.LEVELS`: refused when it would place RSTLV at or above WARNLV (R369). -/
def Blk.levelsWrite (u : Blk) (w : W32) : Blk :=
  if fld w 8 8 ≤ fld w 0 8 then u.cause 0x14 0 3 else u.setReg R.PWR_LEVELS (w &&& 0x00FFFFFF#32)

/-- PARK (R377): the history record in progress completes, then flash work is held. -/
def Blk.park (u : Blk) : Blk :=
  if u.pw.parked || u.pw.parkPend then u else ({ u with pw := { u.pw with parkPend := true } }).parkSettle

/-- UNPARK (R377): flash work and sampling go on. -/
def Blk.unpark (u : Blk) : Blk := ({ u with pw := { u.pw with parked := false, parkPend := false } }).flashGo

/-- A write of `PWR.CMD`: with both bits set it is ignored. -/
def Blk.pwrCmd (u : Blk) (w : W32) : Blk :=
  if bit w 0 && bit w 1 then u else if bit w 0 then u.park else if bit w 1 then u.unpark else u

/-- A supply code that comes while a cold reset is held is only what the monitor reads (R374); it is judged when the reset is released. -/
def Blk.supplyInput (u : Blk) (code rail : Nat) : Blk := { u with pw := { u.pw with code := code, rail := rail } }

end Sys2Proof.Machine
end

