-- ==== Sys2Proof/Machine/Time.lean ====
section
/-!
DEFINITION. Pod time, local time, timed actions and the 1PPS signals of both builds (spec/02_time_step_angle.md, R29 to R38, R48,
R49).
-/

namespace Sys2Proof.Machine

/-! ### The increment (R31, R35) -/

/-- INC_FRAC_WRITE: the fraction is held until the next write of `INC_NS`. -/
def Blk.incFrac (u : Blk) (w : W32) : Blk := { u with clk := { u.clk with fracHeld := w } }

/-- INC_NS_WRITE: the pair takes effect, or an increment of zero is refused; either way it is discipline. -/
def Blk.incNs (u : Blk) (ns : Byte) : Blk :=
  let inc : BitVec 40 := ns ++ u.clk.fracHeld
  let u := { u with clk := { u.clk with hold := false, discAt := u.clk.ival } }
  if inc = 0 then (u.setRc R.TBS_STS 2).cause 0x01 0 2
  else { u with clk := { u.clk with inc := inc } }

/-- HOLDOVER: time moves past `HOLDTO` milliseconds without discipline (R35). A value of 0 disables detection. -/
def Blk.holdover (u : Blk) : Blk :=
  let t := u.rf R.TBS_HOLDTO 0 16
  if t = 0 || u.clk.hold then u
  else
    let u := u.toIv (u.clk.discAt + msIv t + 1)
    let u := { u with clk := { u.clk with hold := true } }
    (u.cause 0x01 0 0).reportOpen 0x01 2 .dflt []

/-! ### Timed actions (R36 to R38) -/

/-- A timed action's time is reached: never on TB0 while TB0 is not valid (R33). -/
def Blk.isDue (u : Blk) (a : TimedAction) : Bool :=
  if a.onTb1 then reached64 u.clk.tb1 a.time else u.clk.valid && reached64 u.clk.ns a.time

/-- Insert an action behind those of its base with an earlier or equal time (P6). -/
def insertTimed (a : TimedAction) : List TimedAction → List TimedAction
  | [] => [a]
  | b :: t => if a.onTb1 = b.onTb1 && !reached64 a.time b.time then a :: b :: t else b :: insertTimed a t

/-- The due actions fire in timestamp order, equal times in queue order (R37). -/
def Blk.fireDue (u : Blk) : Blk :=
  let due := u.timed.filter u.isDue
  let u := due.foldl (fun (v : Blk) a => v.emit (.timed a.onTb1 a.code.toNat false)) u
  { u with timed := u.timed.filter (fun a => !u.isDue a) }

/-- The actions on TB0 that a step or load of TB0 has passed, in timestamp order (R38). -/
def Blk.passedActions (u : Blk) : List TimedAction := u.timed.filter (fun a => !a.onTb1 && u.isDue a)

/-- A passed action fires late (R38). -/
def Blk.firePassed (u : Blk) (a : TimedAction) : Blk :=
  ({ u with timed := u.timed.erase a }).emit (.timed false a.code.toNat true)

/-- Queue an action: one whose time is reached already fires at once, late (R37). -/
def Blk.queueTimed (u : Blk) (a : TimedAction) : Blk :=
  if u.isDue a then u.emit (.timed a.onTb1 a.code.toNat true) else { u with timed := insertTimed a u.timed }

/-- Cycles until an action is due: none where it cannot be yet. -/
def Blk.cyclesToAction (u : Blk) (a : TimedAction) : Option Nat :=
  if a.onTb1 then some (u.clk.cyclesToTb1 a.time) else if u.clk.valid then some (u.clk.cyclesToNs a.time) else none

/-- TIMED_ACTION: with an action given, software queues it; with none, time moves to the first cycle in which a pending action's
time is reached, and the due ones fire. -/
def Blk.timedAction (u : Blk) (a : Option TimedAction) : Blk :=
  match a with
  | some a => u.queueTimed a
  | none =>
    match (u.timed.filterMap u.cyclesToAction).min? with
    | none => u
    | some k => (u.adv k).fireDue

/-! ### Offset steps and loads (R32, R38) -/

/-- "time step" (R32). -/
def rkTimeStep : RecKind := rk 0x01 0x0001 1 .bySeverity

/-- The 96 bits of the offset registers. -/
def Blk.ofs96 (u : Blk) : W96 := u.reg R.TBS_OFS_NSH ++ u.reg R.TBS_OFS_NSL ++ u.reg R.TBS_OFS_FRAC

/-- The 1PPS output rises, unless it is high or TB0 is not valid (R49). -/
def Blk.ppsUp (u : Blk) : Blk :=
  if u.clk.valid && !u.clk.ppsOut then
    ({ u with clk := { u.clk with ppsOut := true, ppsAt := u.clk.ival } }).emit (.pin .ppsOut 0 1)
  else u

/-- TB0 came from `old` to its present value in one cycle, and has reached a whole second with it: by standing on one, or by passing one on its way
forward (R36, R49; DEDUCED for a step or load, log entry 118). -/
def Blk.secondReached (u : Blk) (old : W64) : Bool :=
  decide (u.clk.ns ≠ old) &&
    (decide (u.clk.ns.toNat % 1000000000 = 0) || (reached64 u.clk.ns old && decide (u.clk.ns.toNat / 1000000000 ≠ old.toNat / 1000000000)))

/-- The T build's 1PPS output in a cycle in which TB0 came from `old` to its present value (R49). -/
def Blk.ppsCross (u : Blk) (old : W64) : Blk :=
  match u.build with
  | .leaf => u
  | .tray => if u.secondReached old then u.ppsUp else u

/-- TB0 takes a new value: it becomes valid, a whole second it reaches raises the 1PPS output, and the change is recorded (R32, R49). -/
def Blk.moveTb0 (u : Blk) (v : W96) : Blk :=
  let old := u.clk.ns
  let u := ({ u with clk := { u.clk with tb := v, valid := true } }).ppsCross old
  (u.cause 0x01 0 1).report rkTimeStep .dflt
    (pay [fd 0x24 8 old.toNat, fd 0x2C 8 u.clk.ns.toNat, fd 0x34 4 (u.clk.tb1.toNat % 2 ^ 32)])

/-- TB0 takes a new value: passed actions and launch times are late, and the gates follow the new time (R38, R172, R175). Actions on TB1 are
unaffected. -/
def Blk.setTb0 (u : Blk) (v : W96) : Blk :=
  let old := u.clk.ns
  let u := u.moveTb0 v
  (u.passedActions.foldl Blk.firePassed u).egressAfterJump old

/-- OFFSET_STEP: the signed 96-bit offset is added. -/
def Blk.offsetStep (u : Blk) : Blk := u.setTb0 (u.clk.tb + u.ofs96)

/-- LOAD: the 96-bit value replaces TB0. -/
def Blk.loadTb0 (u : Blk) : Blk := u.setTb0 u.ofs96

/-- The value that a write of `TBS.OFS_GO` gives TB0: bit 0 steps, bit 1 loads, both are ignored (R32). -/
def Blk.goValue (u : Blk) (w : W32) : Option W96 :=
  if bit w 0 && bit w 1 then none else if bit w 0 then some (u.clk.tb + u.ofs96) else if bit w 1 then some u.ofs96 else none

/-- A write of `TBS.OFS_GO`. -/
def Blk.ofsGo (u : Blk) (w : W32) : Blk := match u.goValue w with | some v => u.setTb0 v | none => u

/-! ### Latched reads (R34) -/

/-- A read of `TB0_NSL` latches TB0's other words and TB1. -/
def Blk.latchTb0 (u : Blk) : Blk :=
  { u with clk := { u.clk with latNsh := BitVec.ofNat 32 (u.clk.ns.toNat / 2 ^ 32), latFrac := u.clk.frac, latTb1 := u.clk.tb1 } }

/-- A read of `TB1_L` latches `TB1_H`. -/
def Blk.latchTb1 (u : Blk) : Blk := { u with clk := { u.clk with latTb1h := BitVec.ofNat 32 (u.clk.tb1.toNat / 2 ^ 32) } }

/-- TB0_NSL_READ: a read of `TB0_NSL`, or of `TB1_L` where `tb1` is set. -/
def Blk.timeRead (u : Blk) (tb1 : Bool) : Blk :=
  if tb1 then u.latchTb1.emit (.read R.TBS_TB1_L (BitVec.ofNat 64 (u.clk.tb1.toNat % 2 ^ 32)))
  else u.latchTb0.emit (.read R.TBS_TB0_NSL (BitVec.ofNat 64 (u.clk.ns.toNat % 2 ^ 32)))

/-! ### 1PPS (R49) -/

/-- PPS_IN: the rising edge latches TB0. -/
def Blk.ppsIn (u : Blk) : Blk :=
  let u := u.setRc R.TBS_STS 3
  ((u.setN R.TBS_PPSCAP_NSL u.clk.ns.toNat).setN R.TBS_PPSCAP_NSH (u.clk.ns.toNat / 2 ^ 32)).setReg R.TBS_PPSCAP_FRAC u.clk.frac

/-- PPS_OUT_RISE: time moves to the cycle in which TB0 reaches the next whole second; the output rises where TB0 is valid. -/
def Blk.ppsRise (u : Blk) : Blk :=
  let next := (u.clk.ns.toNat / 1000000000 + 1) * 1000000000
  (u.toNs (BitVec.ofNat 64 next)).ppsUp

/-- The time at which a high output falls, as the interval sum measures it. -/
def Blk.ppsEnd (u : Blk) : Nat := u.clk.ppsAt + msIv (u.rf R.TBS_PPSW 0 10)

/-- The 1PPS output falls. -/
def Blk.ppsDown (u : Blk) : Blk := ({ u with clk := { u.clk with ppsOut := false } }).emit (.pin .ppsOut 0 0)

/-- PPS_OUT_FALL: `PPSW` milliseconds after its rise the output falls. -/
def Blk.ppsFall (u : Blk) : Blk := if u.clk.ppsOut then (u.toIv u.ppsEnd).ppsDown else u

/-- A write of `TBS.PPSW`: 0 and values above 999 are ignored. -/
def Blk.ppsWidth (u : Blk) (w : W32) : Blk :=
  let v := fld w 0 10
  if v = 0 || 999 < v || decide (w.toNat ≠ v) then u else u.setN R.TBS_PPSW v

/-- The 1PPS output in a cycle that has come: it falls when its time is over, and rises with the whole second (R49). -/
def Blk.ppsCycle (u : Blk) (old : W64) : Blk :=
  (if u.clk.ppsOut && decide (u.ppsEnd ≤ u.clk.ival) then u.ppsDown else u).ppsCross old

/-- One cycle passes in the T build: the 1PPS output follows TB0, and the due actions fire (R30, R37, R49). -/
def Blk.cycle (u : Blk) : Blk := ((u.adv 1).ppsCycle u.clk.ns).fireDue

end Sys2Proof.Machine
end

