-- ==== Sys2Proof/Machine/Port.lean ====
section
/-!
DEFINITION. The register port for the pages that both builds have: what a read of a register answers and does, and what a write
does (spec/00_scope.md, R13, R14; spec/21_register_pages.md, R446, R447, R449 to R451; the register tables of every chapter).
-/

namespace Sys2Proof.Machine

/-- What the surroundings answer to a register write that starts something outside the block: how far the compression engine
has come when it is aborted, what checking a signed configuration and a certificate chain gives, whether flash works, and whether
the flash device can suspend an erase. `same` tells that the write reaches the register in the very cycle of the hardware updates that the
commands before it have made (R446). -/
structure PortEnv where
  produced : W32
  sig : SigVerdict
  chain : BitVec 3
  flashOk : Bool
  suspend : Bool
  same : Bool
deriving DecidableEq, Repr

/-- How a read reaches the port: its privilege (R67), and whether it falls in the very cycle of the hardware updates that the commands before it have
made (R446). -/
structure ReadEnv where
  priv : Bool
  same : Bool
deriving DecidableEq, Repr

/-- The bits of a register that hardware has updated in the present cycle, or set in an RC field. -/
def Blk.hwBits (u : Blk) (k : Nat) : W32 := (u.reg k ^^^ smGet u.cyc k (regReset u.build k)) ||| smGet u.rcNow k 0

/-- After an access to the register at page address `k`, made to `old` in the cycle of its hardware updates: what they have set stays, and the access
has its effect on the other bits (R13, R446). -/
def Blk.keepHardware (new old : Blk) (k : Nat) : Blk :=
  (((old.regs ++ old.cyc).map (·.1)).filter (fun j => j % 0x100000 = k % 0x100000)).foldl (fun (v : Blk) j =>
    let m := old.hwBits j
    v.setReg j ((v.reg j &&& ~~~m) ||| (old.reg j &&& m))) new

/-- The registers as they stood before the cycle's changes: what a read in that cycle answers (R446). -/
def Blk.beforeCycle (u : Blk) : Blk := { u with regs := u.cyc }

/-- A 32-bit value of a number. -/
abbrev w32 (n : Nat) : W32 := BitVec.ofNat 32 n

/-- The two halves of a number. -/
abbrev lo32 (n : Nat) : W32 := BitVec.ofNat 32 n
abbrev hi32 (n : Nat) : W32 := BitVec.ofNat 32 (n / 2 ^ 32)

/-- Where the value that a read of an _L register latched for its _H partner is kept (R447). -/
abbrev latKey (k : Nat) : Nat := k + 0x40000000

/-- A read of an _L register that latches its _H partner (R447). -/
def Blk.readLat (u : Blk) (lo hi : Nat) : Blk × W32 := (u.setReg (latKey hi) (u.reg hi), u.reg lo)

/-- A read of an RC register: its value, then it clears (R13). -/
def Blk.readClear (u : Blk) (k : Nat) : Blk × W32 := (u.setReg k 0, u.reg k)

/-- A write of the fields of a register that have no behaviour of their own (R13, R14). -/
def Blk.writePlain (u : Blk) (k : Nat) (w : W32) : Blk := u.setReg k ((u.reg k &&& ~~~(rwMask u.build k)) ||| (w &&& rwMask u.build k))

/-- Word `i` of a byte string, little-endian, as a row of registers shows it. -/
def wordOf (l : List Byte) (i : Nat) : W32 := BitVec.ofNat 32 (numAt l (4 * i) 4)

/-! ### BLK and TBS -/

/-- The highest page number in use (R449). -/
def topPage : Build → Nat
  | .leaf => 0x19
  | .tray => 0x5F

def Blk.readBlk (u : Blk) (k : Nat) : Blk × W32 :=
  if k = R.BLK_NPAGE then (u, w32 (topPage u.build))
  else if k = R.BLK_RST then (u, 0)
  else (u, u.reg k)

/-- A read of the TBS page (R34, R49). -/
def Blk.readTbs (u : Blk) (k : Nat) : Blk × W32 :=
  let c := u.clk
  if k = R.TBS_TB0_NSL then (u.latchTb0, lo32 c.ns.toNat)
  else if k = R.TBS_TB0_NSH then (u, c.latNsh)
  else if k = R.TBS_TB0_FRAC then (u, c.latFrac)
  else if k = R.TBS_TB1_CAPL then (u, lo32 c.latTb1.toNat)
  else if k = R.TBS_TB1_CAPH then (u, hi32 c.latTb1.toNat)
  else if k = R.TBS_INC_FRAC then (u, c.fracHeld)
  else if k = R.TBS_INC_NS then (u, w32 (c.inc.toNat / 2 ^ 32))
  else if k = R.TBS_OFS_GO then (u, 0)
  else if k = R.TBS_STS then
    (u.setReg k 0, w32 (u.rf k 2 2 * 4 + c.hold.toNat * 2 + c.valid.toNat))
  else if k = R.TBS_TB1_L then (u.latchTb1, lo32 c.tb1.toNat)
  else if k = R.TBS_TB1_H then (u, c.latTb1h)
  else (u, u.reg k)

/-- A write of the TBS page (R31, R32, R49). -/
def Blk.writeTbs (u : Blk) (k : Nat) (w : W32) : Blk :=
  if k = R.TBS_INC_FRAC then u.incFrac w
  else if k = R.TBS_INC_NS then u.incNs (w.setWidth 8)
  else if k = R.TBS_OFS_GO then u.ofsGo w
  else if k = R.TBS_PPSW then (match u.build with | .leaf => u | .tray => u.ppsWidth w)
  else u.writePlain k w

/-! ### EVR, HIS and CONE -/

def Blk.readEvr (u : Blk) (k : Nat) : Blk × W32 :=
  if k = R.EVR_FILL then (u, w32 u.rcd.ring.length) else (u, u.reg k)

/-- Flash operations in flight end while a held read waits for them (R117): `n` bounds them. -/
def Blk.flashDrain (u : Blk) : Nat → Blk
  | 0 => u
  | n + 1 =>
    match u.his.op with
    | some (.program _ _ _) => (u.flashProgramDone false).flashDrain n
    | some (.tick _) => (u.flashProgramDone false).flashDrain n
    | some (.erase _) => if u.his.canSuspend then u else (u.flashEraseDone false).flashDrain n
    | none => u

/-- A read of `HIS.RDATA` is held until the place asked for has been read (R117, R414). -/
def Blk.rdataHeld (u : Blk) : Blk := if u.his.readBusy then (u.flashDrain 4).hisReadDone else u

def Blk.readHis (u : Blk) (k : Nat) : Blk × W32 :=
  let h := u.his
  if k = R.HIS_STS then
    let erasing := h.suspended.isSome || (match h.op with | some (.erase _) => true | _ => false)
    (u, w32 (h.nofmt.toNat * 16 + erasing.toNat * 8 + h.paused.toNat * 4 + h.scanBusy.toNat * 2 + h.rdy.toNat))
  else if k = R.HIS_WPOS then
    (u, w32 (if h.place ≤ 1023 then h.block * 1024 + h.place else (h.block + 1) % max 1 u.hisNblk * 1024))
  else if k = R.HIS_GEN then (u, h.gen)
  else if k = R.HIS_OPSEC then (u, u.opsec)
  else if k = R.HIS_PCYC then (u, h.pcyc)
  else if R.HIS_RDATA ≤ k ∧ k < R.HIS_RDATA + 64 then
    let v := u.rdataHeld
    (v, v.reg k)
  else (u, u.reg k)

/-- A write of `HIS.CTL`; HISTORY_ENABLE writes en, HISTORY_FORMAT fmt (R113, R388). -/
def Blk.hisCtl (u : Blk) (w : W32) (suspend : Bool) : Blk :=
  let u := u.setReg R.HIS_CTL (setFld (u.reg R.HIS_CTL) 0 4 (fld w 0 4))
  let u := if bit w 31 then (u.hisEnable suspend).flashStart else u.setRb R.HIS_CTL 31 false
  if bit w 30 then u.hisFormat else u

def Blk.writeHis (u : Blk) (k : Nat) (w : W32) (suspend : Bool) : Blk :=
  if k = R.HIS_CTL then u.hisCtl w suspend
  else if k = R.HIS_BASE_L ∨ k = R.HIS_BASE_H ∨ k = R.HIS_NBLK then
    if u.rb R.HIS_CTL 31 then u.cause 0x09 0 4 else u.writePlain k w
  else if k = R.HIS_RPOS then u.hisRead w
  else u.writePlain k w

/-- The cone that `CONE.SEL` shows. -/
def Blk.coneSel (u : Blk) : Nat := u.rf R.CONE_SEL 0 8

/-- The key of the weight that `CONE.TIDX` addresses: the leaf has tables 0 to 3. -/
def Blk.weightKey (u : Blk) : Option Nat :=
  let i := u.rf R.CONE_TIDX 0 10
  match u.build with
  | .leaf => if i < 256 then some i else none
  | .tray => some i

def Blk.readCone (u : Blk) (k : Nat) : Blk × W32 :=
  let c := u.coneSel
  let x := u.cone c
  if k = R.CONE_SEL ∨ k = R.CONE_TIDX ∨ k = R.CONE_POLL ∨ k = R.CONE_CKPT then (u, u.reg k)
  else if k = R.CONE_HW_L then
    ({ u with cones := { u.cones with latHwH := hi32 x.heat.toNat } }, lo32 x.heat.toNat)
  else if k = R.CONE_HW_H then (u, u.cones.latHwH)
  else if k = R.CONE_PCNT then (u, x.cycles)
  else if k = R.CONE_INS then (u, x.inserts.setWidth 32)
  else if k = R.CONE_STS then (u, w32 (x.bound.toNat * 16 + x.absent.toNat * 8 + x.levels.toNat))
  else if R.CONE_ID ≤ k ∧ k < R.CONE_ID + 16 then (u, w32 (fld x.ident (8 * (k - R.CONE_ID)) 32))
  else if k = R.CONE_TVAL then (u, match u.weightKey with | some i => (smGet u.cones.weights i 0).setWidth 32 | none => 0)
  else (u, u.reg (inst k c))

def Blk.writeCone (u : Blk) (k : Nat) (w : W32) : Blk :=
  let c := u.coneSel
  if k = R.CONE_SEL then
    if coneCount u.build ≤ fld w 0 8 then u.cause 0x0A 0 2 else u.setN k (fld w 0 8)
  else if k = R.CONE_CFG then u.coneCfg c w
  else if k = R.CONE_CMD then (if bit w 0 then u.coneRestart else u)
  else if k = R.CONE_TIDX ∨ k = R.CONE_POLL ∨ k = R.CONE_CKPT then u.writePlain k w
  else if k = R.CONE_TVAL then
    match u.weightKey with
    | some i => { u with cones := { u.cones with weights := smSet u.cones.weights i (w.setWidth 16) 0 } }
    | none => u
  else u.writePlain (inst k c) w

/-! ### LNK, SCH and TSQ -/

/-- The value of `LNK.STS`: link up, and restarting while the link to the parent is declared down. -/
def Blk.lnkSts (u : Blk) : W32 :=
  let l := u.link u.parentLink
  w32 (l.down.toNat * 2 + (l.admitted && !l.down).toNat)

/-- `LNK.TXBUF` is write-only and reads zero (R13). `LNK.TXSTS`: busy until the mailbox's message is committed, refused (R169). A send is committed or refused at once. -/
def Blk.readLnk (u : Blk) (k : Nat) : Blk × W32 :=
  if k = R.LNK_STS then (u, u.lnkSts)
  else if R.LNK_TXBUF ≤ k ∧ k < R.LNK_TXBUF + 512 then (u, 0)
  else (u, u.reg k)

def Blk.writeLnk (u : Blk) (k : Nat) (w : W32) : Blk :=
  if k = R.LNK_CTL then u.lnkCtl w
  else if k = R.LNK_TXCTL then u.mailboxSend w
  else if R.LNK_TXBUF ≤ k ∧ k < R.LNK_TXBUF + 512 then
    { u with mailbox := overlay (bytesAt u.mailbox 0 512) (k - R.LNK_TXBUF) (leBytes 4 w.toNat) }
  else u.writePlain k w

/-- The port that `SCH.PSEL` or `TSQ.PSEL` shows: the leaf has one. -/
def Blk.portSel (u : Blk) (k : Nat) : Nat :=
  match u.build with
  | .leaf => 0
  | .tray => u.rf k 0 3

/-- The editable bank of a port's gate list (R172). -/
def Port.editBank (x : Port) : GateBank := if x.activeBank then x.bank0 else x.bank1
def Port.setEdit (x : Port) (b : GateBank) : Port := if x.activeBank then { x with bank0 := b } else { x with bank1 := b }

def Blk.readSch (u : Blk) (k : Nat) : Blk × W32 :=
  let p := u.portSel R.SCH_PSEL
  let u := u.gateSettle p
  if k = R.SCH_PSEL then (u, match u.build with | .leaf => 0 | .tray => u.reg k)
  else if k = R.SCH_STS then (u, w32 ((u.port p).swapPend.toNat * 2 ^ 31 + (u.gateMask p).toNat))
  else if k = R.SCH_GLEN then (u, w32 (u.port p).editBank.glen)
  else if R.SCH_GATE ≤ k ∧ k < R.SCH_GATE + 64 then (u, smGet (u.port p).editBank.gates ((k - R.SCH_GATE) / 4) 0)
  else if R.SCH_DEPTH ≤ k ∧ k < R.SCH_DEPTH + 256 then
    let off := (k - R.SCH_DEPTH) % 32
    if off = 8 then u.readClear (inst k p)
    else if off = 16 then u.readLat (inst k p) (inst (k + 4) p)
    else if off = 20 then (u, u.reg (latKey (inst k p)))
    else (u, u.reg (inst k p))
  else (u, u.reg (inst k p))

/-- Cells that the limits of a port's buffer may sum to (R167). -/
def bufferCells : Build → Nat
  | .leaf => 1024
  | .tray => 4096

/-- A write of `SCH.QLIM[q]`: refused where the limits would sum to more than the buffer holds (R167). -/
def Blk.qlimWrite (u : Blk) (p q v : Nat) : Blk :=
  let others := ((List.range 8).map (fun i => if i = q then 0 else u.rf (inst (R.SCH_QLIM + 4 * i) p) 0 13)).sum
  if bufferCells u.build < others + v then u.cause 0x11 0 2
  else (u.setN (inst (R.SCH_QLIM + 4 * q) p) v).promote p q

/-- A write of `GLEN` or `GATE[e]` reaches the editable bank; it is refused while a swap is pending (R172). -/
def Blk.gateWrite (u : Blk) (p : Nat) (f : GateBank → GateBank) : Blk :=
  if (u.port p).swapPend then u.cause 0x11 0 2 else u.modPort p (fun x => x.setEdit (f x.editBank))

def Blk.writeSch (u : Blk) (k : Nat) (w : W32) : Blk :=
  let p := u.portSel R.SCH_PSEL
  let u := u.gateSettle p
  if k = R.SCH_PSEL then u.writePlain k w
  else if k = R.SCH_CTL then
    let u := u.writePlain (inst k p) w
    (if bit w 30 then u.gateSwap p else u).gateFollow p
  else if k = R.SCH_RATE then (if fld w 0 24 = 0 then u else u.writePlain (inst k p) w)
  else if k = R.SCH_GLEN then
    let n := fld w 0 5
    if n = 0 ∨ 16 < n then u.cause 0x11 0 2 else u.gateWrite p (fun b => { b with glen := n })
  else if R.SCH_GATE ≤ k ∧ k < R.SCH_GATE + 64 then
    u.gateWrite p (fun b => { b with gates := smSet b.gates ((k - R.SCH_GATE) / 4) w 0 })
  else if R.SCH_WGT + 8 ≤ k ∧ k < R.SCH_WGT + 32 then u.setN (inst k p) (fld w 0 8)
  else if R.SCH_QLIM ≤ k ∧ k < R.SCH_QLIM + 32 then u.qlimWrite p ((k - R.SCH_QLIM) / 4) (fld w 0 13)
  else (u.writePlain (inst k p) w).gateRebase p

def Blk.readTsq (u : Blk) (k : Nat) : Blk × W32 :=
  let p := u.portSel R.TSQ_PSEL
  let x := u.port p
  if k = R.TSQ_PSEL then (u, match u.build with | .leaf => 0 | .tray => u.reg k)
  else if k = R.TSQ_STS then (u, w32 ((u.rb (inst k p) 31).toNat * 2 ^ 31 + x.tsq.length))
  else
    match x.tsq with
    | [] => if k = R.TSQ_LOST then (u, u.reg (inst k p)) else (u, 0)
    | e :: t =>
      if k = R.TSQ_E0 then (u, e.e0)
      else if k = R.TSQ_E1 then (u, e.e1)
      else if k = R.TSQ_E2 then (u, lo32 e.ns.toNat)
      else if k = R.TSQ_E3 then (u.setPort p { x with tsq := t }, hi32 e.ns.toNat)
      else (u, u.reg (inst k p))

def Blk.writeTsq (u : Blk) (k : Nat) (w : W32) : Blk :=
  let p := u.portSel R.TSQ_PSEL
  if k = R.TSQ_PSEL then u.writePlain k w
  else if k = R.TSQ_STS then (if bit w 31 then u.setRb (inst k p) 31 false else u)
  else u

/-! ### IDN, PWR and ERR -/

def Blk.readIdn (u : Blk) (k : Nat) : Blk × W32 :=
  let i := u.idn
  let slot := smGet? i.slots (u.rf R.IDN_KSEL 0 3)
  if k = R.IDN_STS then
    (u, w32 (i.valid.toNat * 2 ^ 31 + i.anchor.toNat * 2 ^ 30 + i.mismatch.toNat * 2 ^ 29 + i.unverified.toNat * 2 ^ 28 +
      i.rdy.toNat * 2 ^ 27 + i.busy.toNat * 2 ^ 26))
  else if k = R.IDN_CFGSEQ_L then ({ u with idn := { i with latSeqH := hi32 i.cfgSeq.toNat } }, lo32 i.cfgSeq.toNat)
  else if k = R.IDN_CFGSEQ_H then (u, i.latSeqH)
  else if k = R.IDN_POLICY then (u, i.policy)
  else if k = R.IDN_ROLE then (u, match u.build with | .leaf => 0 | .tray => w32 i.role)
  else if k = R.IDN_KROLE then (u, match slot with | some s => w32 (2 ^ 31 + s.roles.toNat) | none => 0)
  else if R.IDN_KEYID ≤ k ∧ k < R.IDN_KEYID + 16 then
    (u, match slot with | some s => wordOf (beBytes 16 s.keyid.toNat) ((k - R.IDN_KEYID) / 4) | none => 0)
  else if R.IDN_MEAS ≤ k ∧ k < R.IDN_MEAS + 48 then
    (u, wordOf (digestBytes (i.m (u.rf R.IDN_MSEL 0 3))) ((k - R.IDN_MEAS) / 4))
  else if R.IDN_DEVPUB ≤ k ∧ k < R.IDN_DEVPUB + 100 then (u, wordOf (digestBytes i.devPub) ((k - R.IDN_DEVPUB) / 4))
  else if k = R.IDN_CMD ∨ k = R.IDN_EXTIDX then (u, 0)
  else (u, u.reg k)

/-- A write of the IDN page but for `IDN.CMD`. -/
def Blk.writeIdn (u : Blk) (k : Nat) (w : W32) : Blk :=
  if k = R.IDN_EXTIDX then u.extIdx w else u.writePlain k w

/-- The admission stage as `PWR.STS` shows it. -/
def Stage.num : Stage → Nat
  | .ladder => 0 | .a => 1 | .b => 2 | .c => 3

def Blk.readPwr (u : Blk) (k : Nat) : Blk × W32 :=
  let p := u.pw
  if k = R.PWR_STS then
    let stage := match u.build with | .leaf => 0 | .tray => p.stage.num
    (u, w32 (p.warning.isSome.toNat * 2 ^ 31 + p.parked.toNat * 2 ^ 30 + p.stuck.toNat * 2 ^ 29 + stage * 2 ^ 26 + p.code % 256))
  else if k = R.PWR_MINCODE then (u.setN k p.code, u.reg k)
  else if k = R.PWR_CMD then (u, 0)
  else (u, u.reg k)

/-- A write of the PWR page but for `PWR.LEVELS`, whose new levels the supply code is judged by at once. -/
def Blk.writePwr (u : Blk) (k : Nat) (w : W32) : Blk := if k = R.PWR_CMD then (u.pwrCmd w).idnResume else u.writePlain k w

/-- Registers of `ERR.SUM`. -/
def sumWords : Build → Nat
  | .leaf => 2
  | .tray => 3

def Blk.readErr (u : Blk) (k : Nat) : Blk × W32 :=
  if k = R.ERR_FIRST then (u.errFirst, u.reg k)
  else if R.ERR_SUM ≤ k ∧ k < R.ERR_SUM + 4 * sumWords u.build then (u, u.errSum ((k - R.ERR_SUM) / 4))
  else (u, u.reg k)

def Blk.writeErr (u : Blk) (k : Nat) (w : W32) : Blk := if k = R.ERR_CTL then u.errCtl w else u.writePlain k w

/-! ### Together -/

/-- A read beyond the header of a page that both builds have; `k` is page type × 0x1000 + offset. -/
def Blk.portRead (u : Blk) (k : Nat) : Blk × W32 :=
  let p := k / 0x1000
  if p = 0x00 then u.readBlk k
  else if p = 0x01 then u.readTbs k
  else if p = 0x08 then u.readEvr k
  else if p = 0x09 then u.readHis k
  else if p = 0x0A then u.readCone k
  else if p = 0x10 then u.readLnk k
  else if p = 0x11 then u.readSch k
  else if p = 0x12 then u.readTsq k
  else if p = 0x13 then u.readIdn k
  else if p = 0x14 then u.readPwr k
  else if p = 0x15 then u.readErr k
  else (u, u.reg k)

/-- A write beyond the header of a page that both builds have, but for what each build does itself. -/
def Blk.portWrite (u : Blk) (k : Nat) (w : W32) (e : PortEnv) : Blk :=
  let p := k / 0x1000
  if p = 0x00 then (if k = R.BLK_DBG then u.debugWrite w else u.writePlain k w)
  else if p = 0x01 then u.writeTbs k w
  else if p = 0x09 then u.writeHis k w e.suspend
  else if p = 0x0A then u.writeCone k w
  else if p = 0x10 then u.writeLnk k w
  else if p = 0x11 then u.writeSch k w
  else if p = 0x12 then u.writeTsq k w
  else if p = 0x13 then u.writeIdn k w
  else if p = 0x14 then u.writePwr k w
  else if p = 0x15 then u.writeErr k w
  else u.writePlain k w

end Sys2Proof.Machine
end

