-- ==== Sys2Proof/Machine/Float.lean ====
section
/-!
DEFINITION. binary32 as the spec uses it: exact ratios rounded to nearest even (R71), values as exact numbers on the 2^-149 grid,
and the missing value (R72).
-/

namespace Sys2Proof.Machine

/-- The canonical missing value (R72). -/
def missingWord : W32 := 0x7FC00001#32

/-- `n / d` rounded to the nearest integer, ties to even. -/
def roundEven (n d : Nat) : Nat :=
  let q := n / d
  let r := n % d
  if 2 * r < d then q else if d < 2 * r then q + 1 else if q % 2 = 0 then q else q + 1

/-- floor(log2 (n / d)) for positive n and d. -/
def ratLog2 (n d : Nat) : Int :=
  let e : Int := (Nat.log2 n : Int) - (Nat.log2 d : Int)
  let below := if 0 ≤ e then decide (n < d * 2 ^ e.toNat) else decide (n * 2 ^ (-e).toNat < d)
  if below then e - 1 else e

/-- binary32 of the ratio `n / d`, rounded to nearest even; a value beyond the largest becomes infinity. -/
def ratToF32 (n d : Nat) : W32 :=
  if n = 0 || d = 0 then 0
  else
    let e := max (ratLog2 n d) (-126)
    let s : Int := 23 - e
    let m := if 0 ≤ s then roundEven (n * 2 ^ s.toNat) d else roundEven n (d * 2 ^ (-s).toNat)
    -- a mantissa that rounds up to 2^24 carries into the exponent
    let biased := (e + 126).toNat
    let v := biased * 2 ^ 23 + m
    if 0x7F800000 ≤ v then 0x7F800000#32 else BitVec.ofNat 32 v

/-- binary32 of a natural number. -/
def natToF32 (n : Nat) : W32 := ratToF32 n 1

/-- binary32 of an integer. -/
def intToF32 (x : Int) : W32 := if 0 ≤ x then natToF32 x.toNat else natToF32 (-x).toNat ||| 0x80000000#32

/-- Exponent field all ones. -/
def f32Special (x : W32) : Bool := decide (fld x 23 8 = 255)

/-- Not a number. -/
def f32IsNan (x : W32) : Bool := f32Special x && decide (fld x 0 23 ≠ 0)

/-- Infinity of either sign. -/
def f32IsInf (x : W32) : Bool := f32Special x && decide (fld x 0 23 = 0)

/-- A finite binary32 as a whole number of 2^-149. -/
def f32Units (x : W32) : Int :=
  let e := fld x 23 8
  let m := fld x 0 23
  let mag := if e = 0 then m else (2 ^ 23 + m) * 2 ^ (e - 1)
  if bit x 31 then -(mag : Int) else (mag : Int)

/-- A key that orders every binary32 but NaN as its value does; the two zeros compare equal. -/
def f32Key (x : W32) : Int := if f32IsInf x then (if bit x 31 then -(2 ^ 300 : Int) else 2 ^ 300) else f32Units x

/-- `a < b` on binary32 values that are not NaN. -/
def f32Lt (a b : W32) : Bool := decide (f32Key a < f32Key b)

end Sys2Proof.Machine
end

