-- ==== Sys2Proof/Machine/CtrTypes.lean ====
section
/-!
DEFINITION. Event counters, the counter ring and its stops, bandwidth windows, selection lists and the brine sampler as data
(spec/03_counters_sampler.md).
-/

namespace Sys2Proof.Machine

/-- An event counter: 56 bits and a sticky overflow bit (R58). -/
structure Counter where
  val : BitVec 56
  ovf : Bool
deriving DecidableEq, Repr

def Counter.zero : Counter := ⟨0, false⟩

/-- What one source has at its ring stop: the 32-bit accumulator, whether it saturated, and an unsent gauge value (R62, R418). -/
structure SrcAcc where
  acc : W32
  sat : Bool
  gauge : Option W32
deriving DecidableEq, Repr

def SrcAcc.zero : SrcAcc := ⟨0, false, none⟩

/-- A ring stop, known by its strap `stop_base` (R418): bypass, accumulators by source within the stop, round-robin place. -/
structure Stop where
  byp : Bool
  acc : SMap SrcAcc
  next : Nat
deriving DecidableEq, Repr

def Stop.reset : Stop := ⟨false, [], 0⟩

/-- A bandwidth-window unit (R69). `partial` is set until a full window has begun. -/
structure BwUnit where
  cfg : W32
  count : W48
  last : W48
  valid : Bool
  wseq : W32
  first : Bool
deriving DecidableEq, Repr

def BwUnit.reset : BwUnit := ⟨0, 0, 0, false, 0, false⟩

/-- One selection list's two banks (R70). -/
structure SelList where
  bank0 : SMap W32
  bank1 : SMap W32
  len0 : Nat
  len1 : Nat
  active : Bool
  pend : Bool
  gen : W32
  errShown : Bool
deriving DecidableEq, Repr

def SelList.reset : SelList := ⟨[], [], 0, 0, false, false, 0, false⟩

/-- A sample read in progress (R74 to R77): `bank` is the bank of the selection list it reads, `gen` the generation at its fire, `level`
the decimation level of its step and `keep` whether the sample is kept at it (R81, R83). -/
structure SampleRead where
  slot : Nat
  bank : Bool
  gen : W32
  len : Nat
  point : Nat
  entry : Nat
  idx : W32
  angle : W32
  epoch : Byte
  level : Nat
  keep : Bool
  long : Bool
  startNs : W64
  period : W32
  startIval : Nat
  base : W64
  values : List W32          -- newest first
  counters : List (Option Nat)   -- counter values read by delta entries, newest first
  missing : Nat              -- features read so far that are missing (R73)
  fault : Bool
  suspect : Bool
deriving DecidableEq, Repr

/-- An operation on the counter store that takes held slots (R63, R68, R74). -/
inductive HeldOp where
  | sample (r : SampleRead)
  | capture (idx : Nat)
  | clear (idx : Nat)
  | clearAll
deriving DecidableEq, Repr

/-- A queued store operation: when its next held slot is due, and how many reads are left. -/
structure HeldItem where
  op : HeldOp
  due : W64
  left : Nat
deriving DecidableEq, Repr

/-- A latency measurement in progress (R64): its calibration number and launch cycle. -/
structure Measure where
  calib : W32
  launch : W64
deriving DecidableEq, Repr

/-- Per-slot sampler state (R78, R81 to R83). -/
structure SlotSampler where
  parentLevel : Nat
  pendLevel : Option Nat
  floorNow : Nat
  ndec : Nat
  nwith : Nat
  nref : Nat
  prevStart : W64
deriving DecidableEq, Repr

def SlotSampler.reset : SlotSampler := ⟨0, none, 0, 0, 0, 0, 0⟩

/-- Counters, ring, windows and sampler of a leaf. `baseline` is keyed slot × 8192 + entry. -/
structure Ctr where
  store : SMap Counter
  gauges : SMap Bool
  parity : SMap Bool
  srcMap : SMap W16
  stops : SMap Stop
  windows : SMap BwUnit
  held : List HeldItem
  calib : W32
  meas : Option Measure
  fault : Bool
  calDone : Bool
  sel : SMap SelList
  baseline : SMap (BitVec 56)
  slots : SMap SlotSampler
  prevRead : Option Nat
deriving DecidableEq, Repr

def Ctr.reset : Ctr :=
  { store := [], gauges := [], parity := [], srcMap := [], stops := [], windows := [], held := [], calib := 0, meas := none,
    fault := false, calDone := false, sel := [], baseline := [], slots := [], prevRead := none }

/-- The angle schedule table: two banks of 64 entries (R44, R47), which bank is active for each slot, the swap in progress, and
the entries that fired in the present step of their slot. -/
structure Schedule where
  ang0 : SMap W32
  act0 : SMap W32
  ang1 : SMap W32
  act1 : SMap W32
  activeA : Bool
  activeB : Bool
  shown : Bool
  pend : Bool
  fired : SMap Bool
deriving DecidableEq, Repr

def Schedule.reset : Schedule := ⟨[], [], [], [], false, false, false, false, []⟩

end Sys2Proof.Machine
end

