-- ==== Sys2Proof/Machine/GuardTypes.lean ====
section
/-!
DEFINITION. The snapshot guard and the fingerprint lanes as data (spec/07_snapshot_fingerprints.md).
-/

namespace Sys2Proof.Machine

/-- The states of a snapshot (R143). -/
inductive SnapState where
  | idle | copying | copied | torn
deriving DecidableEq, Repr

def SnapState.num : SnapState → Nat
  | .idle => 0 | .copying => 1 | .copied => 2 | .torn => 3

/-- A held write (R147): its tag, the one or two regions it touches, and when its hold began. -/
structure HeldWrite where
  tag : Nat
  first : Nat
  last : Nat
  since : Nat
deriving DecidableEq, Repr

/-- A check that waits for a tag or a copy-first place, or behind one that does (R147, R148). -/
structure WaitCheck where
  addr : Nat
  len : Nat
  since : Nat
deriving DecidableEq, Repr

/-- A region that waits for copy-first with its hold timer (R148, R149). `forced`: an injection makes it expire at once (R388). -/
structure HoldTimer where
  region : Nat
  since : Nat
  forced : Bool
deriving DecidableEq, Repr

/-- The snapshot guard. `copied` lists the regions whose bitmap bit is set; `armedAt` is the cycle of the last arm of the snapshot's own slot and whether a
schedule entry asked for it, `otherAt` that of the last entry of the other slot (R144). -/
structure Guard where
  state : SnapState
  reason : Nat
  copied : SMap Bool
  held : List HeldWrite
  timers : List HoldTimer
  waiting : List WaitCheck
  armIval : Nat
  armedAt : Option (W64 × Bool)
  otherAt : Option W64
deriving DecidableEq, Repr

def Guard.reset : Guard := ⟨.idle, 0, [], [], [], [], 0, none, none⟩

/-- A fingerprint entry that waits for a frame (R154). -/
structure FprEntry where
  chunk : Nat
  len : Nat
  changed : Bool
  digest : BitVec 256
deriving DecidableEq, Repr

/-- A chunk in a lane (R152), of the snapshot `snap`. -/
structure Lane where
  snap : W32
  chunk : Nat
  data : List Byte
  startedAt : W64
deriving DecidableEq, Repr

/-- What the fingerprint frames of a snapshot carry of it (R154). -/
structure FprHead where
  snap : W32
  step : W32
  ang : W32
  epoch : Nat
  csz : Nat
  slot : Nat
  nchunk : Nat
  done : Nat
  bytes : Nat
  fseq : Nat
deriving DecidableEq, Repr

/-- An earlier snapshot of which chunks are still in a lane, or entries wait for a frame (R153, R154). -/
structure FprPast where
  head : FprHead
  digests : SMap (BitVec 256)
  queued : List FprEntry
  oldestAt : Nat
deriving DecidableEq, Repr

/-- The fingerprint lanes. `past` has earlier snapshots that are not done with; `csz`, `slot` and the bytes `area` of the protected area are the ones of the arm. -/
structure Fpr where
  csz : Nat
  slot : Nat
  area : Nat
  digests : SMap (BitVec 256)
  codes : SMap (BitVec 2)
  queued : List FprEntry
  oldestAt : Nat
  lanes : SMap Lane
  drained : Bool
  startAt : Nat
  bytesH : W32
  past : List FprPast
deriving DecidableEq, Repr

def Fpr.reset : Fpr := ⟨0, 0, 0, [], [], [], 0, [], false, 0, 0, []⟩

end Sys2Proof.Machine
end

