-- ==== Sys2Proof/Machine/KilnTypes.lean ====
section
/-!
DEFINITION. Watched engines, reset domains and the dump walker as data (spec/06_kiln_sitter_dump.md).
-/

namespace Sys2Proof.Machine

/-- A context of the live table or the suspect list (R125). -/
structure CtxEntry where
  id : W32
  queue : W16
  tb1 : W64
deriving DecidableEq, Repr

/-- A reset request that an expiry still owes (R124): by `due` on the interval sum at the latest. -/
structure OwedReset where
  due : Nat
deriving DecidableEq, Repr

/-- A watched engine (R122 to R125). `timerAt` is the TB1 cycle its watch timer last restarted in. -/
structure Engine where
  timerAt : W64
  lastBeat : W64
  idle : Bool
  hung : Bool
  live : List CtxEntry
  liveInc : Bool
  suspects : List CtxEntry
  suspInc : Bool
  owed : Option OwedReset
deriving DecidableEq, Repr

def Engine.reset : Engine := ⟨0, 0, false, false, [], false, [], false, none⟩

/-- The levels of a domain's acknowledge and done inputs (R420). -/
structure DomAnswer where
  ack : Bool
  done : Bool
deriving DecidableEq, Repr

/-- A reset domain of the host die (R126 to R129). `raisedAt` is when its request rose (TB1), `firstAt` the interval sum of the
first request of the sequence and `first` the domain it was for; `into` the wider domain it escalated to; `topped` that the
record "reset hung at top" has been written. -/
structure Dom where
  req : Bool
  ack : Bool
  done : Bool
  esc : Nat
  raisedAt : W64
  firstAt : Nat
  first : Nat
  into : Option Nat
  topped : Bool
deriving DecidableEq, Repr

def Dom.reset : Dom := ⟨false, false, false, 0, 0, 0, 0, none, false⟩

/-- The kiln sitter. `edges` is the level of the sixteen 16-bit `rst_edge` inputs as they were last seen. -/
structure Kiln where
  engines : SMap Engine
  doms : SMap Dom
  edges : BitVec 256
deriving DecidableEq, Repr

def Kiln.reset : Kiln := ⟨[], [], 0⟩

/-- What the outstanding access of a walk reads. -/
inductive WalkPhase where
  | word | ptrLo | ptrHi
deriving DecidableEq, Repr

/-- A descriptor being walked (R131, R132). `base` is the address of the current item, `item` its number, `word` the next word in
it. Words and poison marks stand newest first; `begun` tells that its first access has been issued, at `tb1`. -/
structure Walk where
  begun : Bool
  desc : Nat
  op : Nat
  tag : Nat
  count : Nat
  link : Nat
  len : Nat
  addr : W64
  base : W64
  item : Nat
  word : Nat
  phase : WalkPhase
  ptrLo : W32
  words : List W32
  poison : List Bool
  fails : Nat
  skip : Bool
  ptrFail : Bool
  tb1 : W64
deriving DecidableEq, Repr

/-- What triggered a dump (R134, R139). `owes` tells that the hang it belongs to owes a reset request when its dump ends (R124). -/
structure DumpTrigger where
  reason : Nat
  engine : Nat
  rtag : Nat
  owes : Bool
deriving DecidableEq, Repr

/-- A dump in progress. `raw` holds the bytes after the header, before any compression; `stored` counts the bytes written or
queued, in `out`; `sent` the bytes already in segments; `trailer` the status once the trailer is written; `stalled` that the next access waits for
room in the dumps egress queue (R169). -/
structure DumpRun where
  trig : DumpTrigger
  id : W32
  fallback : Bool
  restarted : Bool
  zstd : Bool
  startIval : Nat
  tb0 : W64
  tb1 : W64
  stamp : StampVal
  suspects : List CtxEntry
  suspInc : Bool
  waiting : Bool
  next : Nat
  cur : Option Walk
  accessAt : Nat
  raw : List Byte
  out : List Byte
  sent : Nat
  stalled : Bool
  segno : Nat
  nsect : Nat
  npoison : Nat
  trailer : Option Nat
  writeAt : Nat
deriving DecidableEq, Repr

/-- The dump walker. `desc` is keyed descriptor × 4 + word. -/
structure Dump where
  desc : SMap W32
  run : Option DumpRun
  pend : Option DumpTrigger
  unread : Bool
  complete : Bool
  lastPath : Bool
  dmaErr : Bool
deriving DecidableEq, Repr

def Dump.reset : Dump := ⟨[], none, none, false, false, false, false⟩

end Sys2Proof.Machine
end

