-- ==== Sys2Proof/Machine/TraceTypes.lean ====
section
/-!
DEFINITION. Trace sources, the trace buffer and the ring in system memory as data (spec/04_trace.md).
-/

namespace Sys2Proof.Machine

/-- One trace item (R86, R419). `kind`: 0 conditional branch, 1 indirect branch, 2 exception, 3 data access. -/
structure TrcItem where
  kind : BitVec 2
  attr : BitVec 24
  iaddr : W64
  aux : W64
  val : W64
deriving DecidableEq, Repr

/-- What the trace port presents beside the value (R413, R419). -/
structure TrcHead where
  kind : BitVec 2
  attr : BitVec 24
  iaddr : W64
  aux : W64
deriving DecidableEq, Repr

/-- The item that the trace port presents with a value. -/
def TrcHead.item (h : TrcHead) (val : W64) : TrcItem := ⟨h.kind, h.attr, h.iaddr, h.aux, val⟩

/-- What a source owes its next SYNC (R94): bit r of `why` is set while reason r is due, and `win` is the window of reason 1. -/
structure SyncDue where
  why : BitVec 6
  win : Nat
deriving DecidableEq, Repr

def SyncDue.none : SyncDue := ⟨0, 0xFF⟩

/-- One more reason falls due. -/
def SyncDue.owe (d : SyncDue) (reason : Nat) (win : Nat := 0xFF) : SyncDue :=
  ⟨d.why ||| BitVec.ofNat 6 (2 ^ reason), if reason = 1 then win else d.win⟩

/-- Both debts together; the window is the later one's. -/
def SyncDue.join (d e : SyncDue) : SyncDue := ⟨d.why ||| e.why, if e.why.getLsbD 1 then e.win else d.win⟩

/-- A fall of the traced state before any item: the rise that was owed a SYNC leaves nothing to write (R94). -/
def SyncDue.fall (d : SyncDue) : SyncDue := ⟨d.why &&& 0b111100#6, 0xFF⟩

/-- What a window owed is owed no more: it has closed, or G has fallen, before any item. -/
def SyncDue.noWindow (d : SyncDue) : SyncDue := ⟨d.why &&& 0b111101#6, 0xFF⟩

/-- The highest reason due (R94). -/
def SyncDue.reason (d : SyncDue) : Nat := ((List.range 6).filter (fun r => d.why.getLsbD r)).getLast?.getD 2

/-- What waits in a source's FIFO (R95): an item that is traced, with the filter that admitted it, the SYNC it is owed and the stamp
of the cycle it arrived in; a STOP; a RESUME. -/
inductive TrcEnt where
  | item (i : TrcItem) (filter : Nat) (due : SyncDue) (valid : Nat) (ns : W64) (step : W64)
  | stop (word : W64)
  | resume (words : List W64)
deriving DecidableEq, Repr

/-- What a trace source is in loss for (R99). -/
structure Loss where
  reason : Nat
  count : Nat
  beganNs : W64
deriving DecidableEq, Repr

/-- One trace source (R87 to R103). At the arrival of items: `gate` is G, `traced` the traced state, `due` the SYNC that the next
traced item is owed, `fifo` the input FIFO, oldest first. At the merge: `run` is the open branch run, `owed` the SYNC owed since
items were lost, `synced` that a SYNC has been written since the last STOP, `sinceSync` the bytes of its packets since its last
SYNC; `resetLoss` the time of a warm or unit reset that its next packet must report (R103). -/
structure TrcSrc where
  gate : Bool
  traced : Bool
  due : SyncDue
  fifo : List TrcEnt
  run : Option (Bool × Nat)
  loss : Option Loss
  owed : SyncDue
  synced : Bool
  sinceSync : Nat
  lowPower : Bool
  resetLoss : Option W64
  stepPkts : Nat
  stepLost : Nat
deriving DecidableEq, Repr

def TrcSrc.reset : TrcSrc := ⟨false, false, SyncDue.none, [], none, none, SyncDue.none, false, 0, false, none, 0, 0⟩

/-- Trace of a leaf. `buf` is the buffer, oldest word first, each with its source (8 for IDLE padding); `last` the source that the
merge served last, and `mergedAt` the first cycle whose merge has not been done (R95). -/
structure Trace where
  srcs : SMap TrcSrc
  windows : Byte
  buf : List (Nat × W64)
  last : Nat
  mergedAt : W64
  flushLeft : Nat
  noteArmed : Bool
  dmaErr : Bool
deriving DecidableEq, Repr

def Trace.reset : Trace := ⟨[], 0, [], 7, 0, 0, true, false⟩

end Sys2Proof.Machine
end

