-- ==== Sys2Proof/Machine/LeafTypes.lean ====
section
/-!
DEFINITION. The leaf build as data: what both builds hold, and the leaf's own sub-blocks.
-/

namespace Sys2Proof.Machine

/-- The handshake of one containment kind (R293, R422). -/
structure Shake where
  req : Bool
  ack : Bool
deriving DecidableEq, Repr

/-- What an applied containment request waits for before the leaf acknowledges it upward (R293). -/
inductive CtnWait where
  | rise (kind : Nat)                    -- the host's acknowledge of a kind
  | fall (level : Nat) (owes : Bool)     -- the throttle acknowledge to fall, for a change of level; `owes`: not acknowledged upward yet
  | bothLow                              -- both acknowledges low, for a release
deriving DecidableEq, Repr

/-- An applied request that is not finished. -/
structure CtnTask where
  req : CtnMsg
  wait : CtnWait
  since : Nat
deriving DecidableEq, Repr

/-- Containment outputs and what is in progress (R293). -/
structure Ctn where
  throttle : Shake
  quiesce : Shake
  expel : Shake
  level : Nat
  tasks : List CtnTask
deriving DecidableEq, Repr

def Ctn.reset : Ctn := ⟨⟨false, false⟩, ⟨false, false⟩, ⟨false, false⟩, 0, []⟩

/-- A write of a record that the DMA port has not acknowledged (R304): of its body, or of its word 0; `idx` is the record's index in
the host ring. -/
structure HevWrite where
  word0 : Bool
  idx : W32
  bytes : List Byte
deriving DecidableEq, Repr

/-- The leaf's host event queue (R303 to R308). `flight` holds the outstanding writes, oldest first, one for each record; `unsig` records are unsignalled, the oldest since `unsigAt`; `lastAck` is the seq of
the last record whose word-0 write was acknowledged. -/
structure Hev where
  flight : List HevWrite
  unsig : Nat
  unsigAt : Nat
  dmaErr : Bool
  pend : Bool
  lastAck : Option W32
deriving DecidableEq, Repr

def Hev.reset : Hev := ⟨[], 0, 0, false, false, none⟩

/-- The leaf's compression engine (R334). `aborted` holds the output bytes at which an abort stops the job; `oos` that the engine is
out of service. -/

structure CmpLeaf where
  running : Bool
  aborted : Option Nat
  oos : Bool
  doneBit : Bool
  refused : Bool
  status : Nat
  reason : Nat
deriving DecidableEq, Repr

def CmpLeaf.reset : CmpLeaf := ⟨false, none, false, false, false, 0, 0⟩


/-- The leaf build. -/
structure Leaf where
  u : Blk
  ctr : Ctr
  sch : Schedule
  trc : Trace
  kst : Kiln
  dmp : Dump
  sng : Guard
  fpr : Fpr
  ctn : Ctn
  hev : Hev
  cmp : CmpLeaf
deriving DecidableEq, Repr

def Leaf.reset : Leaf :=
  { u := Blk.reset .leaf, ctr := Ctr.reset, sch := Schedule.reset, trc := Trace.reset, kst := Kiln.reset, dmp := Dump.reset,
    sng := Guard.reset, fpr := Fpr.reset, ctn := Ctn.reset, hev := Hev.reset, cmp := CmpLeaf.reset }

/-- Change what both builds hold. -/
def Leaf.blk (l : Leaf) (f : Blk → Blk) : Leaf := { l with u := f l.u }

end Sys2Proof.Machine
end

