-- ==== Sys2Proof/Machine/Counters.lean ====
section
/-!
DEFINITION. Event counters, the counter ring and its stops, bandwidth windows, captures, selection lists and the brine sampler
(spec/03_counters_sampler.md, R58 to R85; the stops of R418).
-/

namespace Sys2Proof.Machine

/-! ### The counter store (R58, R59, R384) -/

def Leaf.counter (l : Leaf) (n : Nat) : Counter := smGet l.ctr.store n Counter.zero
def Leaf.setCounter (l : Leaf) (n : Nat) (c : Counter) : Leaf :=
  { l with ctr := { l.ctr with store := smSet l.ctr.store n c Counter.zero } }
def Leaf.isGauge (l : Leaf) (n : Nat) : Bool := smGet l.ctr.gauges n false

/-- The largest counter value. -/
def counterMax : Nat := 0x00FFFFFFFFFFFFFF

/-- "counter ring fault", "counter store parity" and "counter ring parity" (R394). -/
def rkRingFault : RecKind := rk 0x03 0x0001 3 .always
def rkStoreParity : RecKind := rk 0x15 0x0003 3 .always
def rkRingParity : RecKind := rk 0x04 0x0003 2 .bySeverity

/-- Counter `n` as a read finds it (R384, R388): bad parity reads as saturated, is counted and reported once, and the store then
holds what was read. -/
def Leaf.readCounter (l : Leaf) (n : Nat) : Leaf × Counter :=
  if smGet l.ctr.parity n false then
    let c : Counter := ⟨BitVec.ofNat 56 counterMax, true⟩
    let l := l.setCounter n c
    let l := { l with ctr := { l.ctr with parity := smSet l.ctr.parity n false false } }
    (l.blk (fun u => ((u.bump R.ERR_CSPAR).cause 0x15 0 3).report rkStoreParity .dflt (pay [fd 0x24 4 n])), c)
  else (l, l.counter n)

/-- A counter and its overflow bit clear (R68). Writing the word makes its parity good. -/
def Leaf.clearCounter (l : Leaf) (n : Nat) : Leaf :=
  let l := l.setCounter n Counter.zero
  { l with ctr := { l.ctr with parity := smSet l.ctr.parity n false false } }

/-- An increment reaches a sum counter (R59). `sat` is the slot's saturation mark (R62). -/
def Leaf.counterAdd (l : Leaf) (n v : Nat) (sat : Bool) : Leaf :=
  let f := l.readCounter n
  let c := f.2
  let l := f.1
  if !sat && decide (c.val.toNat + v ≤ counterMax) then l.setCounter n { c with val := BitVec.ofNat 56 (c.val.toNat + v) }
  else
    let l := l.setCounter n ⟨BitVec.ofNat 56 counterMax, true⟩
    if c.ovf then l
    else l.blk (fun u => ((u.reportOpen 0x04 1 .dflt [n]).setRb R.CNT_STS 2 true).cause 0x04 0 0)

/-! ### Ring slots (R61) -/

/-- Parity of the ones in a word. -/
def parityOf (x : Nat) : Nat := popBelow x 64 % 2

/-- A slot's parity is good (R61): even over [63:44] and [31:0]. -/
def slotParityOk (w : W64) : Bool := decide (parityOf (w.toNat - (w.toNat / 2 ^ 32 % 2 ^ 12) * 2 ^ 32) = 0)

/-- A slot with its parity bit set so that its parity is good. -/
def mkSlot (kind source value : Nat) (sat : Bool) : W64 :=
  let w : W64 := BitVec.ofNat 64 (2 ^ 63 + kind * 2 ^ 60 + source * 2 ^ 46 + sat.toNat * 2 ^ 45 + value)
  if slotParityOk w then w else w ||| 0x0000100000000000#64

/-- A held slot (R61, R63): valid clear, held set. -/
def heldSlot : W64 := 0x4000100000000000#64

/-! ### The latency measurement (R64) -/

/-- The latency L in force. -/
def Leaf.ringLat (l : Leaf) : Nat := l.u.rf R.SMP_RINGLAT 0 16

/-- Launch a latency marker (R64, R65): a new calibration number, and a marker slot on the ring. DESIGN CHOICE (log entry 92): `cal_done` goes on
showing that a measurement has ended while a later one runs. -/
def Leaf.launchMarker (l : Leaf) : Leaf :=
  let n := l.ctr.calib + 1
  let l := { l with ctr := { l.ctr with calib := n, meas := some ⟨n, l.u.clk.tb1⟩ } }
  l.blk (fun u => u.emit (.slotOut 1 (mkSlot 2 0 n.toNat false)))

/-- A write of `SMP.CTL.cal` starts a measurement. -/
def Leaf.calibrate (l : Leaf) : Leaf := l.launchMarker

/-- The current marker returns (R64): L is the cycles since its launch, and a ring fault clears. An injected suppression
(R388) takes the marker away instead. DESIGN CHOICE (log entry 92): a latency of exactly 65,536 leaves 0 in the 16 bits of `SMP.RINGLAT`. -/
def Leaf.markerReturn (l : Leaf) : Leaf :=
  match l.ctr.meas with
  | none => l
  | some m =>
    if l.u.armed 0x03 0 3 then l.blk (fun u => u.fire 0x03 0 3 false)
    else
      let l := { l with ctr := { l.ctr with meas := none, fault := false, calDone := true } }
      l.blk (fun u => u.setN R.SMP_RINGLAT ((u.clk.tb1 - m.launch).toNat % 2 ^ 16))

/-- The cycles after which a marker that has not returned makes a ring fault (R64). -/
def markerLimit : Nat := 65536

/-- RING_FAULT: time moves to the end of the wait; the fault is declared, shown and recorded (R64). -/
def Leaf.ringFault (l : Leaf) : Leaf :=
  match l.ctr.meas with
  | none => l
  | some m =>
    let l := l.blk (fun u => u.toTb1 (m.launch + BitVec.ofNat 64 markerLimit))
    let l := { l with ctr := { l.ctr with meas := none, fault := true } }
    let l := { l with ctr := { l.ctr with held := l.ctr.held.map (fun (h : HeldItem) =>
      match h.op with
      | .sample r => { h with op := .sample { r with fault := true } }
      | _ => h) } }
    l.blk (fun u => (u.cause 0x03 0 3).report rkRingFault .dflt (pay [fd 0x24 4 markerLimit]))

/-! ### Slots arriving at ring-in (R61, R62, R65, R69) -/

/-- The windows that tap a source count the bytes of its increment (R69). A count that saturates sets the page's cause. -/
def Leaf.tapWindows (l : Leaf) (source v : Nat) : Leaf :=
  l.ctr.windows.foldl (fun (a : Leaf) e =>
    if bit e.2.cfg 31 && fld e.2.cfg 0 14 = source then
      let s := e.2.count.toNat + v
      let a := { a with ctr := { a.ctr with windows := smPut a.ctr.windows e.1 { e.2 with count := BitVec.ofNat 48 (min s (2 ^ 48 - 1)) } } }
      if 2 ^ 48 ≤ s then a.blk (fun u => u.cause 0x05 0 0) else a
    else a) l

/-- A slot is discarded for its kind or source (R65). -/
def Leaf.slotMismatch (l : Leaf) : Leaf := l.blk (fun u => (u.bump R.CNT_MISMATCH).cause 0x04 0 3)

/-- A value slot is applied (R58, R59, R62, R65, R66). While a ring fault stands no counter changes (R64), and in a cycle whose store access a read takes
(`free` false) none does (R63). -/
def Leaf.applySlot (l : Leaf) (kind source v : Nat) (sat free : Bool) : Leaf :=
  let e := smGet l.ctr.srcMap source 0
  let n := fld e 0 13
  if !bit e 15 || l.isGauge n != decide (kind = 1) then l.slotMismatch
  else if l.ctr.fault || !free then l
  else if l.isGauge n then
    let l := l.setCounter n ⟨BitVec.ofNat 56 v, (l.counter n).ovf⟩
    { l with ctr := { l.ctr with parity := smSet l.ctr.parity n false false } }
  else l.counterAdd n v sat

/-! ### Ring stops (R62, R418) -/

def Leaf.stop (l : Leaf) (b : Nat) : Stop := smGet l.ctr.stops b Stop.reset
def Leaf.setStop (l : Leaf) (b : Nat) (s : Stop) : Leaf := { l with ctr := { l.ctr with stops := smSet l.ctr.stops b s Stop.reset } }

/-- STOP_INCREMENT: source `j` of the stop presents an increment, and a gauge value where `gauge` is given (R418). -/
def Leaf.stopIncrement (l : Leaf) (base j inc : Nat) (gauge : Option W32) : Leaf :=
  let s := l.stop base
  if s.byp then l
  else
    let a := smGet s.acc j SrcAcc.zero
    let t := a.acc.toNat + inc
    let a := { a with acc := BitVec.ofNat 32 (min t 0xFFFFFFFF), sat := a.sat || decide (0xFFFFFFFF < t),
                      gauge := match gauge with | some g => some g | none => a.gauge }
    l.setStop base { s with acc := smSet s.acc j a SrcAcc.zero }

/-- STOP_BYPASS: `stop_byp` takes a level. Raised, the stop drops its accumulators; at the end of a bypass the order starts at
source 0 (R62, R418). -/
def Leaf.stopBypass (l : Leaf) (base : Nat) (byp : Bool) : Leaf :=
  let s := l.stop base
  if byp then l.setStop base { s with byp := true, acc := [] }
  else if s.byp then l.setStop base Stop.reset
  else l

/-- The source whose turn it is at a stop: the first pending one from the round-robin place on. -/
def Stop.turn (s : Stop) : Option Nat :=
  let pending := s.acc.map Prod.fst
  match pending.find? (fun j => s.next ≤ j) with
  | some j => some j
  | none => pending.head?

/-! ### Held slots (R63) -/

/-- The cycle in which the next requested held slot is due: L cycles after its launch, behind what is queued. -/
def Leaf.heldDue (l : Leaf) : W64 :=
  let d := l.u.clk.tb1 + BitVec.ofNat 64 l.ringLat
  match l.ctr.held.getLast? with
  | none => d
  | some h =>
    let e := h.due + BitVec.ofNat 64 h.left
    if reached64 d e then d else e

/-- Queue a store operation of `n` held slots, which the leaf launches (R63). -/
def Leaf.holdSlots (l : Leaf) (op : HeldOp) (n : Nat) : Leaf :=
  ({ l with ctr := { l.ctr with held := l.ctr.held ++ [HeldItem.mk op l.heldDue n] } }).blk (fun u => u.emit (.slotOut n heldSlot))

/-- A sample read, a clear or a clear-all holds the store (R74). -/
def Leaf.storeBusy (l : Leaf) : Bool :=
  l.ctr.held.any (fun (h : HeldItem) => match h.op with | .capture _ => false | _ => true)

/-! ### Captures and clears (R68) -/

/-- COUNTER_CAPTURE and the capture of `CAP_H` with auto: `IDX` takes the counter and a capture is requested. -/
def Leaf.capture (l : Leaf) (auto : Bool) (n : Nat) : Leaf :=
  (l.blk (fun u => (u.setN R.CNT_IDX (auto.toNat * 2 ^ 31 + n)).setRb R.CNT_STS 0 false)).holdSlots (.capture n) 1

/-- COUNTER_CLEAR: a write of `CNT.IDX` with clr set. -/
def Leaf.clearReq (l : Leaf) (auto : Bool) (n : Nat) : Leaf :=
  (l.blk (fun u => (u.setN R.CNT_IDX (auto.toNat * 2 ^ 31 + 2 ^ 30 + n)).setRb R.CNT_STS 0 false)).holdSlots (.clear n) 1

/-- CLRALL: every counter is to clear, in 8,192 held slots; a clear that is requested clears rdy (R68). -/
def Leaf.clrAll (l : Leaf) : Leaf := (l.blk (fun u => u.setRb R.CNT_STS 0 false)).holdSlots .clearAll 8192

/-- A capture is performed: value, overflow bit and TB1 cycle of the read (R68). -/
def Leaf.doCapture (l : Leaf) (n : Nat) : Leaf :=
  let r := l.readCounter n
  let c := r.2
  r.1.blk (fun u =>
    let u := (u.setN R.CNT_VAL_L c.val.toNat).setN R.CNT_VAL_H (c.ovf.toNat * 2 ^ 31 + c.val.toNat / 2 ^ 32)
    let u := (u.setN R.CNT_CAP_L u.clk.tb1.toNat).setN R.CNT_CAP_H (u.clk.tb1.toNat / 2 ^ 32)
    (u.setRb R.CNT_STS 1 c.ovf).setRb R.CNT_STS 0 true)

/-- CAP_H_AUTO_READ: with `IDX.auto` set, a read of `CAP_H` requests a capture of the next counter. -/
def Leaf.capHRead (l : Leaf) : Leaf :=
  if l.u.rb R.CNT_IDX 31 then l.capture true ((l.u.rf R.CNT_IDX 0 13 + 1) % 8192) else l

/-! ### Selection lists (R70) -/

def Leaf.selList (l : Leaf) (s : Nat) : SelList := smGet l.ctr.sel s SelList.reset
def Leaf.setSel (l : Leaf) (s : Nat) (x : SelList) : Leaf := { l with ctr := { l.ctr with sel := smSet l.ctr.sel s x SelList.reset } }

def SelList.entries (x : SelList) (bank : Bool) : SMap W32 := if bank then x.bank1 else x.bank0
def SelList.alen (x : SelList) : Nat := if x.active then x.len1 else x.len0
def SelList.elen (x : SelList) : Nat := if x.active then x.len0 else x.len1

/-- The word an entry of the editable bank takes: kind and index, all other bits zero. -/
def selWord (w : W32) : W32 := w &&& 0xF0001FFF#32

/-- A write of `SEL.ENT`: the addressed entry of the editable bank; ignored while the slot's swap is pending. -/
def Leaf.selEnt (l : Leaf) (w : W32) : Leaf :=
  let s := l.u.rf R.SEL_IDX 14 1
  let e := l.u.rf R.SEL_IDX 0 13
  let x := l.selList s
  if x.pend then l
  else if x.active then l.setSel s { x with bank0 := smSet x.bank0 e (selWord w) 0 }
  else l.setSel s { x with bank1 := smSet x.bank1 e (selWord w) 0 }

/-- A write of `SEL.LEN_A` or `LEN_B`: the editable bank's length, at most 8,192; ignored while the slot's swap is pending. -/
def Leaf.selLen (l : Leaf) (s n : Nat) : Leaf :=
  let x := l.selList s
  if x.pend || decide (8192 < n) then l
  else if x.active then l.setSel s { x with len0 := n } else l.setSel s { x with len1 := n }

/-- An entry is wrong (R73): a reserved kind, or an index that is out of range. -/
def entryError (e : W32) : Bool :=
  decide (5 < fld e 28 4) || ((fld e 28 4 = 4 || fld e 28 4 = 5) && decide (63 < fld e 0 13))

/-- The editable bank of a slot's list becomes active (R70): the generation counts up, no entry has a previous read (R73), and
entry errors set their cause once, in the cycle of the swap (DESIGN CHOICE, log entry 93). -/
def Leaf.selSwapNow (l : Leaf) (s : Nat) : Leaf :=
  let x := l.selList s
  let x := { x with active := !x.active, pend := false, gen := x.gen + 1 }
  let bad := (x.entries x.active).any (fun e => decide (e.1 < x.alen) && entryError e.2)
  let l := l.setSel s x
  let l := { l with ctr := { l.ctr with baseline := l.ctr.baseline.filter (fun e => decide (e.1 / 8192 ≠ s)) } }
  l.blk (fun u =>
    let u := u.bumpSeq 0x19 0
    if bad then u.cause 0x03 0 4 else u)

/-- SEL_SWAP: a write of 1 to bit `s` of `SEL.SWAP`; a slot that is not attached swaps at once. -/
def Leaf.selSwap (l : Leaf) (s : Nat) : Leaf :=
  if (l.selList s).pend then l
  else if (l.u.step s).en then l.setSel s { l.selList s with pend := true }
  else l.selSwapNow s

/-- A write of `SEL.SWAP`: swaps that it makes at once happen in one cycle, which `PGSEQ` counts once (R70, R445). -/
def Leaf.selSwapWrite (l : Leaf) (w : W32) : Leaf :=
  let key := inst (0x19000 + H.PGSEQ) 0
  let v := if bit w 0 then l.selSwap 0 else l
  let v := if bit w 1 then v.selSwap 1 else v
  if v.u.reg key = l.u.reg key + 2 then v.blk (fun u => u.setReg key (l.u.reg key + 1)) else v

/-! ### Features (R71 to R73) -/

/-- A value clamped so that it is never the missing pattern (R71). -/
def clampInt (v : Nat) : Nat := min v 0x7FC00000

/-- Feature kind 2 (R71): bits [31:0] of a gauge counter, with the reserved patterns replaced. -/
def gaugeInt (v : Nat) : Nat := if 0x7FC00001 ≤ v ∧ v ≤ 0x7FFFFFFF then 0x7FC00000 else v

/-- A window unit's last full window, if it has one (R73). -/
def Leaf.window? (l : Leaf) (n : Nat) : Option BwUnit :=
  match smGet? l.ctr.windows n with
  | some w => if bit w.cfg 31 && w.valid then some w else none
  | none => none

/-- The window exponent in force (R69). -/
def windowExp (cfg : W32) : Nat := min (max (fld cfg 24 5) 10) 30

/-- The word a delta entry gives for a counter as it is read, against its previous read (R71, R73). -/
def deltaWord (kind : Nat) (c : Counter) (prev : Option (BitVec 56)) : W32 :=
  match prev with
  | none => missingWord
  | some p =>
    if c.ovf || decide (c.val.toNat < p.toNat) then missingWord
    else if kind = 0 then BitVec.ofNat 32 (clampInt (c.val.toNat - p.toNat))
    else natToF32 (c.val.toNat - p.toNat)

/-- Read the feature of an entry (R71): the word, and the counter's value where it is a delta entry. The slot period of kind 4 is the one in force in the
cycle of this read (DESIGN CHOICE, log entry 93). -/
def Leaf.feature (l : Leaf) (slot entry : Nat) (e : W32) : Leaf × W32 × Option Nat :=
  let kind := fld e 28 4
  let n := fld e 0 13
  if entryError e then (l, missingWord, none)
  else if kind ≤ 1 then
    let r := l.readCounter n
    (r.1, deltaWord kind r.2 (smGet? l.ctr.baseline (slot * 8192 + entry)), some r.2.val.toNat)
  else if kind ≤ 3 then
    let r := l.readCounter n
    let v := r.2.val.toNat % 2 ^ 32
    (r.1, BitVec.ofNat 32 (if kind = 2 then gaugeInt v else v), none)
  else
    match l.window? n with
    | none => (l, missingWord, none)
    | some w =>
      if kind = 5 then (l, BitVec.ofNat 32 (clampInt w.last.toNat), none)
      else (l, ratToF32 (w.last.toNat * 2 ^ 32) (2 ^ windowExp w.cfg * l.u.clk.inc.toNat), none)

/-! ### Sampling (R74 to R84) -/

def Leaf.sampler (l : Leaf) (s : Nat) : SlotSampler := smGet l.ctr.slots s SlotSampler.reset
def Leaf.setSampler (l : Leaf) (s : Nat) (x : SlotSampler) : Leaf :=
  { l with ctr := { l.ctr with slots := smSet l.ctr.slots s x SlotSampler.reset } }

/-- The level in effect (R83). -/
def Leaf.level (l : Leaf) (s : Nat) : Nat := max (l.sampler s).parentLevel (l.sampler s).floorNow

/-- One field of `SMP.CNT_A` or `CNT_B` counts up to 0xFF (R74). -/
def Leaf.smpCount (l : Leaf) (s lo : Nat) : Leaf :=
  l.blk (fun u => u.modReg (R.SMP_CNT + 4 * s) (fun v => setFld v lo 8 (satAdd (fld v lo 8) 1 255)))

/-- A sample is refused as busy (`lo` 24) or as rate (`lo` 16). -/
def Leaf.smpRefuse (l : Leaf) (s lo : Nat) (cause : Option Nat) : Leaf :=
  let l := l.smpCount s lo
  let l := l.setSampler s { l.sampler s with nref := satAdd (l.sampler s).nref 1 65535 }
  match cause with
  | some c => l.blk (fun u => u.cause 0x03 0 c)
  | none => l

/-- Two points of two sample reads must lie 50,000 ns apart (R74). -/
def Leaf.tooFast (l : Leaf) : Bool :=
  match l.ctr.prevRead with
  | none => false
  | some p => decide (l.u.clk.ival + l.ringLat * l.u.clk.inc.toNat < p + nsIv 50000)

/-- The enabled sample entries of a slot in a schedule: (entry, point), a point's lowest entry only (R81). -/
def samplePoints (acts : SMap W32) (slot : Nat) : List Nat :=
  let es := (List.range 64).filterMap (fun n =>
    let a := smGet acts n 0
    if bit a 31 && fld a 30 1 = slot && fld a 27 3 = 0 then some (fld a 16 4) else none)
  (List.range 16).filter (fun p => es.contains p)

/-- A sample is kept at its level (R81). -/
def sampleKept (acts : SMap W32) (slot point : Nat) (idx : W32) (level : Nat) : Bool :=
  let pts := samplePoints acts slot
  let o := (pts.filter (fun p => decide (p < point))).length
  decide (((idx.toNat * pts.length + o) % 2 ^ 32) % 2 ^ level = 0)

/-- The schedule bank that serves a slot (R44, R47). -/
def Schedule.acts (s : Schedule) (slot : Nat) : SMap W32 :=
  if (if slot = 0 then s.activeA else s.activeB) then s.act1 else s.act0
def Schedule.angs (s : Schedule) (slot : Nat) : SMap W32 :=
  if (if slot = 0 then s.activeA else s.activeB) then s.ang1 else s.ang0

/-- A sample entry fires (R74, steps 1 to 4). Its step's level and its schedule decide whether it is kept (R81, R83; DEDUCED, log entry 93). -/
def Leaf.fireSample (l : Leaf) (s point entry : Nat) : Leaf :=
  let c := l.u.step s
  let x := l.selList s
  if !c.en || x.alen = 0 then l
  else if l.storeBusy || l.u.pw.parked then l.smpRefuse s 24 (some 0)
  else if l.tooFast then l.smpRefuse s 16 (some 1)
  else
    let r : SampleRead :=
      { slot := s, bank := x.active, gen := x.gen, len := x.alen, point := point, entry := entry, idx := c.idx,
        angle := l.u.angle s, epoch := c.epoch, level := l.level s, keep := sampleKept (l.sch.acts s) s point c.idx (l.level s), long := decide (l.u.angle s = 0xFFFFFFFF#32), startNs := 0, period := 0,
        startIval := 0, base := (l.sampler s).prevStart, values := [], counters := [], missing := 0, fault := l.ctr.fault,
        suspect := false }
    l.holdSlots (.sample r) x.alen

/-- A feature is missing (R73). A kind-3 gauge passes its bits unchanged, the missing value's pattern among them (R71, R72). -/
def isMissing (e : W32) (word : W32) : Bool := word = missingWord && (entryError e || fld e 28 4 ≠ 3)

/-- One feature of a sample read is read, in the present cycle (R74, R75). -/
def Leaf.sampleStep (l : Leaf) (r : SampleRead) : Leaf × SampleRead :=
  let i := r.values.length
  let r := if i = 0 then
      { r with startNs := l.u.clk.ns, startIval := l.u.clk.ival, fault := l.ctr.fault,
               period := BitVec.ofNat 32 (l.u.clk.inc.toNat / 2 ^ 8) }
    else r
  let e := smGet ((l.selList r.slot).entries r.bank) i 0
  let f := l.feature r.slot i e
  let l := f.1
  let l := if i = 0 then { l with ctr := { l.ctr with prevRead := some l.u.clk.ival } } else l
  (l, { r with values := f.2.1 :: r.values, counters := f.2.2 :: r.counters, missing := r.missing + (isMissing e f.2.1).toNat,
                 fault := r.fault || l.ctr.fault,
                 suspect := r.suspect || l.u.pw.warning.isSome })

/-- The header and features of a brine frame (R76, R77). Flag [2] is judged in the cycle in which the frame is built, when the last feature has been read
(DESIGN CHOICE, log entry 122). -/
def Leaf.brineFrame (l : Leaf) (r : SampleRead) (words : List W32) : List Byte :=
  let s := r.slot
  let x := l.sampler s
  let flags := r.level * 64 + r.long.toNat * 32 + r.suspect.toNat * 16 + l.u.clk.hold.toNat * 8 + (!l.u.clk.valid).toNat * 4 +
    r.fault.toNat * 2 + s
  let head := layout 64 [fd 0 1 1, fd 1 1 flags, fd 2 2 r.len, fd 4 4 (l.u.rn (R.SMP_JOB + 4 * s)),
    fd 8 4 (l.u.rn (R.SMP_SEQ + 4 * s)), fd 0xC 4 r.idx.toNat, fd 0x10 4 r.angle.toNat, fd 0x14 1 r.point,
    fd 0x15 1 r.epoch.toNat, fd 0x16 1 x.ndec, fd 0x17 1 x.nwith, fd 0x18 8 r.startNs.toNat, fd 0x20 4 r.period.toNat,
    fd 0x24 2 x.nref, fd 0x26 2 (if r.fault then words.length else r.missing), fd 0x28 8 r.base.toNat,
    fd 0x30 4 (l.u.rn R.SMP_LEAFNO), fd 0x34 4 r.gen.toNat]
  let body := words.flatMap (fun w => leBytes 4 w.toNat)
  overlay head 0x3C (leBytes 4 (crc32c (head ++ body)).toNat) ++ body

/-- A frame's segments (R79), `n` of them from index `i` on. -/
def segmentsOf (seq slot cnt : Nat) (frame : List Byte) : Nat → Nat → List (List Byte)
  | _, 0 => []
  | i, n + 1 =>
    let part := (frame.drop (i * 8176)).take 8176
    (layout 16 [fd 0 1 1, fd 1 1 (i * 16 + cnt), fd 2 2 part.length, fd 4 4 seq, fd 8 4 (i * 8176), fd 0xC 1 slot] ++ part)
      :: segmentsOf seq slot cnt frame (i + 1) n

/-- Segments of a frame of N bytes. -/
def segCount (n : Nat) : Nat := ceilDiv n 8176

/-- Room on the brine queue for all segments of a frame (R169). -/
def Leaf.brineRoom (l : Leaf) (segs : List (List Byte)) : Bool :=
  ((l.u.port 0).wait 2).isEmpty && l.u.room 0 2 (cellsOf (segs.map (fun b => mkMsg 1 0 b)))

/-- "brine withheld" is one record a step (R74): an open record of another step closes. -/
def Blk.withheldRecord (u : Blk) (s idx : Nat) : Blk :=
  let same := match u.rcd.ring.getLast? with
    | some n => decide (n.stepIdx = (u.stampOf (.slot s)).idx)
    | none => true
  let u := if same then u else { u with rcd := { u.rcd with isOpen := false } }
  u.reportOpen 0x03 2 (.slot s) [s, idx]

/-- A sample is withheld (R74 step 6, R169). -/
def Leaf.withhold (l : Leaf) (r : SampleRead) : Leaf :=
  let l := l.smpCount r.slot 8
  let l := l.setSampler r.slot { l.sampler r.slot with nwith := satAdd (l.sampler r.slot).nwith 1 255 }
  l.blk (fun u => (u.cause 0x03 0 2).withheldRecord r.slot r.idx.toNat)

/-- A sample is decimated (R74 step 5). -/
def Leaf.decimate (l : Leaf) (s : Nat) : Leaf :=
  (l.smpCount s 0).setSampler s { l.sampler s with ndec := satAdd (l.sampler s).ndec 1 255 }

/-- Build the frame and queue its segments (R74 step 6, R76 to R80). -/
def Leaf.buildFrame (l : Leaf) (r : SampleRead) (words : List W32) : Leaf :=
  let s := r.slot
  let frame := l.brineFrame r words
  let n := segCount frame.length
  let segs := segmentsOf (l.u.rn (R.SMP_SEQ + 4 * s)) s n frame 0 n
  if l.u.rn (R.SMP_CRED + 4 * s) < n || !l.brineRoom segs then l.withhold r
  else
    let l := l.setSampler s { l.sampler s with ndec := 0, nwith := 0, nref := 0 }
    l.blk (fun u =>
      let u := u.setN (R.SMP_CRED + 4 * s) (u.rn (R.SMP_CRED + 4 * s) - n)
      let u := (u.count (R.SMP_SEQ + 4 * s) 1).count (R.SMP_FRAMES + 4 * s) 1
      segs.foldl (fun (v : Blk) b => v.enqueue 0 2 (mkMsg 1 0 b)) u)

/-- The baselines take the values of a read together (R74), unless a swap has ended the list it read. -/
def setBaselines (slot : Nat) : Nat → List (Option Nat) → SMap (BitVec 56) → SMap (BitVec 56)
  | _, [], m => m
  | i, none :: t, m => setBaselines slot (i + 1) t m
  | i, some v :: t, m => setBaselines slot (i + 1) t (smPut m (slot * 8192 + i) (BitVec.ofNat 56 v))

/-- The last feature of a sample read has been read (R74 steps 4 to 6). -/
def Leaf.sampleDone (l : Leaf) (r : SampleRead) : Leaf :=
  let words := r.values.reverse
  let words := if r.fault then words.map (fun _ => missingWord) else words
  let l := if r.gen = (l.selList r.slot).gen then
      { l with ctr := { l.ctr with baseline := setBaselines r.slot 0 r.counters.reverse l.ctr.baseline } } else l
  let l := l.setSampler r.slot { l.sampler r.slot with prevStart := r.startNs }
  if r.keep then l.buildFrame r words else l.decimate r.slot

/-- The held slot of the next read is due in the present cycle, or was due before it. -/
def Leaf.readDue (l : Leaf) : Bool := match l.ctr.held with | [] => false | h :: _ => reached64 l.u.clk.tb1 h.due

/-- Perform the next read of the store operation at the head of the queue, in the cycle it is due. -/
def Leaf.serveOne (l : Leaf) : Leaf :=
  match l.ctr.held with
  | [] => l
  | h :: t =>
    let l := l.blk (fun u => u.toTb1 h.due)
    let left := h.left - 1
    let keep := fun (l : Leaf) (op : HeldOp) =>
      { l with ctr := { l.ctr with held := if left = 0 then t else ⟨op, h.due + 1, left⟩ :: t } }
    match h.op with
    | .sample r =>
      let s := l.sampleStep r
      let l := keep s.1 (.sample s.2)
      if left = 0 then l.sampleDone s.2 else l
    | .capture n => keep (l.doCapture n) h.op
    | .clear n => keep (l.clearCounter n) h.op
    | .clearAll => keep (l.clearCounter (8192 - h.left)) h.op

/-! ### A cycle of the ring (R62, R63, R65) -/

/-- A slot whose parity is good reaches the controller; `free` tells that the store is free to apply its value, since no read takes this cycle. -/
def Leaf.slotIn (l : Leaf) (w : W64) (free : Bool) : Leaf :=
  let kind := fld w 60 2
  let source := fld w 46 14
  let v := fld w 0 32
  if !bit w 63 then l
  else if kind = 2 then
    match l.ctr.meas with
    | some m => if m.calib = BitVec.ofNat 32 v then l.markerReturn else l.slotMismatch
    | none => l.slotMismatch
  else if kind = 3 then l.slotMismatch
  else
    let l := if kind = 0 then l.tapWindows source v else l
    l.applySlot kind source v (bit w 45) free

/-- RING_SLOT_ARRIVAL: a slot arrives at ring-in. In the cycle in which a held slot is due its read is performed, and a slot that does not carry held then
starts a measurement and is not applied (R63). Parity is checked over every slot (R61, R65); an injected fault inverts the parity of the next slot that
carries a value (R388), which on one that is bad already is detected once (R392). -/
def Leaf.slotArrival (l : Leaf) (w : W64) : Leaf :=
  let due := l.readDue
  let l := if due then l.serveOne else l
  let l := if due && !bit w 62 && l.ctr.meas.isNone then l.launchMarker else l
  let inj := bit w 63 && l.u.armed 0x04 0 1
  let l := if inj then l.blk (fun u => u.fire 0x04 0 1 false) else l
  if inj || !slotParityOk w then
    l.blk (fun u => ((u.bump R.CNT_RINGERR).cause 0x04 0 1).report rkRingParity .dflt (pay [fd 0x24 4 (fld w 46 14)]))
  else l.slotIn w (!due)

/-- A free slot passes the stops in base order: the first stop that has a pending source fills it (R62). A source with both a
count and a gauge value sends the count first. -/
def Leaf.freeSlot (l : Leaf) : Leaf :=
  match l.ctr.stops.find? (fun e => !e.2.byp && !e.2.acc.isEmpty) with
  | none => l
  | some (base, s) =>
    match s.turn with
    | none => l
    | some j =>
      let a := smGet s.acc j SrcAcc.zero
      let w := if a.acc ≠ 0 || a.sat then mkSlot 0 (base + j) a.acc.toNat a.sat else mkSlot 1 (base + j) ((a.gauge.getD 0).toNat) false
      let a' := if a.acc ≠ 0 || a.sat then { a with acc := 0, sat := false } else { a with gauge := none }
      (l.setStop base { s with acc := smSet s.acc j a' SrcAcc.zero, next := if j < 63 then j + 1 else 0 }).slotArrival w

/-- One cycle of the ring: the held slot that is due returns and its read is performed, and no stop fills it; in every other cycle a free slot passes
(R62, R63). -/
def Leaf.ringCycle (l : Leaf) : Leaf := if l.readDue then l.serveOne else l.freeSlot

/-- HELD_SLOT_READ: the read of the next held slot falls due; a slot that was lost starts a measurement (R63). -/
def Leaf.heldRead (l : Leaf) (lost : Bool) : Leaf :=
  match l.ctr.held with
  | [] => l
  | _ :: _ =>
    let l := l.serveOne
    if lost && l.ctr.meas.isNone then l.launchMarker else l

/-- Perform `n` reads. -/
def Leaf.serve (l : Leaf) : Nat → Leaf
  | 0 => l
  | n + 1 => l.serveOne.serve n

/-- Reads up to the end of the first queued operation that `p` holds for: 0 where there is none. -/
def readsUntil (p : HeldOp → Bool) : List HeldItem → Nat
  | [] => 0
  | h :: t => if p h.op then h.left else (match readsUntil p t with | 0 => 0 | n + 1 => h.left + (n + 1))

def HeldOp.isSample : HeldOp → Bool | .sample _ => true | _ => false
def HeldOp.isCapture : HeldOp → Bool | .capture _ => true | _ => false

/-- SAMPLE_READ_COMPLETE: the reads up to the last feature of the sample in progress are made. -/
def Leaf.sampleComplete (l : Leaf) : Leaf := l.serve (readsUntil HeldOp.isSample l.ctr.held)

/-- CAPTURE_COMPLETE: the reads up to the next requested capture are made. -/
def Leaf.captureComplete (l : Leaf) : Leaf := l.serve (readsUntil HeldOp.isCapture l.ctr.held)

/-- Reads up to the end of the last queued operation that `p` holds for: 0 where there is none. -/
def readsThrough (p : HeldOp → Bool) : List HeldItem → Nat
  | [] => 0
  | h :: t => match readsThrough p t with | 0 => if p h.op then h.left else 0 | n + 1 => h.left + (n + 1)

/-- Every requested capture completes: what a read of `VAL_L` waits for (R68). -/
def Leaf.capturesDone (l : Leaf) : Leaf := l.serve (readsThrough HeldOp.isCapture l.ctr.held)

/-- The sample reads in progress that `p` holds for are abandoned (R74). -/
def Leaf.abandon (l : Leaf) (p : Nat → Bool) : Leaf :=
  let gone := l.ctr.held.filterMap (fun (h : HeldItem) => match h.op with | .sample r => if p r.slot then some r.slot else none | _ => none)
  let l := { l with ctr := { l.ctr with held := l.ctr.held.filter (fun (h : HeldItem) =>
    match h.op with | .sample r => !p r.slot | _ => true) } }
  gone.foldl (fun (a : Leaf) s => a.smpRefuse s 24 none) l

/-! ### Credit (R82, R83) -/

/-- CREDIT_MESSAGE: the grant is added at once, the level waits for the slot's next mark. -/
def Leaf.credit (l : Leaf) (s level grant : Nat) : Leaf :=
  if (l.u.step s).en then
    let l := l.setSampler s { l.sampler s with pendLevel := some level }
    l.blk (fun u => u.setN (R.SMP_CRED + 4 * s) (satAdd (u.rn (R.SMP_CRED + 4 * s)) grant 65535))
  else l.blk (fun u => u.cause 0x03 0 5)

/-- The floors of `SMP.CTL`: dfloor_a [5:4], dfloor_b [7:6]. -/
def Leaf.floorOf (l : Leaf) (s : Nat) : Nat := l.u.rf R.SMP_CTL (4 + 2 * s) 2

/-- What the sampler takes at a slot's accepted mark (R70, R83): the pending level, the floor, and a pending swap of its list. -/
def Leaf.samplerMark (l : Leaf) (s : Nat) : Leaf :=
  let x := l.sampler s
  let l := l.setSampler s { x with parentLevel := x.pendLevel.getD x.parentLevel, pendLevel := none, floorNow := l.floorOf s }
  if (l.selList s).pend then l.selSwapNow s else l

/-- What the sampler does when a slot is attached (R73, R78, R82): numbering and credit start at 0, and no entry has a previous
read; what the next frame accounts for is kept (R74, R78). DESIGN CHOICE (log entry 93): the parent's level starts at 0, the floor is taken as it stands, and
the header's base starts at 0 again. -/
def Leaf.samplerAttach (l : Leaf) (s : Nat) : Leaf :=
  let l := { l with ctr := { l.ctr with baseline := l.ctr.baseline.filter (fun e => decide (e.1 / 8192 ≠ s)) } }
  let x := l.sampler s
  let l := l.setSampler s { SlotSampler.reset with floorNow := l.floorOf s, ndec := x.ndec, nwith := x.nwith, nref := x.nref }
  let l := l.blk (fun u => (u.setN (R.SMP_CRED + 4 * s) 0).setN (R.SMP_SEQ + 4 * s) 0)
  if (l.selList s).pend then l.selSwapNow s else l

/-! ### Bandwidth windows (R69) -/

/-- A write of `BWW.CFG[n]`: the unit starts over with a partial window. -/
def Leaf.windowCfg (l : Leaf) (n : Nat) (w : W32) : Leaf :=
  let x := { smGet l.ctr.windows n BwUnit.reset with cfg := w &&& 0x9F003FFF#32, count := 0, valid := false, first := true }
  { l with ctr := { l.ctr with windows := smSet l.ctr.windows n x BwUnit.reset } }

/-- Cycles from the present one to the next edge of a unit's windows. -/
def Leaf.toEdge (l : Leaf) (w : BwUnit) : Nat := 2 ^ windowExp w.cfg - l.u.clk.tb1.toNat % 2 ^ windowExp w.cfg

/-- A unit ends its window (R69). -/
def BwUnit.edge (w : BwUnit) : BwUnit :=
  if w.first then { w with count := 0, first := false }
  else { w with last := w.count, valid := true, wseq := w.wseq + 1, count := 0 }

/-- WINDOW_EDGE: time moves to the next edge of unit `n`, and every unit with an edge there publishes its count. -/
def Leaf.windowEdge (l : Leaf) (n : Nat) : Leaf :=
  match smGet? l.ctr.windows n with
  | none => l
  | some w =>
    if !bit w.cfg 31 then l
    else
      let l := l.blk (fun u => u.adv (l.toEdge w))
      { l with ctr := { l.ctr with windows := l.ctr.windows.map (fun e =>
        if bit e.2.cfg 31 && decide (l.u.clk.tb1.toNat % 2 ^ windowExp e.2.cfg = 0) then (e.1, e.2.edge) else e) } }

/-! ### Privilege (R67) -/

/-- UNPRIVILEGED_COUNTER_ACCESS: the access reads zero or is ignored, is counted and recorded. -/
def Leaf.unprivileged (l : Leaf) : Leaf :=
  l.blk (fun u => ((u.bump R.CNT_UNPRIV).cause 0x04 0 2).reportOpen 0x04 2 .dflt [])

/-! ### Tables reached through MAPIDX (R66) -/

/-- A read of `CNT.MAPVAL`. -/
def Leaf.mapVal (l : Leaf) : W32 :=
  let e := l.u.rf R.CNT_MAPIDX 0 14
  if l.u.rb R.CNT_MAPIDX 14 then (if e < 8192 then BitVec.ofNat 32 (smGet l.ctr.gauges e false).toNat else 0)
  else (smGet l.ctr.srcMap e 0).setWidth 32

/-- A write of `CNT.MAPVAL`. -/
def Leaf.mapWrite (l : Leaf) (w : W32) : Leaf :=
  let e := l.u.rf R.CNT_MAPIDX 0 14
  if l.u.rb R.CNT_MAPIDX 14 then
    if e < 8192 then { l with ctr := { l.ctr with gauges := smSet l.ctr.gauges e (bit w 0) false } } else l
  else { l with ctr := { l.ctr with srcMap := smSet l.ctr.srcMap e ((w &&& 0x9FFF#32).setWidth 16) 0 } }

end Sys2Proof.Machine
end

