-- ==== Sys2Proof/Machine/Trace.lean ====
section
/-!
DEFINITION. Trace: what is traced, packets, the buffer, the ring in system memory, loss and summaries (spec/04_trace.md, R86 to
R103; items as R419 gives them).
-/

namespace Sys2Proof.Machine

/-! ### Sources and registers -/

def Leaf.src (l : Leaf) (s : Nat) : TrcSrc := smGet l.trc.srcs s TrcSrc.reset
def Leaf.setSrc (l : Leaf) (s : Nat) (x : TrcSrc) : Leaf := { l with trc := { l.trc with srcs := smSet l.trc.srcs s x TrcSrc.reset } }
def Leaf.modSrc (l : Leaf) (s : Nat) (f : TrcSrc → TrcSrc) : Leaf := l.setSrc s (f (l.src s))

/-- `TRC.SRC_CFG[s]`. -/
def Leaf.srcCfg (l : Leaf) (s : Nat) : W32 := l.u.reg (R.TRC_SRC_CFG + 16 * s)

/-- Trace and the source are both enabled (R87). -/
def Leaf.srcOn (l : Leaf) (s : Nat) : Bool := l.u.rb R.TRC_CTL 31 && bit (l.srcCfg s) 31

/-- A register of the TRF page at an offset. -/
abbrev trfReg (off : Nat) : Nat := 0x7000 + off

/-- A 64-bit address in two registers of the TRF page. -/
def Leaf.trf64 (l : Leaf) (off : Nat) : Nat := l.u.rn64 (trfReg off) (trfReg (off + 4))

/-- An element's address for an item: the instruction address, or the data address of a data access (R88). -/
def TrcItem.elemAddr (i : TrcItem) (dataKind : Bool) : Option Nat :=
  if dataKind then (if i.kind = 3 then some i.aux.toNat else none) else some i.iaddr.toNat

/-- Comparator `n` matches an address: equal above the ignored bits, of which at most 12 (R89). -/
def Leaf.acmpHit (l : Leaf) (n a : Nat) : Bool :=
  let ign := min (l.u.rf (trfReg (0x40 + 16 * n)) 16 5) 12
  a / 2 ^ ign = l.trf64 (0x48 + 16 * n) / 2 ^ ign

/-- Range pair `m` covers an address (R89); one whose high bound is not above its low bound covers none. -/
def Leaf.rngHit (l : Leaf) (m a : Nat) : Bool :=
  decide (l.trf64 (0x148 + 32 * m) ≤ a) && decide (a < l.trf64 (0x150 + 32 * m))

/-- An enabled element of a role that selects source `s`. -/
def elemFor (cfg : W32) (role s : Nat) : Bool := bit cfg 31 && fld cfg 28 3 = role && bit cfg s

/-- Some comparator or range of a role that selects the source matches the item (R88, R89). -/
def Leaf.roleHit (l : Leaf) (role s : Nat) (i : TrcItem) : Bool :=
  (List.range 16).any (fun n =>
    let c := l.u.reg (trfReg (0x40 + 16 * n))
    role ≤ 2 && elemFor c role s && (match i.elemAddr (bit c 27) with | some a => l.acmpHit n a | none => false)) ||
  (List.range 8).any (fun m =>
    let c := l.u.reg (trfReg (0x140 + 32 * m))
    elemFor c role s && !(3 ≤ role && bit c 27) && (match i.elemAddr (bit c 27) with | some a => l.rngHit m a | none => false))

/-- Some enabled element of a role selects the source (R87, R88). Comparators take no part in include and exclude. -/
def Leaf.hasRole (l : Leaf) (role s : Nat) : Bool :=
  (role ≤ 2 && (List.range 16).any (fun n => elemFor (l.u.reg (trfReg (0x40 + 16 * n))) role s)) ||
  (List.range 8).any (fun m => elemFor (l.u.reg (trfReg (0x140 + 32 * m))) role s)

/-- An element can never match (R89): comparators and ranges by their register. -/
def Leaf.elemBad (l : Leaf) (isRange : Bool) (n : Nat) : Bool :=
  let c := l.u.reg (trfReg (if isRange then 0x140 + 32 * n else 0x40 + 16 * n))
  let role := fld c 28 3
  bit c 31 && (decide (5 ≤ role) ||
    (if isRange then decide (l.trf64 (0x150 + 32 * n) ≤ l.trf64 (0x148 + 32 * n)) || (bit c 27 && (role = 3 || role = 4))
     else (role = 3 || role = 4)))

/-- After a write to the TRF page: an element that can never match sets the page's cause (R89). -/
def Leaf.trfCheck (l : Leaf) : Leaf :=
  if (List.range 16).any (l.elemBad false) || (List.range 8).any (l.elemBad true) then l.blk (fun u => u.cause 0x07 0 0) else l

/-- The lowest enabled data filter that admits a data access of the source (R92). -/
def Leaf.dataFilter (l : Leaf) (s : Nat) (i : TrcItem) : Option Nat :=
  (List.range 4).find? (fun f =>
    let c := l.u.reg (trfReg (0x240 + 32 * f))
    bit c 31 && bit c s && (if bit i.attr 1 then bit c 29 else bit c 30) &&
    decide (l.trf64 (0x248 + 32 * f) ≤ i.aux.toNat) && decide (i.aux.toNat < l.trf64 (0x250 + 32 * f)))

/-- The windows a source selects let it trace: none selected, or one of them open (R87). -/
def Leaf.winOk (l : Leaf) (s : Nat) : Bool :=
  let m := fld (l.srcCfg s) 0 8
  m = 0 || (List.range 8).any (fun w => m.testBit w && bit l.trc.windows w)

/-! ### The buffer (R95, R99, R100) -/

/-- Bytes of the buffer. -/
def trcBufBytes : Nat := 262144

def Leaf.trcFree (l : Leaf) : Nat := trcBufBytes - 8 * l.trc.buf.length

/-- Bytes of the buffer that a source holds (`SRC_USE`). -/
def Leaf.srcUse (l : Leaf) (s : Nat) : Nat := 8 * (l.trc.buf.filter (fun e => e.1 = s)).length

/-- A source's quota in bytes; none where it has no limit. -/
def Leaf.quota (l : Leaf) (s : Nat) : Option Nat :=
  let q := fld (l.srcCfg s) 16 8
  if q = 0 then none else some (q * 1024)

/-- Items of a source are lost: counted for the register, the step and the open loss (R99). -/
def Leaf.loseItems (l : Leaf) (s n : Nat) : Leaf :=
  let l := l.blk (fun u => u.bumpBy (R.TRC_SRC_LOST + 16 * s) n)
  l.modSrc s (fun x => { x with stepLost := satAdd x.stepLost n 0xFFFFFFFF,
                                loss := x.loss.map (fun y => { y with count := satAdd y.count n 0xFFFFFFFF }) })

/-- A source enters loss (R99): its open run is lost, the cause is set and the record written. -/
def Leaf.enterLoss (l : Leaf) (s reason : Nat) : Leaf :=
  if (l.src s).loss.isSome then l
  else
    let n := match (l.src s).run with | some r => r.2 | none => 0
    let l := l.modSrc s (fun x => { x with run := none, loss := some ⟨reason, 0, l.u.clk.ns⟩ })
    (l.loseItems s n).blk (fun u => (u.cause 0x06 0 0).reportOpen 0x06 1 .dflt [s])

/-- The words of a packet go into the buffer, and the packet is counted. -/
def Leaf.putWords (l : Leaf) (s : Nat) (ws : List W64) : Leaf :=
  let l := { l with trc := { l.trc with buf := l.trc.buf ++ ws.map (fun w => (s, w)) } }
  let l := l.blk (fun u => u.count (R.TRC_SRC_PKTS + 16 * s) 1)
  l.modSrc s (fun x => { x with sinceSync := x.sinceSync + 8 * ws.length, stepPkts := satAdd x.stepPkts 1 0xFFFFFFFF })

/-- A packet of `n` bytes would take the source past its quota (R99). -/
def Leaf.overQuota (l : Leaf) (s n : Nat) : Bool := match l.quota s with | some q => decide (q < l.srcUse s + n) | none => false

/-- A control packet (R99, R100): it may use the reserve, and is dropped where not even that has room. A loss that a dropped control
packet begins carries reason 0 (DESIGN CHOICE, log entry 119). -/
def Leaf.putControl (l : Leaf) (s : Nat) (ws : List W64) : Leaf :=
  if 8 * ws.length ≤ l.trcFree then l.putWords s ws
  else (l.blk (fun u => (u.bump R.TRC_CTLLOST).cause 0x06 0 1)).enterLoss s 0

/-- The first word of a packet (R91): type, byte 1, bytes 2 to 7. -/
def trcHead (type s words flags rest : Nat) : W64 :=
  BitVec.ofNat 64 (type + (s * 32 + (words - 1) * 8 + flags) * 2 ^ 8 + rest * 2 ^ 16)

/-- A LOSS packet (R91). -/
def lossWords (s reason count : Nat) (ns : W64) : List W64 := [trcHead 6 s 2 0 (reason + count * 2 ^ 16), ns]

/-- A STOP packet (R91, R94), with the cycle of the change. -/
def Leaf.stopWord (l : Leaf) (s reason win : Nat) : W64 :=
  trcHead 5 s 1 0 (reason + win * 2 ^ 8 + (l.u.clk.tb1.toNat % 2 ^ 32) * 2 ^ 16)

/-- The packet after a warm or unit reset (R103), where one is due. -/
def Leaf.resetLossFirst (l : Leaf) (s : Nat) : Leaf :=
  match (l.src s).resetLoss with
  | none => l
  | some ns => (l.modSrc s (fun x => { x with resetLoss := none })).putControl s (lossWords s 4 0xFFFFFFFF ns)

/-- An ordinary packet (R99): BCNT, TGT or DATA. Answers whether it was written; too little space or quota begins a loss. -/
def Leaf.putOrdinary (l : Leaf) (s : Nat) (ws : List W64) : Leaf × Bool :=
  let n := 8 * ws.length
  if l.trcFree ≤ 1024 + n then (l.enterLoss s 0, false)
  else if l.overQuota s n then (l.enterLoss s 1, false)
  else (l.putWords s ws, true)

/-- The open run is written as BCNT (R93). Answers whether the source is out of loss after it. -/
def Leaf.closeRun (l : Leaf) (s : Nat) : Leaf × Bool :=
  match (l.src s).run with
  | none => (l, (l.src s).loss.isNone)
  | some (taken, n) =>
    let r := (l.resetLossFirst s).putOrdinary s [trcHead 1 s 1 taken.toNat (n * 2 ^ 16)]
    if r.2 then (r.1.modSrc s (fun x => { x with run := none }), true) else r

/-- The stamp that a source's packets carry (R91): valid flag, TB0, index and angle of its slot. -/
def Leaf.srcStamp (l : Leaf) (s : Nat) : Nat × W64 × W64 :=
  let slot := fld (l.srcCfg s) 30 1
  let c := l.u.step slot
  if c.en then (1, l.u.clk.ns, (l.u.angle slot ++ c.idx : BitVec 64)) else (0, l.u.clk.ns, 0)

/-- A STOP, GAP or RESUME behind the open run (R93). It is written in loss too, where the buffer takes it (R100, R101); one that takes
the source past its quota begins a loss (R99). -/
def Leaf.sendControl (l : Leaf) (s : Nat) (ws : List W64) : Leaf :=
  let l := (l.closeRun s).1.resetLossFirst s
  (if l.overQuota s (8 * ws.length) then l.enterLoss s 1 else l).putControl s ws

/-- SYNC before an item (R94), behind the open run, with the highest reason due. One that finds no place is owed still. -/
def Leaf.writeSync (l : Leaf) (s : Nat) (due : SyncDue) (iaddr : W64) (valid : Nat) (ns step : W64) : Leaf :=
  let r := due.reason
  let l := l.modSrc s (fun x => { x with owed := due })
  let l := (l.closeRun s).1.resetLossFirst s
  let l := if l.overQuota s 32 then l.enterLoss s 1 else l
  if (l.src s).loss.isSome then l
  else
    let l := l.putControl s [trcHead 4 s 4 valid (r + (if r = 1 then due.win else 0xFF) * 2 ^ 8), iaddr, ns, step]
    if (l.src s).loss.isSome then l else l.modSrc s (fun x => { x with owed := SyncDue.none, synced := true, sinceSync := 0 })

/-! ### The merge (R93 to R95) -/

/-- The packets of a traced item. -/
def Leaf.itemPackets (l : Leaf) (s : Nat) (i : TrcItem) (filter : Nat) : Leaf :=
  if i.kind = 0 then
    match (l.src s).run with
    | some (taken, n) =>
      if taken = bit i.attr 0 && decide (n < 0xFFFFFFFF) then l.modSrc s (fun x => { x with run := some (taken, n + 1) })
      else
        let r := l.closeRun s
        if r.2 then r.1.modSrc s (fun x => { x with run := some (bit i.attr 0, 1) }) else r.1.loseItems s 1
    | none => l.modSrc s (fun x => { x with run := some (bit i.attr 0, 1) })
  else
    let ws := if i.kind = 3 then
        [trcHead 3 s 3 ((bit i.attr 1).toNat * 4 + fld i.attr 2 2) filter, i.aux, i.val]
      else [trcHead 2 s 2 (if i.kind = 2 then 1 else 0) (if i.kind = 2 then fld i.attr 4 16 else 0), i.aux]
    let r := l.closeRun s
    if r.2 then
      let r := (r.1.resetLossFirst s).putOrdinary s ws
      if r.2 then r.1 else r.1.loseItems s 1
    else r.1.loseItems s 1

/-- What is due before an item that the merge takes: what it was owed at its arrival, what lost items left owed, and the periodic
SYNC (R94). -/
def Leaf.syncDue (l : Leaf) (s : Nat) (due : SyncDue) : SyncDue :=
  let x := l.src s
  let d := x.owed.join due
  if x.synced && decide (2 ^ (fld (l.srcCfg s) 27 3 + 10) ≤ x.sinceSync) then d.owe 2 else d

/-- The merge takes the oldest entry of a source: an item becomes its packets, or is lost with the source in loss (R99). A STOP is
written only where a SYNC stands since the last one (R94). -/
def Leaf.mergeEntry (l : Leaf) (s : Nat) : TrcEnt → Leaf
  | .item i filter due valid ns step =>
    if (l.src s).loss.isSome then (l.modSrc s (fun x => { x with owed := x.owed.join due })).loseItems s 1
    else
      let d := l.syncDue s due
      let l := if d.why ≠ 0 then l.writeSync s d i.iaddr valid ns step else l
      if (l.src s).loss.isSome then l.loseItems s 1 else l.itemPackets s i filter
  | .stop w =>
    let l := l.modSrc s (fun x => { x with owed := x.owed.fall })
    if (l.src s).synced then (l.sendControl s [w]).modSrc s (fun x => { x with synced := false }) else l
  | .resume ws => (l.sendControl s ws).modSrc s (fun x => { x with run := none })

/-- The oldest entry of a source's FIFO moves. -/
def Leaf.moveHead (l : Leaf) (s : Nat) : Leaf :=
  match (l.src s).fifo with
  | [] => l
  | e :: es => (l.modSrc s (fun x => { x with fifo := es })).mergeEntry s e

/-- The source that the merge serves next: round robin behind the last one served (R95). -/
def Leaf.mergeNext (l : Leaf) : Option Nat :=
  ((List.range 8).map (fun k => (l.trc.last + 1 + k) % 8)).find? (fun s => !(l.src s).fifo.isEmpty)

/-- The entries that wait in all FIFOs. -/
def Leaf.mergeLeft (l : Leaf) : Nat := ((List.range 8).map (fun s => (l.src s).fifo.length)).sum

/-- The turn of a source: its oldest entry moves. Where the packets of an entry and the LOSS that a reset left due are more than 8 words together, the LOSS
takes a turn of its own (R103). -/
def Leaf.turn (l : Leaf) (s : Nat) : Leaf :=
  let r := l.moveHead s
  if (l.src s).resetLoss.isSome && decide (l.trc.buf.length + 8 < r.trc.buf.length) then l.resetLossFirst s else r

/-- The merge goes on within a cycle, one entry a turn, while the `room` of its 8 words lasts; an entry whose packets it does not take waits for the next
cycle. -/
def Leaf.mergeTurns (l : Leaf) (room : Nat) : Nat → Leaf
  | 0 => l
  | n + 1 =>
    match l.mergeNext with
    | none => l
    | some s =>
      let r := l.turn s
      let k := r.trc.buf.length - l.trc.buf.length
      if room < k then l else ({ r with trc := { r.trc with last := s } }).mergeTurns (room - k) n

/-- The turns that the FIFOs can still take: one for each entry, and one for each LOSS that a reset left due. -/
def Leaf.turnsLeft (l : Leaf) : Nat := l.mergeLeft + 8

/-- Cycles of the merge that have passed: each moves up to 8 words. -/
def Leaf.mergeCycles (l : Leaf) : Nat → Leaf
  | 0 => l
  | n + 1 => (l.mergeTurns 8 l.turnsLeft).mergeCycles n

/-- The merge has done its work of every cycle before the present one (R95). What arrives within a cycle waits for its end, so that the items of several
sources are served in the round robin's order, whatever the order of their commands. -/
def Leaf.merge (l : Leaf) : Leaf :=
  let now := l.u.clk.tb1
  let l := l.mergeCycles (min (now - l.trc.mergedAt).toNat l.turnsLeft)
  { l with trc := { l.trc with mergedAt := now } }

/-- All of a source's FIFO moves into the buffer (R101). -/
def Leaf.drain (l : Leaf) (s : Nat) : Leaf := (l.src s).fifo.foldl (fun (a : Leaf) _ => a.moveHead s) l

/-- An entry joins a source's FIFO. -/
def Leaf.enqueue (l : Leaf) (s : Nat) (e : TrcEnt) : Leaf := l.modSrc s (fun x => { x with fifo := x.fifo ++ [e] })

/-- The items that wait in a source's FIFO. -/
def TrcSrc.items (x : TrcSrc) : Nat := (x.fifo.filter (fun e => match e with | .item .. => true | _ => false)).length

/-! ### Items at their arrival (R86 to R92, R94) -/

/-- The traced state of a source falls (R94): STOP, behind what its FIFO holds. -/
def Leaf.fall (l : Leaf) (s reason win : Nat) : Leaf :=
  (l.modSrc s (fun x => { x with traced := false, due := x.due.fall })).enqueue s (.stop (l.stopWord s reason win))

/-- A traced item joins its FIFO, or finds it full (R95, R99). -/
def Leaf.passItem (l : Leaf) (s : Nat) (i : TrcItem) (filter : Nat) : Leaf :=
  let x := l.src s
  if 32 ≤ x.items then (l.enterLoss s 2).loseItems s 1
  else
    let st := l.srcStamp s
    (l.modSrc s (fun x => { x with due := SyncDue.none })).enqueue s (.item i filter x.due st.1 st.2.1 st.2.2)

/-- What an item's arrival does to its source (R87, R88, R92, R94). A traced state that rises with an item owes reason 0, whatever let it rise, but for what
a window, a loss, a low-power exit or an enable owes already (DESIGN CHOICE for a rise by `TRC.CTL.en` or by a write of `SRC_CFG.win`, log entry 119). -/
def Leaf.itemArrives (l : Leaf) (s : Nat) (i : TrcItem) : Leaf :=
  let start := l.roleHit 1 s i
  let l := if start then l.modSrc s (fun x => { x with gate := true }) else l
  let state := (l.src s).gate && (!l.hasRole 3 s || l.roleHit 3 s i) && !l.roleHit 4 s i && l.winOk s
  let was := (l.src s).traced
  let l := if state && !was then l.modSrc s (fun x => { x with traced := true, due := x.due.owe 0 }) else l
  let l := if !state && was then l.fall s 0 0xFF else l
  let l :=
    if (l.src s).loss.isSome then l.loseItems s 1
    else match (if i.kind = 3 then l.dataFilter s i else some 0) with
      | some f => if state then l.passItem s i f else l
      | none => l
  if l.roleHit 2 s i then
    let l := l.modSrc s (fun x => { x with gate := false, due := x.due.noWindow })
    if (l.src s).traced then l.fall s 0 0xFF else l
  else l

/-- TRACE_ITEM: source `s` delivers an item, and the merge of the cycle goes on (R86 to R95). -/
def Leaf.traceItem (l : Leaf) (s : Nat) (i : TrcItem) : Leaf :=
  let l := l.merge
  if l.srcOn s then (l.itemArrives s i).merge else l

/-! ### Windows and enables (R88, R90, R94) -/

/-- G when a source is enabled, or after a warm or unit reset (R88, R103). -/
def Leaf.gateAtEnable (l : Leaf) (s : Nat) : Bool := !l.hasRole 1 s

/-- What the window states at the end of a cycle do to a source (R90, R94): `was` tells that they let it trace before. One whose
traced state falls writes STOP, one whose G is 1 and that may now trace owes SYNC reason 1. Of several windows
a SYNC names the lowest that opened and a STOP the highest that closed (DESIGN CHOICE, log entry 119). -/
def Leaf.windowsMoved (l : Leaf) (was : Bool) (opened closed : List Nat) (s : Nat) : Leaf :=
  let m := fld (l.srcCfg s) 0 8
  if !l.srcOn s || m = 0 || was = l.winOk s then l
  else if was then
    if (l.src s).traced then l.fall s 1 ((closed.filter (fun w => m.testBit w)).getLast?.getD 0xFF)
    else l.modSrc s (fun x => { x with due := x.due.noWindow })
  else if !(l.src s).gate then l
  else l.modSrc s (fun x => { x with due := x.due.owe 1 ((opened.filter (fun w => m.testBit w)).head?.getD 0xFF) })

/-- The window states at the end of a cycle (R90). -/
def Leaf.setWindows (l : Leaf) (ws : Byte) : Leaf :=
  let old := l.trc.windows
  if ws = old then l
  else
    let l := l.merge
    let opened := (List.range 8).filter (fun w => bit ws w && !bit old w)
    let closed := (List.range 8).filter (fun w => !bit ws w && bit old w)
    let was := (List.range 8).map (fun s => l.winOk s)
    let l := { l with trc := { l.trc with windows := ws } }
    ((List.range 8).foldl (fun (a : Leaf) s => a.windowsMoved (was.getD s false) opened closed s) l).merge

/-- TRACE_SOURCE_ENABLE and every write of `TRC.SRC_CFG[s]` (R94): disabling a source that is traced writes STOP reason 2, a window
choice that ends its traced state STOP reason 1. -/
def Leaf.srcCfgWrite (l : Leaf) (s : Nat) (w : W32) : Leaf :=
  let l := l.merge
  let old := l.srcCfg s
  let off := bit old 31 && !bit w 31 && l.u.rb R.TRC_CTL 31
  let l := if off && (l.src s).traced then l.fall s 2 0xFF else l
  let l := l.blk (fun u => u.setReg (R.TRC_SRC_CFG + 16 * s) (w &&& 0xF8FF00FF#32))
  let l :=
    if !bit old 31 && bit w 31 then
      l.modSrc s (fun x => { x with gate := l.gateAtEnable s, traced := false, due := x.due.owe 5 })
    else if l.srcOn s && (l.src s).traced && !l.winOk s then l.fall s 1 0xFF
    else l
  l.merge

/-- A write of the TRF page (R88, R89): a source that no enabled start element selects any more has G at 1 while it is enabled; an
element that can never match sets the page's cause. -/
def Leaf.trfWrite (l : Leaf) (k : Nat) (w : W32) : Leaf :=
  let had := (List.range 8).map (fun s => l.hasRole 1 s)
  let l := l.blk (fun u => u.setReg k w)
  let l := (List.range 8).foldl (fun (a : Leaf) s =>
    if had.getD s false && !a.hasRole 1 s && bit (a.srcCfg s) 31 then a.modSrc s (fun x => { x with gate := true }) else a) l
  l.trfCheck

/-! ### The ring in system memory (R96 to R98) -/

/-- The ring's size in bytes: 2^n (R96). -/
def Leaf.trcRing (l : Leaf) : Nat := 2 ^ l.u.rf R.TRC_RSIZE 0 6

/-- The ring is full (R96). -/
def Leaf.trcFull (l : Leaf) : Bool := decide ((l.u.rn R.TRC_WPTR + 64) % l.trcRing = l.u.rn R.TRC_RPTR)

/-- Bytes of the ring that driver software has not consumed. -/
def Leaf.trcOccupancy (l : Leaf) : Nat := (l.u.rn R.TRC_WPTR + l.trcRing - l.u.rn R.TRC_RPTR) % l.trcRing

/-- The occupancy notice of R97: written when the occupancy rises to the threshold, re-armed below half of it. A write of `TRC.NOTE` that finds the
occupancy at or above the new threshold, with the notice armed, writes it at once (DESIGN CHOICE, log entry 119). -/
def Leaf.trcNotice (l : Leaf) : Leaf :=
  let t := l.u.rf R.TRC_NOTE 0 20 * 4096
  if t = 0 then l
  else if l.trc.noteArmed && decide (t ≤ l.trcOccupancy) then
    ({ l with trc := { l.trc with noteArmed := false } }).blk (fun u => u.reportOpen 0x06 2 .dflt [])
  else if decide (2 * l.trcOccupancy < t) then { l with trc := { l.trc with noteArmed := true } }
  else l

/-- "trace DMA error" (R394). -/
def rkTraceDma : RecKind := rk 0x06 0x0003 3 .always

/-- TRACE_DMA_ERROR: the ring stops (R98), and the one DMA port has reported an error (R135). -/
def Leaf.trcDmaError (l : Leaf) : Leaf :=
  if l.trc.dmaErr then l
  else
    ({ l with trc := { l.trc with dmaErr := true }, dmp := { l.dmp with dmaErr := true } }).blk (fun u =>
      (u.cause 0x06 0 3).report rkTraceDma .dflt (pay [fd 0x24 4 (u.rn R.TRC_WPTR)]))

/-- Blocks can be written: trace is on, no error holds the ring, a block is buffered and the ring is not full. -/
def Leaf.trcCanWrite (l : Leaf) : Bool :=
  l.u.rb R.TRC_CTL 31 && !l.trc.dmaErr && decide (8 ≤ l.trc.buf.length) && !l.trcFull

/-- The ring has become full (R96, R97): the page's cause is set. -/
def Leaf.trcFullCheck (l : Leaf) : Leaf := if l.u.rb R.TRC_CTL 31 && l.trcFull then l.blk (fun u => u.cause 0x06 0 2) else l

/-- TRACE_BLOCK_ACK: the oldest 64 bytes of the buffer stand in the ring, and `WPTR` advances (R96, R97). -/
def Leaf.trcBlock (l : Leaf) : Leaf :=
  let l := l.merge
  if !l.trcCanWrite then l
  else if l.u.armed 0x06 0 3 then (l.blk (fun u => u.fire 0x06 0 3 false)).trcDmaError
  else
    let ws := (l.trc.buf.take 8).map Prod.snd
    let base := l.u.rn64 R.TRC_RBASE_L R.TRC_RBASE_H
    let l := { l with trc := { l.trc with buf := l.trc.buf.drop 8, flushLeft := l.trc.flushLeft - 8 } }
    let l := l.blk (fun u => (u.hostWrite (base + u.rn R.TRC_WPTR) (ws.flatMap (fun w => leBytes 8 w.toNat))).setN R.TRC_WPTR
      ((u.rn R.TRC_WPTR + 64) % l.trcRing))
    l.trcNotice.trcFullCheck

/-- Up to `n` blocks are written. -/
def Leaf.trcBlocks (l : Leaf) : Nat → Leaf
  | 0 => l
  | n + 1 => l.trcBlock.trcBlocks n

/-- Every open run is written (R93, R97). -/
def Leaf.closeRuns (l : Leaf) : Leaf := (List.range 8).foldl (fun (a : Leaf) s => (a.closeRun s).1) l

/-- TRACE_FLUSH: open runs close, IDLE words pad the buffer to 64 bytes, and all of it is to be written out (R97). -/
def Leaf.trcFlush (l : Leaf) : Leaf :=
  let l := l.merge.closeRuns
  let n := (8 - l.trc.buf.length % 8) % 8
  let n := if 8 * n ≤ l.trcFree then n else 0
  let buf := l.trc.buf ++ List.replicate n (8, 0#64)
  { l with trc := { l.trc with buf := buf, flushLeft := buf.length } }

/-- TRACE_FLUSH_DONE: the blocks the flush still owes are acknowledged, as far as the ring takes them. -/
def Leaf.trcFlushDone (l : Leaf) : Leaf := l.trcBlocks (ceilDiv l.trc.flushLeft 8)

/-- A write of `TRC.CTL` (R96, R98): setting en starts the ring at offset 0 and clears an error; clearing it disables every source. -/
def Leaf.trcCtl (l : Leaf) (w : W32) : Leaf :=
  let l := l.merge
  if bit w 31 && !l.u.rb R.TRC_CTL 31 then
    let l := { l with trc := { l.trc with dmaErr := false, noteArmed := true } }
    l.blk (fun u => ((u.setReg R.TRC_CTL 0x80000000#32).setReg R.TRC_WPTR 0).setReg R.TRC_RPTR 0)
  else if !bit w 31 && l.u.rb R.TRC_CTL 31 then
    let l := (List.range 8).foldl (fun (a : Leaf) s => if (a.src s).traced then a.fall s 2 0xFF else a) l
    l.merge.blk (fun u => u.setReg R.TRC_CTL 0)
  else l

/-- TRACE_ENABLE: a write of `TRC.CTL` with en set. -/
def Leaf.trcEnable (l : Leaf) : Leaf := l.trcCtl 0x80000000#32

/-- TRACE_RPTR_WRITE (R96, R97). -/
def Leaf.trcRptr (l : Leaf) (w : W32) : Leaf :=
  if w.toNat % 64 ≠ 0 then l.blk (fun u => u.cause 0x06 0 4)
  else (l.blk (fun u => u.setReg R.TRC_RPTR w)).trcNotice.trcFullCheck

/-! ### Loss exit and low power (R99 to R101) -/

/-- TRACE_LOSS_EXIT: the source leaves loss where its FIFO is empty and buffer and quota allow it (R99). -/
def Leaf.lossExit (l : Leaf) (s : Nat) : Leaf :=
  let l := l.merge
  match (l.src s).loss with
  | none => l
  | some x =>
    let quotaOk := match l.quota s with | some q => decide (l.srcUse s + 1024 ≤ q) | none => true
    if decide (4096 ≤ l.trcFree) && (l.src s).fifo.isEmpty && quotaOk then
      let l := l.modSrc s (fun y => { y with loss := none, owed := y.owed.owe 3 })
      (l.resetLossFirst s).putControl s (lossWords s x.reason x.count x.beganNs)
    else l

/-- GAP and RESUME (R91). -/
def Leaf.lpWords (l : Leaf) (s type : Nat) : List W64 :=
  let st := l.srcStamp s
  [trcHead type s 4 st.1 0, l.u.clk.tb1, st.2.1, st.2.2]

/-- TRACE_LP_ENTRY (R101): the open run is written, the source's FIFO moves into the buffer, and GAP is written behind both. -/
def Leaf.lpEntry (l : Leaf) (s : Nat) : Leaf :=
  let l := l.merge
  let was := (l.src s).lowPower
  let l := l.modSrc s (fun x => { x with lowPower := true })
  if l.srcOn s && !was then ((l.closeRun s).1.drain s).sendControl s (l.lpWords s 7) else l

/-- A change of `trc_lp` while a reset is held: the level is what the source finds afterwards (R101, R374). -/
def Leaf.lpLevel (l : Leaf) (s : Nat) (b : Bool) : Leaf := l.modSrc s (fun x => { x with lowPower := b })

/-- TRACE_LP_EXIT (R101): RESUME, and a SYNC is owed to the next traced item. -/
def Leaf.lpExit (l : Leaf) (s : Nat) : Leaf :=
  let l := l.merge
  let was := (l.src s).lowPower
  let l := l.modSrc s (fun x => { x with lowPower := false })
  if l.srcOn s && was then
    ((l.modSrc s (fun x => { x with due := x.due.owe 4 })).enqueue s (.resume (l.lpWords s 8))).merge
  else l

/-! ### Summaries (R102) and resets (R103) -/

/-- The sources bound to a slot. -/
def Leaf.boundSrcs (l : Leaf) (slot : Nat) : List Nat :=
  (List.range 8).filter (fun s => fld (l.srcCfg s) 30 1 = slot)

/-- The 64 bytes of a trace summary (R102). Flag [0] tells that an item was lost in the step: an episode in which none was leaves it clear (DESIGN CHOICE,
log entry 119). -/
def Leaf.summary (l : Leaf) (slot : Nat) (idx : W32) : List Byte :=
  let bound := l.boundSrcs slot
  let lost := (bound.map (fun s => (l.src s).stepLost)).foldl (fun a b => satAdd a b 0xFFFFFFFF) 0
  let flags := l.trcFull.toNat * 4 + l.trc.dmaErr.toNat * 2 + (decide (0 < lost)).toNat
  let body := layout 64 ([fd 0 1 1, fd 1 1 slot, fd 2 1 (l.u.step slot).epoch.toNat, fd 3 1 l.trc.windows.toNat,
    fd 4 4 (l.u.rn (R.SMP_JOB + 4 * slot)), fd 8 4 idx.toNat, fd 0xC 4 (l.u.rn R.SMP_LEAFNO), fd 0x10 4 (l.u.rn R.TRC_WPTR),
    fd 0x14 1 ((bound.map (fun s => 2 ^ s)).sum), fd 0x15 1 flags, fd 0x38 4 lost] ++
    bound.map (fun s => fd (0x18 + 4 * s) 4 (l.src s).stepPkts))
  overlay body 0x3C (leBytes 4 (crc32c body).toNat)

/-- TRACE_SUMMARY, within an accepted mark that ends a step: the summary is queued, or dropped where the queue has no room
(R102, R169); the counts of the step start over. -/
def Leaf.traceSummary (l : Leaf) (slot : Nat) (idx : W32) (ended : Bool) : Leaf :=
  let l := l.merge
  let bound := l.boundSrcs slot
  let some := bound.any (fun s => decide (0 < (l.src s).stepPkts) || decide (0 < (l.src s).stepLost))
  let m := mkMsg 2 0 (l.summary slot idx)
  let l := if ended && some then
      l.blk (fun u => if ((u.port 0).wait 5).isEmpty && u.room 0 5 m.cells then u.commit 0 5 m else u.bump (inst (R.SCH_DROP + 32 * 5) 0))
    else l
  bound.foldl (fun (a : Leaf) s => a.modSrc s (fun x => { x with stepPkts := 0, stepLost := 0 })) l

/-- Trace through a warm or unit reset (R103). -/
def Leaf.traceReset (l : Leaf) : Leaf :=
  let l := { l with trc := { l.trc with windows := 0, buf := [], flushLeft := 0 } }
  (List.range 8).foldl (fun (a : Leaf) s =>
    let en := bit (a.srcCfg s) 31
    a.modSrc s (fun x => { x with
      gate := if en then a.gateAtEnable s else x.gate, traced := false, due := SyncDue.none, fifo := [], run := none, loss := none,
      owed := if en then SyncDue.none.owe 3 else SyncDue.none, synced := false,
      resetLoss := if en then some a.u.clk.ns else x.resetLoss })) l

/-- The low-power levels that the host die drives, whatever the reset (R101). -/
def Trace.inputs (t : Trace) : Trace :=
  let srcs := smMap (fun (x : TrcSrc) => { TrcSrc.reset with lowPower := x.lowPower }) t.srcs
  { Trace.reset with srcs := srcs.filter (fun e => decide (e.2 ≠ TrcSrc.reset)) }

end Sys2Proof.Machine
end

