-- ==== Sys2Proof/Machine/Guard.lean ====
section
/-!
DEFINITION. The snapshot guard and the chunk fingerprints (spec/07_snapshot_fingerprints.md, R143 to R156).
-/

namespace Sys2Proof.Machine

/-! ### The protected area (R143) -/

def Leaf.sngEn (l : Leaf) : Bool := l.u.rb R.SNG_CTL 31
def Leaf.sngSlot (l : Leaf) : Nat := l.u.rf R.SNG_CTL 30 1
def Leaf.rsz (l : Leaf) : Nat := l.u.rf R.SNG_CTL 0 5
def Leaf.nreg (l : Leaf) : Nat := l.u.rf R.SNG_NREG 0 21
def Leaf.sngBase (l : Leaf) : Nat := l.u.rn64 R.SNG_BASE_L R.SNG_BASE_H

/-- The regions that `len` bytes at `a` touch, first and last; none where the write is outside the area. -/
def Leaf.touched (l : Leaf) (a len : Nat) : Option (Nat × Nat) :=
  let b := l.sngBase
  let size := l.nreg * 2 ^ l.rsz
  if len = 0 || a + len ≤ b || b + size ≤ a then none
  else some ((max a b - b) / 2 ^ l.rsz, (min (a + len) (b + size) - 1 - b) / 2 ^ l.rsz)

/-- A region has been copied. -/
def Leaf.isCopied (l : Leaf) (r : Nat) : Bool := smGet l.sng.copied r false

/-! ### Fingerprint frames (R154) -/

/-- What the frames of the present snapshot carry of it. -/
def Leaf.fprHead (l : Leaf) : FprHead :=
  ⟨l.u.reg R.SNG_SNAPID, l.u.reg R.SNG_STEP, l.u.reg R.SNG_ANG, l.u.rn R.SNG_EPOCH, l.fpr.csz, l.fpr.slot, l.u.rn R.FPR_NCHUNK, l.u.rn R.FPR_DONE,
    l.u.rn64 R.FPR_BYTES_L R.FPR_BYTES_H, l.u.rn R.FPR_FSEQ⟩

/-- Queue a fingerprint frame of a snapshot with the entries given. `torn` carries the torn flag and `last` the last flag. -/
def Leaf.queueFprFrame (l : Leaf) (x : FprHead) (entries : List FprEntry) (last torn : Bool) : Leaf :=
  let u := l.u
  let flags := last.toNat * 128 + torn.toNat * 64 + x.slot
  let head := layout 64 [fd 0 1 2, fd 1 1 flags, fd 2 2 entries.length, fd 4 4 (u.rn (R.SMP_JOB + 4 * x.slot)),
    fd 8 4 x.fseq, fd 0xC 4 x.snap.toNat, fd 0x10 4 x.step.toNat, fd 0x14 4 x.ang.toNat,
    fd 0x18 1 x.epoch, fd 0x19 1 x.csz, fd 0x1A 1 (if torn then l.sng.reason else 0),
    fd 0x1C 4 x.nchunk, fd 0x20 8 u.clk.ns.toNat, fd 0x28 4 (u.rn R.SMP_LEAFNO), fd 0x2C 4 x.done, fd 0x30 8 x.bytes]
  let body := entries.flatMap (fun e =>
    layout 16 [fd 0 4 e.chunk, fd 4 4 e.len, fd 8 1 e.changed.toNat] ++ digestBytes e.digest)
  let frame := overlay head 0x3C (leBytes 4 (crc32c (head ++ body)).toNat) ++ body
  let segs := segmentsOf x.fseq x.slot 1 frame 0 1
  l.blk (fun u => segs.foldl (fun (v : Blk) b => v.enqueue 0 2 (mkMsg 1 0 b)) u)

/-- Queue a fingerprint frame of the present snapshot. -/
def Leaf.sendFprFrame (l : Leaf) (entries : List FprEntry) (last torn : Bool) : Leaf :=
  (l.queueFprFrame l.fprHead entries last torn).blk (fun u => u.count R.FPR_FSEQ 1)

/-- An earlier snapshot is done with: no entry of it waits, and no lane has a chunk of it. -/
def Leaf.fprForget (l : Leaf) : Leaf :=
  { l with fpr := { l.fpr with past := l.fpr.past.filter (fun p => !p.queued.isEmpty || l.fpr.lanes.any (fun e => decide (e.2.snap = p.head.snap))) } }

/-- The entries of an earlier snapshot that wait are sent. -/
def Leaf.flushPast (l : Leaf) (snap : W32) : Leaf :=
  let l := (l.fpr.past.filter (fun p => decide (p.head.snap = snap))).foldl (fun (a : Leaf) p => a.queueFprFrame p.head p.queued false false) l
  { l with fpr := { l.fpr with past := l.fpr.past.map (fun (p : FprPast) =>
      if p.head.snap = snap then { p with queued := [], head := { p.head with fseq := p.head.fseq + 1 } } else p) } }.fprForget

/-- Send the queued entries. -/
def Leaf.flushFpr (l : Leaf) (last : Bool) : Leaf :=
  ({ l with fpr := { l.fpr with queued := [] } }).sendFprFrame l.fpr.queued last false

/-- Queue an entry; 32 of them make a frame (R154). -/
def Leaf.queueEntry (l : Leaf) (e : FprEntry) : Leaf :=
  let old := if l.fpr.queued.isEmpty then l.u.clk.ival else l.fpr.oldestAt
  let l := { l with fpr := { l.fpr with queued := l.fpr.queued ++ [e], oldestAt := old } }
  if 32 ≤ l.fpr.queued.length then l.flushFpr false else l

/-- FINGERPRINT_FRAME_TIMER: 100 µs after the oldest queued entry; entries of an earlier snapshot come first. -/
def Leaf.fprTimer (l : Leaf) : Leaf :=
  match l.fpr.past.find? (fun p => !p.queued.isEmpty) with
  | some p => (l.blk (fun u => u.toIv (p.oldestAt + usIv 100))).flushPast p.head.snap
  | none =>
  if l.fpr.queued.isEmpty then l
  else (l.blk (fun u => u.toIv (l.fpr.oldestAt + usIv 100))).flushFpr false

/-! ### Arming (R144, R145) -/

/-- Records of R157. -/
def rkSnapArmed : RecKind := rk 0x0D 0x0001 0 .bySeverity
def rkSnapCopied : RecKind := rk 0x0D 0x0002 1 .bySeverity
def rkSnapTorn : RecKind := rk 0x0D 0x0003 2 .always
def rkArmRefused : RecKind := rk 0x0D 0x0004 2 .bySeverity
def rkStrayCopy : RecKind := rk 0x0D 0x0005 1 .bySeverity
def rkDrainDone : RecKind := rk 0x0E 0x0001 1 .bySeverity
def rkFprChanged : RecKind := rk 0x0E 0x0002 3 .always
def rkChunkRejected : RecKind := rk 0x0E 0x0003 2 .bySeverity
def rkElection : RecKind := rk 0x0E 0x0004 1 .bySeverity

/-- Why an arm is refused (R144): `slot` is the slot of a schedule entry. -/
def Leaf.armReason (l : Leaf) (slot : Option Nat) : Option Nat :=
  let csz := l.u.rf R.FPR_CTL 0 5
  if (match slot with | some s => decide (s ≠ l.sngSlot) | none => false) then some 1
  else if l.sng.state = .copying then some 2
  else if l.sng.state = .copied && !l.fpr.drained then some 3
  else if !l.sngEn || l.rsz < 16 || 21 < l.rsz || l.nreg = 0 || 1048576 < l.nreg || l.sngBase % 2 ^ l.rsz ≠ 0 ||
    csz < l.rsz || 24 < csz then some 4
  else none

/-- An arm of this cycle has been taken already (R144): one of a schedule entry counts with any other, two register writes are never of one cycle. -/
def Leaf.armedNow (l : Leaf) (entry : Bool) : Bool :=
  match l.sng.armedAt with
  | some (at_, byEntry) => decide (at_ = l.u.clk.tb1) && (byEntry || entry)
  | none => false

/-- An arm that counts is refused with a reason, or starts a snapshot (R144 to R146). What the lanes and the entry queue still hold of the snapshot before
goes on as that snapshot's (R153, R154). -/
def Leaf.armNow (l : Leaf) (slot : Option Nat) : Leaf :=
  match l.armReason slot with
  | some r =>
    l.blk (fun u => ((u.bump R.SNG_REFUSED).cause 0x0D 0 1).report rkArmRefused .dflt
      (pay [fd 0x24 1 r, fd 0x28 4 (u.rn R.SNG_SNAPID)]))
  | none =>
    let s := l.sngSlot
    let csz := l.u.rf R.FPR_CTL 0 5
    let area := l.nreg * 2 ^ l.rsz
    let n := ceilDiv area (2 ^ csz)
    let past := l.fpr.past ++ [⟨l.fprHead, l.fpr.digests, l.fpr.queued, l.fpr.oldestAt⟩]
    let l := { l with sng := { Guard.reset with state := .copying, waiting := l.sng.waiting, armIval := l.u.clk.ival, armedAt := l.sng.armedAt,
                                                otherAt := l.sng.otherAt },
                      fpr := { Fpr.reset with csz := csz, slot := s, area := area, bytesH := l.fpr.bytesH, lanes := l.fpr.lanes, past := past } }.fprForget
    l.blk (fun u =>
      let u := u.count R.SNG_SNAPID 1
      let u := ((u.setReg R.SNG_STEP (u.step s).idx).setReg R.SNG_ANG (u.angle s)).setN R.SNG_EPOCH (u.step s).epoch.toNat
      let u := ((u.setN R.SNG_COPIED 0).setN R.SNG_HOLDS 0).setN R.SNG_MAXHOLD 0
      let u := ((u.setN R.FPR_NCHUNK n).setN R.FPR_DONE 0).setN R.FPR_FSEQ 0
      let u := (u.setN R.FPR_BYTES_L 0).setN R.FPR_BYTES_H 0
      (u.emit (.copier .start (u.rn R.SNG_SNAPID))).report rkSnapArmed (.slot s)
        (pay [fd 0x24 4 (u.rn R.SNG_SNAPID), fd 0x28 4 (u.rf R.SNG_NREG 0 21), fd 0x2C 1 (u.rf R.SNG_CTL 0 5)]))

/-- SNAPSHOT_ARM: an arm by a schedule entry or by `SNG.CMD.arm`; two of one cycle count as one (R144). Entries of the other
slot count as one among themselves, and take nothing from an arm that counts (DESIGN CHOICE, log entry 121). -/
def Leaf.arm (l : Leaf) (slot : Option Nat) : Leaf :=
  if l.armReason slot = some 1 then
    if l.sng.otherAt = some l.u.clk.tb1 then l else ({ l with sng := { l.sng with otherAt := some l.u.clk.tb1 } }).armNow slot
  else if l.armedNow slot.isSome then l
  else ({ l with sng := { l.sng with armedAt := some (l.u.clk.tb1, slot.isSome) } }).armNow slot

/-! ### Holds and releases (R147 to R151) -/

/-- Release held writes, in tag-arrival order: the longest completed hold is kept (R147, R149). -/
def Leaf.releaseAll (l : Leaf) (hs : List HeldWrite) : Leaf :=
  hs.foldl (fun (a : Leaf) h =>
    a.blk (fun u => (u.emit (.release h.tag)).peak R.SNG_MAXHOLD (min (ivNs (u.clk.ival - h.since)) 0xFFFFFFFF))) l

/-- SNAPSHOT_TORN (R150): `region` is the region whose timer expired. -/
def Leaf.tear (l : Leaf) (reason : Nat) (region : Nat) : Leaf :=
  if l.sng.state ≠ .copying then l
  else
    let held := l.sng.held
    let l := l.releaseAll held
    let l := { l with sng := { l.sng with state := .torn, reason := reason, held := [], timers := [] } }
    let l := l.blk (fun u =>
      let u := ((u.emit (.copier .torn 0)).bump R.SNG_TORNCNT).cause 0x0D 0 0
      u.report rkSnapTorn (.slot l.fpr.slot) (pay [fd 0x24 4 (u.rn R.SNG_SNAPID), fd 0x28 1 reason, fd 0x2C 4 region,
        fd 0x30 4 held.length]))
    l.sendFprFrame [] false true

/-- No region: all ones. -/
def noRegion : Nat := 0xFFFFFFFF

/-- The lowest free tag (R147). -/
def Guard.freeTag (g : Guard) : Option Nat := (List.range 64).find? (fun t => !g.held.any (fun h => h.tag = t))

/-- The uncopied regions of a check that no hold timer covers yet. -/
def Leaf.newRegions (l : Leaf) (r1 r2 : Nat) : List Nat :=
  (if r1 = r2 then [r1] else [r1, r2]).filter (fun r => !l.isCopied r && !l.sng.timers.any (fun t => t.region = r))

/-- Start the hold timer of a region (R148); an injection makes it expire at once (R388). -/
def Leaf.startTimer (l : Leaf) (r : Nat) : Leaf :=
  let inj := l.u.armed 0x0D 0 0
  let l := { l with sng := { l.sng with timers := l.sng.timers ++ [HoldTimer.mk r l.u.clk.ival inj] } }
  let l := l.blk (fun u => u.emit (.copier .copyFirst r))
  if inj then l.blk (fun u => u.fire 0x0D 0 0 false) else l

/-- Answer a check on regions `r1` to `r2` that arrived at `since`, if it can be answered now (R147, R148). -/
def Leaf.answerCheck (l : Leaf) (r1 r2 since : Nat) : Option Leaf :=
  if l.sng.state ≠ .copying || !l.sngEn || (l.isCopied r1 && l.isCopied r2) then some (l.blk (fun u => u.emit (.guard 0 false)))
  else
    let new := l.newRegions r1 r2
    match l.sng.freeTag with
    | none => none
    | some t =>
      if 16 < l.sng.timers.length + new.length then none
      else
        let l := { l with sng := { l.sng with held := l.sng.held ++ [HeldWrite.mk t r1 r2 since] } }
        let l := l.blk (fun u => (u.bump R.SNG_HOLDS).emit (.guard t true))
        some (new.foldl (fun (a : Leaf) r => a.startTimer r) l)

/-- Answer a check that arrived at `since`, if it can be answered now: a write outside the area passes (R143, R147). -/
def Leaf.tryCheck (l : Leaf) (a len since : Nat) : Option Leaf :=
  match l.touched a len with
  | none => some (l.blk (fun u => u.emit (.guard 0 false)))
  | some (r1, r2) => l.answerCheck r1 r2 since

/-- GUARD_CHECK: a write of `len` bytes at `a` is presented; it waits behind every check that waits (R147). -/
def Leaf.guardCheck (l : Leaf) (a len : Nat) : Leaf :=
  let wait := { l with sng := { l.sng with waiting := l.sng.waiting ++ [WaitCheck.mk a len l.u.clk.ival] } }
  if l.sng.waiting.isEmpty then (l.tryCheck a len l.u.clk.ival).getD wait else wait

/-- WAITING_CHECK_ANSWER: the first waiting check is answered where a tag and a place allow it. -/
def Leaf.waitingAnswer (l : Leaf) : Leaf :=
  match l.sng.waiting with
  | [] => l
  | w :: t =>
    (({ l with sng := { l.sng with waiting := t } }).tryCheck w.addr w.len w.since).getD l

/-- SNAPSHOT_COPIED (R151). -/
def Leaf.snapCopied (l : Leaf) : Leaf :=
  let l := { l with sng := { l.sng with state := .copied }, fpr := { l.fpr with startAt := l.u.clk.ival } }
  l.blk (fun u =>
    (u.report rkSnapCopied (.slot l.fpr.slot) (pay [fd 0x24 4 (u.rn R.SNG_SNAPID), fd 0x28 4 (ivUs (u.clk.ival - l.sng.armIval)),
      fd 0x2C 4 (u.rn R.SNG_HOLDS), fd 0x30 4 (u.rn R.SNG_MAXHOLD)])).emit (.copier .copied 0))

/-- COPY_DONE: the copier reports a region done (R148). -/
def Leaf.copyDone (l : Leaf) (r : Nat) : Leaf :=
  if l.sng.state = .torn then l
  else if l.sng.state ≠ .copying || l.nreg ≤ r then
    l.blk (fun u => ((u.bump R.SNG_ERR).cause 0x0D 0 3).report rkStrayCopy .dflt
      (pay [fd 0x24 4 r, fd 0x28 1 l.sng.state.num]))
  else if l.isCopied r then l
  else
    let l := { l with sng := { l.sng with copied := smPut l.sng.copied r true,
                                          timers := l.sng.timers.filter (fun t => t.region ≠ r) } }
    let l := l.blk (fun u => u.count R.SNG_COPIED 1)
    let free := l.sng.held.filter (fun h => l.isCopied h.first && l.isCopied h.last)
    let l := { l with sng := { l.sng with held := l.sng.held.filter (fun h => !(l.isCopied h.first && l.isCopied h.last)) } }
    let l := l.releaseAll free
    if l.u.rn R.SNG_COPIED = l.nreg then l.snapCopied else l

/-- When a hold timer reaches `SNG.GTO` microseconds; 0 acts as 1 (R149). -/
def Leaf.timerDue (l : Leaf) (t : HoldTimer) : Nat := if t.forced then t.since else t.since + usIv (max 1 (l.u.rf R.SNG_GTO 0 16))

/-- GUARD_TIMEOUT: time moves to the expiry of the first hold timer that runs out, which tears the snapshot (R149, R150). -/
def Leaf.guardTimeout (l : Leaf) : Leaf :=
  match l.sng.timers with
  | [] => l
  | t :: ts =>
    let first := ts.foldl (fun a b => if l.timerDue b < l.timerDue a then b else a) t
    (l.blk (fun u => u.toIv (l.timerDue first))).tear 1 first.region

/-- SNAPSHOT_ABORT: a write of `SNG.CMD.abort` (R150). -/
def Leaf.snapAbort (l : Leaf) : Leaf := l.tear 2 noRegion

/-- A write of `SNG.CTL` while the state is copying sets the page's cause, for the fields it cannot change (R143). -/
def Leaf.sngLocked (l : Leaf) : Leaf := if l.sng.state = .copying then l.blk (fun u => u.cause 0x0D 0 2) else l

/-- GUARD_DISABLE: `SNG.CTL.en` is written 0, which tears a snapshot that is copying (R143, R150). -/
def Leaf.guardDisable (l : Leaf) : Leaf := (l.sngLocked.tear 4 noRegion).blk (fun u => u.setRb R.SNG_CTL 31 false)

/-! ### Chunks (R152, R153) -/

/-- The size of a chunk of the armed area (R152): every chunk but the last is full. -/
def Leaf.chunkSize (l : Leaf) (c : Nat) : Nat :=
  if c + 1 < l.u.rn R.FPR_NCHUNK then 2 ^ l.fpr.csz else l.fpr.area - c * 2 ^ l.fpr.csz

/-- Why a submission is rejected (R153). -/
def Leaf.rejectCause (l : Leaf) (snap chunk len : Nat) : Option Nat :=
  if l.sng.state ≠ .copied then some 0
  else if snap ≠ l.u.rn R.SNG_SNAPID then some 1
  else if l.u.rn R.FPR_NCHUNK ≤ chunk then some 2
  else if len ≠ l.chunkSize chunk then some 3
  else none

/-- CHUNK_SUBMISSION on a lane channel. A lane that is busy takes none (R152). -/
def Leaf.chunkSubmit (l : Leaf) (lane snap chunk len : Nat) (data : List Byte) : Leaf :=
  if (smGet? l.fpr.lanes lane).isSome then l
  else
    match l.rejectCause snap chunk len with
    | some c =>
      l.blk (fun u => ((u.bump R.FPR_ERR).cause 0x0E 0 1).report rkChunkRejected .dflt (pay [fd 0x24 1 c, fd 0x28 4 chunk]))
    | none => { l with fpr := { l.fpr with lanes := smPut l.fpr.lanes lane ⟨l.u.reg R.SNG_SNAPID, chunk, bytesAt data 0 len, l.u.clk.tb1⟩ } }

/-- The first bit of a byte string inverted (R388). -/
def flipFirst : List Byte → List Byte
  | [] => []
  | b :: t => (b ^^^ 1) :: t

/-- DRAIN_DONE (R153): the last chunk is fingerprinted. -/
def Leaf.drainDone (l : Leaf) : Leaf :=
  let l := { l with fpr := { l.fpr with drained := true } }
  let l := l.blk (fun u =>
    (u.cause 0x0E 0 0).report rkDrainDone (.slot l.fpr.slot) (pay [fd 0x24 4 (u.rn R.SNG_SNAPID), fd 0x28 4 (u.rn R.FPR_NCHUNK),
      fd 0x2C 4 (ivMs (u.clk.ival - l.fpr.startAt)), fd 0x30 8 (u.rn64 R.FPR_BYTES_L R.FPR_BYTES_H)]))
  l.flushFpr true

/-- A chunk of an earlier snapshot leaves its lane: its digest is kept from that snapshot's drain, and one that differs queues an entry of that snapshot
(R153, R154). -/
def Leaf.pastHashed (l : Leaf) (x : Lane) (d : BitVec 256) : Leaf :=
  match l.fpr.past.find? (fun p => decide (p.head.snap = x.snap)) with
  | none => l
  | some p =>
    let p := { p with head := { p.head with bytes := p.head.bytes + x.data.length } }
    let same := decide (smGet? p.digests x.chunk = some d)
    let old := if p.queued.isEmpty then l.u.clk.ival else p.oldestAt
    let q := if same then p else { p with digests := smPut p.digests x.chunk d, queued := p.queued ++ [⟨x.chunk, x.data.length, true, d⟩], oldestAt := old }
    let l := { l with fpr := { l.fpr with past := l.fpr.past.map (fun (y : FprPast) => if y.head.snap = x.snap then q else y) } }
    let l := if same then l
      else l.blk (fun u => (u.cause 0x0E 0 2).report rkFprChanged (.slot p.head.slot) (pay [fd 0x24 4 x.snap.toNat, fd 0x28 4 x.chunk]))
    if 32 ≤ q.queued.length then l.flushPast x.snap else l.fprForget

/-- CHUNK_HASHED: a lane ends its chunk, one 64-byte block per 32 cycles after it began (R152, R153). -/
def Leaf.chunkHashed (l : Leaf) (lane : Nat) : Leaf :=
  match smGet? l.fpr.lanes lane with
  | none => l
  | some x =>
    let l := l.blk (fun u => u.toTb1 (x.startedAt + BitVec.ofNat 64 (32 * ceilDiv x.data.length 64)))
    let l := { l with fpr := { l.fpr with lanes := smDel l.fpr.lanes lane } }
    let inj := l.u.armed 0x0E 0 2
    let l := if inj then l.blk (fun u => u.fire 0x0E 0 2 false) else l
    let d := sha256 (if inj then flipFirst x.data else x.data)
    if x.snap ≠ l.u.reg R.SNG_SNAPID then l.pastHashed x d
    else
    let l := l.blk (fun u => u.count64 R.FPR_BYTES_L R.FPR_BYTES_H x.data.length)
    let old := smGet? l.fpr.digests x.chunk
    let l := { l with fpr := { l.fpr with digests := smPut l.fpr.digests x.chunk d } }
    match old with
    | none =>
      let l := l.blk (fun u => u.count R.FPR_DONE 1)
      if l.u.rn R.FPR_DONE = l.u.rn R.FPR_NCHUNK then
        let old := if l.fpr.queued.isEmpty then l.u.clk.ival else l.fpr.oldestAt
        ({ l with fpr := { l.fpr with queued := l.fpr.queued ++ [FprEntry.mk x.chunk x.data.length false d], oldestAt := old } }).drainDone
      else l.queueEntry ⟨x.chunk, x.data.length, false, d⟩
    | some e =>
      if e = d then l
      else
        let l := l.blk (fun u => (u.cause 0x0E 0 2).report rkFprChanged (.slot l.fpr.slot)
          (pay [fd 0x24 4 (u.rn R.SNG_SNAPID), fd 0x28 4 x.chunk]))
        l.queueEntry ⟨x.chunk, x.data.length, true, d⟩

/-! ### Election decisions (R155, R156) -/

/-- The decision code of a chunk: pending where none has arrived. -/
def Leaf.code (l : Leaf) (c : Nat) : BitVec 2 := smGet l.fpr.codes c 0

/-- Chunks with a code. -/
def Leaf.codeCount (l : Leaf) (k : Nat) : Nat := (l.fpr.codes.filter (fun e => e.2.toNat = k)).length

/-- Store the codes of a notice from a first chunk on. -/
def storeCodes : Nat → List (BitVec 2) → SMap (BitVec 2) → SMap (BitVec 2)
  | _, [], m => m
  | c, k :: t, m => storeCodes (c + 1) t (smSet m c k 0)

/-- ELECTION_NOTICE (R155): codes of chunks from `first` on. -/
def Leaf.election (l : Leaf) (snap first : Nat) (codes : List (BitVec 2)) : Leaf :=
  if snap ≠ l.u.rn R.SNG_SNAPID || l.u.rn R.FPR_NCHUNK < first + codes.length then
    l.blk (fun u => (u.bump R.FPR_STALE).cause 0x0E 0 3)
  else
    let was := l.fpr.codes
    let l := { l with fpr := { l.fpr with codes := storeCodes first codes l.fpr.codes } }
    if decide (l.fpr.codes ≠ was) && l.fpr.codes.length = l.u.rn R.FPR_NCHUNK then
      l.blk (fun u => u.report rkElection (.slot l.fpr.slot) (pay [fd 0x24 4 (u.rn R.SNG_SNAPID), fd 0x28 4 (l.codeCount 1),
        fd 0x2C 4 (l.codeCount 2), fd 0x30 4 (l.codeCount 3)]))
    else l

/-- DECISION_QUERY: the copier presents a chunk and is answered with its code (R156). -/
def Leaf.decisionQuery (l : Leaf) (c : Nat) : Leaf := l.blk (fun u => u.emit (.decision c (l.code c).toNat))

/-- The guard and the lanes through a warm or unit reset (R150, R153). -/
def Leaf.guardReset (l : Leaf) : Leaf :=
  let l := l.tear 3 noRegion
  { l with fpr := { l.fpr with lanes := [] } }

end Sys2Proof.Machine
end

