-- ==== Sys2Proof/Machine/StepClock.lean ====
section
/-!
DEFINITION. The leaf's step clocks and the angle schedule table (spec/02_time_step_angle.md, R39 to R47).
-/

namespace Sys2Proof.Machine

/-! ### The period estimate (R40, R41) -/

/-- The estimate after a mark that measured `m` (R41): the new P, and whether the step was short (none: unchanged). -/
def periodUpdate (est : Bool) (p m k : Nat) : Nat × Option Bool :=
  if est then
    let mc := min (max m (p / 2)) (2 * p)
    let d : Int := (mc : Int) - (p : Int)
    (((p : Int) + d / 2 ^ k).toNat, some (decide (m < p / 2)))
  else (m, none)

/-- A count of a byte field that stops at 0xFF. -/
def sat8 (n k : Nat) : Nat := satAdd n k 255

/-- The clock of a slot after an accepted mark at `now` whose measured step is `m` (none: the first since the slot was enabled). -/
def StepClk.marked (c : StepClk) (now : W64) (m : Option Nat) : StepClk :=
  let c := match m with
    | none => c
    | some m =>
      let m := min m (2 ^ 48 - 1)
      let r := periodUpdate c.estValid c.per.toNat m c.k
      { c with lastM := BitVec.ofNat 48 m, per := BitVec.ofNat 48 r.1, estValid := true, short := r.2.getD c.short,
               cntShort := if r.2 = some true then sat8 c.cntShort 1 else c.cntShort }
  { c with idx := if c.idxPend then c.idxSet else c.idx + 1, idxPend := false, haveMark := true, markAt := now, overrun := false,
           long := false }

/-! ### The schedule (R44 to R47) -/

/-- An entry that can fire (R44, R46): enabled, of the slot, and its action not reserved. -/
def actLive (a : W32) (slot : Nat) : Bool := bit a 31 && fld a 30 1 = slot && fld a 27 3 ≤ 4

/-- The entries of a slot that have not fired in the present step, by rising angle and entry number. -/
def Schedule.unfired (s : Schedule) (slot : Nat) : List Nat :=
  let es := (List.range 64).filter (fun n => actLive (smGet (s.acts slot) n 0) slot && !smGet s.fired (slot * 64 + n) false)
  es.mergeSort (fun a b => decide ((smGet (s.angs slot) a 0).toNat ≤ (smGet (s.angs slot) b 0).toNat))

/-- An entry that has fired in the step fires no more (R45). -/
def Leaf.hasFired (l : Leaf) (slot n : Nat) : Leaf := { l with sch := { l.sch with fired := smPut l.sch.fired (slot * 64 + n) true } }

/-- An entry acts (R44 to R46); the trace windows it changes are handed on. -/
def Leaf.act (l : Leaf) (slot n : Nat) (wins : Byte) : Leaf × Byte :=
  let a := smGet (l.sch.acts slot) n 0
  let point := fld a 16 4
  let l := l.hasFired slot n
  let twin := (List.range n).any (fun m =>
    let b := smGet (l.sch.acts slot) m 0
    actLive b slot && fld b 27 3 = 0 && fld b 16 4 = point)
  match fld a 27 3 with
  | 0 => (if twin then l else l.fireSample slot point n, wins)
  | 1 => (l.arm (some slot), wins)
  | 2 => (l, setBit wins (point % 8) true)
  | 3 => (l, setBit wins (point % 8) false)
  | _ => (l.blk (fun u => u.reportOpen 0x02 3 (.slot slot) [fld a 0 16]), wins)

/-- The unfired entries of a slot whose angle the slot's angle has reached (R45), each with its angle and slot. While P is not known only those at 0 are. -/
def Leaf.dueEntries (l : Leaf) (slot : Nat) : List (Nat × Nat × Nat) :=
  let c := l.u.step slot
  if !c.en || !c.haveMark then []
  else
    ((l.sch.unfired slot).map (fun n => ((smGet (l.sch.angs slot) n 0).toNat, n, slot))).filter (fun e =>
      if c.estValid then decide (e.1 ≤ (l.u.angle slot).toNat) else decide (e.1 = 0))

/-- The order in which entries due in one cycle act (R45); of two with equal angle and number slot A's acts first (log entry 94). -/
def actsBefore (a b : Nat × Nat × Nat) : Bool :=
  decide (a.1 < b.1) || (decide (a.1 = b.1) && (decide (a.2.1 < b.2.1) || (decide (a.2.1 = b.2.1) && decide (a.2.2 ≤ b.2.2))))

/-- What several sources do in one cycle: their reports are created in the order of R105. -/
def Leaf.inCycle (l : Leaf) (f : Leaf → Leaf) : Leaf := (f (l.blk Blk.gatherReports)).blk Blk.ungather

/-- The due entries of the slots given act in one cycle (R45); the window states are taken at its end (R90). -/
def Leaf.fireReached (l : Leaf) (slots : List Nat) : Leaf :=
  let due := (slots.flatMap l.dueEntries).mergeSort actsBefore
  let r := due.foldl (fun (x : Leaf × Byte) e => x.1.act e.2.2 e.2.1 x.2) (l, l.trc.windows)
  r.1.setWindows r.2

/-- SCHEDULE_ENTRY_FIRE: time moves to the cycle in which the next unfired entry of the slot is reached within the step, and the
entries due in it act, those of the other slot with them. Entries left to an overrun fire with it (LONG_STEP). -/
def Leaf.scheduleFire (l : Leaf) (slot : Nat) : Leaf :=
  let c := l.u.step slot
  if !c.en || !c.haveMark || !c.estValid then l
  else
    match l.sch.unfired slot with
    | [] => l
    | n :: _ =>
      let a := (smGet (l.sch.angs slot) n 0).toNat
      let e := ceilDiv (a * c.per.toNat) (2 ^ 32)
      if c.per.toNat ≤ e || a = 0xFFFFFFFF then l
      else (l.blk (fun u => u.toTb1 (c.markAt + BitVec.ofNat 64 e))).inCycle (fun l => l.fireReached [0, 1])

/-- LONG_STEP: time moves to the cycle in which the time since the mark reaches P (R42); the remaining entries fire (R45). -/
def Leaf.longStep (l : Leaf) (slot : Nat) : Leaf :=
  let c := l.u.step slot
  if !c.en || !c.haveMark || !c.estValid || c.overrun then l
  else
    let l := l.blk (fun u => u.toTb1 (c.markAt + c.per.setWidth 64))
    l.inCycle (fun l => (l.blk (fun u =>
      let u := u.setStep slot { c with overrun := true, long := true, cntLong := sat8 c.cntLong 1 }
      (u.cause 0x02 0 slot).reportOpen 0x02 1 (.slot slot) [slot])).fireReached [0, 1])

/-- Enabled entries of a slot in a bank whose action is reserved, or whose sample point repeats a lower entry's (R44, R81). -/
def bankErrors (acts : SMap W32) (slot : Nat) : Bool × Bool :=
  let mine := (List.range 64).filter (fun n => bit (smGet acts n 0) 31 && fld (smGet acts n 0) 30 1 = slot)
  (mine.any (fun n => decide (5 ≤ fld (smGet acts n 0) 27 3)),
   let pts := (mine.filter (fun n => fld (smGet acts n 0) 27 3 = 0)).map (fun n => fld (smGet acts n 0) 16 4)
   decide (pts.dedup.length < pts.length))

/-- A slot takes the bank that is to become active; once both have, the swap is complete (R47, R445). -/
def Leaf.slotSwap (l : Leaf) (slot : Nat) : Leaf :=
  if !l.sch.pend then l
  else
    let b := !l.sch.shown
    if (if slot = 0 then l.sch.activeA else l.sch.activeB) = b then l
    else
      let l := { l with sch := if slot = 0 then { l.sch with activeA := b } else { l.sch with activeB := b } }
      let e := bankErrors (l.sch.acts slot) slot
      let l := if e.1 then l.blk (fun u => u.cause 0x18 0 1) else l
      let l := if e.2 then l.blk (fun u => u.cause 0x03 0 4) else l
      if l.sch.activeA = b && l.sch.activeB = b then
        ({ l with sch := { l.sch with pend := false, shown := b } }).blk (fun u => u.bumpSeq 0x18 0)
      else l

/-- ASTB_SWAP: a write of `ASTB.CTL.swap`; a slot that is not attached swaps at once (R47). -/
def Leaf.astbSwap (l : Leaf) : Leaf :=
  if l.sch.pend then l
  else
    let l := { l with sch := { l.sch with pend := true } }
    let l := if (l.u.step 0).en then l else l.slotSwap 0
    if (l.u.step 1).en then l else l.slotSwap 1

/-- A write of an entry word of the table (R44, R47): the editable bank takes it. -/
def Leaf.astbWrite (l : Leaf) (n : Nat) (isAct : Bool) (w : W32) : Leaf :=
  if l.sch.pend then l.blk (fun u => u.cause 0x18 0 0)
  else if l.u.rb R.ASTB_CTL 0 then l
  else
    let w := if isAct then w &&& 0xF80FFFFF#32 else w
    let s := l.sch
    { l with sch :=
      if s.shown then (if isAct then { s with act0 := smSet s.act0 n w 0 } else { s with ang0 := smSet s.ang0 n w 0 })
      else (if isAct then { s with act1 := smSet s.act1 n w 0 } else { s with ang1 := smSet s.ang1 n w 0 }) }

/-- A read of an entry word: the editable bank, or the active one as `ASTB.CTL.bank` selects. -/
def Leaf.astbRead (l : Leaf) (n : Nat) (isAct : Bool) : W32 :=
  let s := l.sch
  let one := s.shown = l.u.rb R.ASTB_CTL 0
  if one then smGet (if isAct then s.act1 else s.ang1) n 0 else smGet (if isAct then s.act0 else s.ang0) n 0

/-! ### Marks (R39, R40, R46, R50) -/

/-- SCHEDULE_SKIP (R46): the unfired entries of the ending step are counted and reported in one record. -/
def Leaf.scheduleSkip (l : Leaf) (slot : Nat) : Leaf :=
  let ns := l.sch.unfired slot
  if ns.isEmpty then l
  else
    l.blk (fun u =>
      let c := u.step slot
      (u.setStep slot { c with cntSkip := sat8 c.cntSkip ns.length }).reportOpen 0x02 2 (.slot slot)
        [slot, (ns.map (fun n => 2 ^ n)).sum])

/-- A step mark notice (R50): to the parent in the time queue. -/
def Leaf.sendNotice (l : Leaf) (slot : Nat) : Leaf :=
  let c := l.u.step slot
  l.blk (fun u => u.sendMsg 0 7 0 (layout 20 [fd 0 4 (u.rn (R.SMP_JOB + 4 * slot)), fd 4 4 c.idx.toNat, fd 8 1 c.epoch.toNat,
    fd 9 1 slot, fd 0xC 8 u.clk.ns.toNat]))

/-- "replay armed" is written when the leaf takes the epoch of a replay arm (R362); the epoch waits in the slot clock. -/
def Leaf.takeEpoch (l : Leaf) (slot : Nat) : Leaf :=
  let c := l.u.step slot
  match c.epochNext with
  | none => l
  | some e => l.blk (fun u => u.setStep slot { c with epoch := e, epochNext := none })

/-- An accepted mark (R40, R46, R47, R70, R83, R102). The entries it makes due act afterwards, those of the cycle together (R45). -/
def Leaf.acceptMark (l : Leaf) (slot : Nat) : Leaf :=
  let c := l.u.step slot
  let l := if c.haveMark then l.scheduleSkip slot else l
  let l := l.traceSummary slot c.idx c.haveMark
  let c := l.u.step slot
  let m := if c.haveMark then some (l.u.clk.tb1 - c.markAt).toNat else none
  let l := l.blk (fun u => u.setStep slot { c.marked u.clk.tb1 m with acceptedAt := some u.clk.tb1 })
  let l := (l.takeEpoch slot).samplerMark slot
  let l := l.slotSwap slot
  let l := { l with sch := { l.sch with fired := l.sch.fired.filter (fun e => decide (e.1 / 64 ≠ slot)) } }
  if (l.u.step slot).notice then l.sendNotice slot else l

/-- A mark by the port or by `STEP.MARK` on a slot (R39). A second mark of the cycle is the same mark; one that comes too early after the last
accepted mark, whatever attachment that belongs to, is ignored and counted. -/
def Leaf.stepMark (l : Leaf) (slot : Nat) (viaPort : Bool) : Leaf :=
  let c := l.u.step slot
  let now := l.u.clk.tb1
  if !c.en || (viaPort && c.regOnly) || c.seenAt = some now then l
  else
    let l := l.blk (fun u => u.setStep slot { c with seenAt := some now })
    let early := match c.acceptedAt with | some a => decide ((now - a).toNat < l.u.rn R.STEP_MINPER) | none => false
    if early then l.blk (fun u => u.setStep slot { u.step slot with cntIgn := sat8 c.cntIgn 1 })
    else l.acceptMark slot

/-- STEP_MARK: the marks of one cycle, on the slots given. The entries due in that cycle, of either slot, act in the order of R45, and the window states
are taken at its end (R90). -/
def Leaf.stepMarks (l : Leaf) (slots : BitVec 2) (viaPort : Bool) : Leaf :=
  l.inCycle (fun l =>
    let n := ([0, 1].filter (fun s => bit slots s)).foldl (fun (x : Leaf) s => x.stepMark s viaPort) l
    let took := [0, 1].any (fun s => decide ((n.u.step s).acceptedAt ≠ (l.u.step s).acceptedAt))
    if took then n.fireReached [0, 1] else n)

/-! ### Attaching and seeding (R41) -/

/-- The 48-bit seed of a slot. -/
def StepClk.seed (c : StepClk) : W48 := c.seedH ++ c.seedL

/-- A slot is attached (R41, R47, R70, R78): P starts from its seed, pending swaps of the slot happen at once, and the sampler
starts over. -/
def Leaf.attach (l : Leaf) (slot : Nat) : Leaf :=
  let l := l.slotSwap slot
  let l := l.samplerAttach slot
  let l := { l with sch := { l.sch with fired := l.sch.fired.filter (fun e => decide (e.1 / 64 ≠ slot)) } }
  l.blk (fun u =>
    let c := u.step slot
    let c := { c with en := true, haveMark := false, overrun := false }
    u.setStep slot (if c.seed ≠ 0 then { c with per := c.seed, estValid := true } else { c with estValid := false }))

/-- A slot is detached: its sample read in progress is abandoned (R74), and a pending swap of it happens at once (R47). -/
def Leaf.detach (l : Leaf) (slot : Nat) : Leaf :=
  let l := l.abandon (fun s => s = slot)
  let l := l.blk (fun u => u.setStep slot { u.step slot with en := false })
  let l := if (l.selList slot).pend then l.selSwapNow slot else l
  l.slotSwap slot

/-- A write of `STEP.CTL` of a slot; STEP_SLOT_ENABLE is the one that sets en (R41, R43). -/
def Leaf.stepCtl (l : Leaf) (slot : Nat) (w : W32) : Leaf :=
  let was := (l.u.step slot).en
  let l := l.blk (fun u => u.setStep slot { u.step slot with notice := bit w 30, k := fld w 8 3, regOnly := bit w 1 })
  if bit w 31 && !was then l.attach slot else if !bit w 31 && was then l.detach slot else l

/-- PSEED_WRITE: the high half of a slot's seed; while the slot is not attached the pair is taken when it is not zero (R41). -/
def Leaf.pseedHigh (l : Leaf) (slot : Nat) (w : W16) : Leaf :=
  l.blk (fun u =>
    let c := { u.step slot with seedH := w }
    u.setStep slot (if !c.en && decide (c.seed ≠ 0) then { c with per := c.seed, estValid := true } else c))

/-- A write of the low half of a seed never changes P. -/
def Leaf.pseedLow (l : Leaf) (slot : Nat) (w : W32) : Leaf := l.blk (fun u => u.setStep slot { u.step slot with seedL := w })

/-- IDX_SET_WRITE: the index is taken at the slot's next accepted mark (R40). -/
def Leaf.idxSet (l : Leaf) (slot : Nat) (w : W32) : Leaf :=
  l.blk (fun u => u.setStep slot { u.step slot with idxSet := w, idxPend := true })

/-- ANG_READ: the angle is read, and the index and TB1 are latched in the same cycle (R43). -/
def Blk.angRead (u : Blk) (slot : Nat) : Blk :=
  let c := u.step slot
  u.setStep slot { c with latIdx := c.idx, latTb1 := u.clk.tb1 }

end Sys2Proof.Machine
end

