-- ==== Sys2Proof/Machine/Zstd.lean ====
section
/-!
DEFINITION. What the body of a compressed Zstandard block decodes to (spec/15_compression.md, R324, R326): Huffman literals, FSE tables, sequences and
repeat offsets. The spec names RFC 8878 and its parts and gives none of their layouts or tables: these are RFC 8878's (PRESUMED).
-/

namespace Sys2Proof.Machine

/-! ### Bitstreams -/

/-- A bitstream that is read from its end: the bytes as one number, and how many bits below the read position are left. -/
structure BackBits where
  bits : Nat
  left : Nat
deriving DecidableEq, Repr

/-- A stream's bytes: its highest set bit, in the last byte, only marks the end. -/
def backBits (l : List Byte) : Option BackBits :=
  let x := numAt l 0 l.length
  match l.getLast? with
  | some b => if b = 0 then none else some ⟨x, Nat.log2 x⟩
  | none => none

/-- The next `n` bits; none where fewer are left. -/
def BackBits.read (s : BackBits) (n : Nat) : Option (Nat × BackBits) :=
  if s.left < n then none else some ((s.bits >>> (s.left - n)) % 2 ^ n, { s with left := s.left - n })

/-- The next `n` bits without taking them, with zeros past the beginning of the stream. -/
def BackBits.peek (s : BackBits) (n : Nat) : Nat :=
  if n ≤ s.left then (s.bits >>> (s.left - n)) % 2 ^ n else s.bits % 2 ^ s.left * 2 ^ (n - s.left)

/-! ### FSE tables -/

/-- One state of an FSE table: its symbol, how many bits its next state is read from, and the base they add to. -/
structure FseCell where
  sym : Nat
  nb : Nat
  base : Nat
deriving DecidableEq, Repr

/-- An FSE decoding table: its accuracy and its states. An RLE table has accuracy 0 and one state. -/
structure FseTable where
  log : Nat
  cells : List FseCell
deriving DecidableEq, Repr

def FseTable.rle (sym : Nat) : FseTable := ⟨0, [⟨sym, 0, 0⟩]⟩
def FseTable.cell (t : FseTable) (state : Nat) : FseCell := t.cells.getD state ⟨0, 0, 0⟩

/-- The cells of a table in state order from the symbol of each: `next` counts, by symbol, the number its next state is built from. -/
def fseCells (log : Nat) : List Nat → List Nat → List FseCell
  | [], _ => []
  | s :: r, next =>
    let x := next.getD s 1
    let nb := log - Nat.log2 x
    ⟨s, nb, x * 2 ^ nb - 2 ^ log⟩ :: fseCells log r (next.set s (x + 1))

/-- A decoding table from its probabilities by symbol; -1 stands for less than one. -/
def fseTable (log : Nat) (probs : List Int) : FseTable :=
  let size := 2 ^ log
  let syms := (List.range probs.length).zip probs
  let rare := (syms.filter (fun e => decide (e.2 = -1))).map (·.1)
  let high := size - rare.length
  let step := size / 2 + size / 8 + 3
  let places := ((List.range size).map (fun i => i * step % size)).filter (fun p => decide (p < high))
  let spread := places.zip (syms.flatMap (fun e => List.replicate e.2.toNat e.1))
  let row := spread.foldl (fun (l : List Nat) e => l.set e.1 e.2) (List.replicate high 0)
  ⟨log, fseCells log (row ++ rare.reverse) (probs.map (fun (p : Int) => if p = -1 then 1 else p.toNat))⟩

/-- The probabilities of a table description, with `remaining` cells and one to come: the bits of the description from `at'` on. -/
def fseProbs (x size : Nat) : Nat → Nat → Nat → List Int → Option (List Int × Nat)
  | 0, _, _, _ => none
  | fuel + 1, at', remaining, probs =>
    if remaining ≤ 1 then if remaining = 1 then some (probs, at') else none
    else if size * 8 < at' then none
    else
      let nb := Nat.log2 remaining + 1
      let threshold := 2 ^ (nb - 1)
      let short := 2 * threshold - 1 - remaining
      let v := (x >>> at') % 2 ^ nb
      let low := v % threshold
      let r := if low < short then (low, nb - 1) else (if threshold ≤ v then v - short else v, nb)
      let p : Int := (r.1 : Int) - 1
      let at' := at' + r.2
      let probs := probs ++ [p]
      if p = 0 then
        -- runs of symbols with probability 0: two bits each, 3 goes on
        let more := (List.range 64).find? (fun i => decide ((x >>> (at' + 2 * i)) % 4 ≠ 3))
        match more with
        | none => none
        | some i => fseProbs x size fuel (at' + 2 * (i + 1)) remaining (probs ++ List.replicate (3 * i + (x >>> (at' + 2 * i)) % 4) 0)
      else fseProbs x size fuel at' (remaining - p.natAbs) probs

/-- An FSE table description: its table and how many bytes it took; none where it is invalid. -/
def fseRead (l : List Byte) (maxLog maxSym : Nat) : Option (FseTable × Nat) :=
  let l := l.take 512
  let x := numAt l 0 l.length
  let log := x % 16 + 5
  if l.isEmpty || decide (maxLog < log) then none
  else match fseProbs x l.length 600 4 (2 ^ log + 1) [] with
    | none => none
    | some r =>
      let used := (r.2 + 7) / 8
      if l.length < used || decide (maxSym + 1 < r.1.length) then none else some (fseTable log r.1, used)

/-! ### Huffman tables -/

/-- A Huffman decoding table: the longest code, and by that many bits the symbol and the length of its code. -/
structure Huff where
  log : Nat
  cells : List (Nat × Nat)
deriving DecidableEq, Repr

/-- A table from the weights of all symbols but the last, whose weight makes the sum a power of two. -/
def huffTable (ws : List Nat) : Option Huff :=
  let sum := (ws.map (fun w => if w = 0 then 0 else 2 ^ (w - 1))).sum
  if sum = 0 || ws.any (fun w => 11 < w) || decide (255 < ws.length) then none
  else
    let log := Nat.log2 sum + 1
    let rest := 2 ^ log - sum
    if 11 < log || decide (2 ^ Nat.log2 rest ≠ rest) then none
    else
      let ws := ws ++ [Nat.log2 rest + 1]
      let syms := (List.range ws.length).zip ws
      some ⟨log, (List.range log).flatMap (fun i =>
        (syms.filter (fun e => e.2 = i + 1)).flatMap (fun e => List.replicate (2 ^ i) (e.1, log - i)))⟩

/-- Weights in two interleaved FSE states: each in turn gives a weight and takes its next state; the state that is left over when the bits end gives
the last one. -/
def huffWeights (t : FseTable) : Nat → Nat → Nat → BackBits → List Nat → Option (List Nat)
  | 0, _, _, _, _ => none
  | fuel + 1, a, b, s, ws =>
    let c := t.cell a
    let ws := ws ++ [c.sym]
    match s.read c.nb with
    | none => some (ws ++ [(t.cell b).sym])
    | some r => huffWeights t fuel b (c.base + r.1) r.2 ws

/-- A Huffman tree description: its table and how many bytes it took. -/
def huffRead (l : List Byte) : Option (Huff × Nat) :=
  match l with
  | [] => none
  | h :: r =>
    let n := h.toNat
    if 128 ≤ n then
      let k := n - 127
      let used := (k + 1) / 2
      if r.length < used then none
      else (huffTable ((List.range k).map (fun i => let b := (r.getD (i / 2) 0).toNat; if i % 2 = 0 then b / 16 else b % 16))).map (fun t => (t, 1 + used))
    else
      let d := r.take n
      if r.length < n then none
      else match fseRead d 6 255 with
        | none => none
        | some f => match backBits (d.drop f.2) with
          | none => none
          | some s => match s.read f.1.log with
            | none => none
            | some a => match a.2.read f.1.log with
              | none => none
              | some b => match huffWeights f.1 255 a.1 b.1 b.2 [] with
                | none => none
                | some ws => (huffTable ws).map (fun t => (t, 1 + n))

/-- `n` symbols of a Huffman stream, last first; the stream ends exactly with them. -/
def huffStream (t : Huff) : Nat → BackBits → List Byte → Option (List Byte)
  | 0, s, out => if s.left = 0 then some out else none
  | n + 1, s, out =>
    let c := t.cells.getD (s.peek t.log) (0, 0)
    if s.left < c.2 || c.2 = 0 then none else huffStream t n { s with left := s.left - c.2 } (BitVec.ofNat 8 c.1 :: out)

/-- A Huffman stream of `n` symbols. -/
def huffDecode (t : Huff) (l : List Byte) (n : Nat) : Option (List Byte) :=
  match backBits l with
  | none => none
  | some s => (huffStream t n s []).map List.reverse

/-! ### Blocks -/

/-- What a frame's compressed blocks hand on to the next: the Huffman table, the three sequence tables (literal lengths, offsets, match lengths), and
the repeat offsets. -/
structure ZTables where
  huff : Option Huff
  ll : Option FseTable
  off : Option FseTable
  ml : Option FseTable
  rep : Nat × Nat × Nat
deriving DecidableEq, Repr

def ZTables.start : ZTables := ⟨none, none, none, none, (1, 4, 8)⟩

/-- How a block ends: its tables, the frame's output last byte first; the output limit; or a failure. -/
inductive ZBlockEnd where
  | done (tables : ZTables) (rout : List Byte)
  | limit
  | fail (reason : Nat)
deriving DecidableEq, Repr

/-- The literals section: the literals, the Huffman table, and how many bytes it took. -/
def zLiterals (huff : Option Huff) (bmax : Nat) (l : List Byte) : Option (List Byte × Option Huff × Nat) :=
  match l with
  | [] => none
  | b :: _ =>
    let type := b.toNat % 4
    let sf := b.toNat / 4 % 4
    if type < 2 then
      let hd := if sf % 2 = 0 then 1 else if sf = 1 then 2 else 3
      let n := if sf % 2 = 0 then b.toNat / 8 else numAt l 0 hd / 16
      let used := hd + (if type = 0 then n else 1)
      if l.length < used || decide (bmax < n) then none
      else some (if type = 0 then (l.drop hd).take n else List.replicate n (l.getD hd 0), huff, used)
    else
      let hd := [3, 3, 4, 5].getD sf 3
      let w := [10, 10, 14, 18].getD sf 10
      let v := numAt l 0 hd
      let n := v / 16 % 2 ^ w
      let size := v / 2 ^ (4 + w) % 2 ^ w
      let body := (l.drop hd).take size
      if l.length < hd + size || decide (bmax < n) then none
      else
        let tree : Option (Huff × Nat) := if type = 2 then huffRead body else huff.map (fun t => (t, 0))
        match tree with
        | none => none
        | some t =>
          let d := body.drop t.2
          let lits : Option (List Byte) :=
            if sf = 0 then huffDecode t.1 d n
            else if d.length < 6 then none
            else
              let s := d.drop 6
              let a := numAt d 0 2
              let b := numAt d 2 2
              let c := numAt d 4 2
              let q := (n + 3) / 4
              if s.length < a + b + c || decide (n < 3 * q) then none
              else match huffDecode t.1 (s.take a) q, huffDecode t.1 ((s.drop a).take b) q, huffDecode t.1 ((s.drop (a + b)).take c) q,
                  huffDecode t.1 (s.drop (a + b + c)) (n - 3 * q) with
                | some w, some x, some y, some z => some (w ++ x ++ y ++ z)
                | _, _, _, _ => none
          lits.map (fun x => (x, some t.1, hd + size))

/-- The bases and extra bits of literal-length and match-length codes above the plain ones. -/
def llCode (c : Nat) : Nat × Nat :=
  if c < 16 then (c, 0)
  else ([(16, 1), (18, 1), (20, 1), (22, 1), (24, 2), (28, 2), (32, 3), (40, 3), (48, 4), (64, 6), (128, 7), (256, 8), (512, 9), (1024, 10),
    (2048, 11), (4096, 12), (8192, 13), (16384, 14), (32768, 15), (65536, 16)] : List (Nat × Nat)).getD (c - 16) (0, 0)
def mlCode (c : Nat) : Nat × Nat :=
  if c < 32 then (c + 3, 0)
  else ([(35, 1), (37, 1), (39, 1), (41, 1), (43, 2), (47, 2), (51, 3), (59, 3), (67, 4), (83, 4), (99, 5), (131, 7), (259, 8), (515, 9), (1027, 10),
    (2051, 11), (4099, 12), (8195, 13), (16387, 14), (32771, 15), (65539, 16)] : List (Nat × Nat)).getD (c - 32) (0, 0)

/-- The predefined tables. -/
def llDefault : FseTable := fseTable 6 ([4, 3] ++ List.replicate 11 2 ++ [1, 1, 1] ++ List.replicate 9 2 ++ [3, 2, 1, 1, 1, 1, 1, -1, -1, -1, -1])
def offDefault : FseTable := fseTable 5 (List.replicate 6 1 ++ [2, 2, 2] ++ List.replicate 15 1 ++ List.replicate 5 (-1))
def mlDefault : FseTable := fseTable 6 ([1, 4, 3] ++ List.replicate 6 2 ++ List.replicate 37 1 ++ List.replicate 7 (-1))

/-- One sequence table by its mode: predefined, RLE, FSE-compressed or repeat; the table and the rest of the section. -/
def zTable (mode maxLog maxSym : Nat) (dflt : FseTable) (last : Option FseTable) (l : List Byte) : Option (FseTable × List Byte) :=
  match mode with
  | 0 => some (dflt, l)
  | 1 => match l with
    | [] => none
    | b :: r => if maxSym < b.toNat then none else some (.rle b.toNat, r)
  | 2 => (fseRead l maxLog maxSym).map (fun f => (f.1, l.drop f.2))
  | _ => last.map (fun t => (t, l))

/-- The offset an offset value names after `ll` literals, and the repeat offsets after it. -/
def zOffset (rep : Nat × Nat × Nat) (v ll : Nat) : Nat × Nat × Nat × Nat :=
  if 3 < v then (v - 3, v - 3, rep.1, rep.2.1)
  else
    match (if ll = 0 then v else v - 1) with
    | 0 => (rep.1, rep.1, rep.2.1, rep.2.2)
    | 1 => (rep.2.1, rep.2.1, rep.1, rep.2.2)
    | 2 => (rep.2.2, rep.2.2, rep.1, rep.2.1)
    | _ => (rep.1 - 1, rep.1 - 1, rep.1, rep.2.1)

/-- `n` bytes copied from `off` back onto an output that is kept last byte first. -/
def zCopy (off : Nat) : Nat → List Byte → List Byte
  | 0, rout => rout
  | n + 1, rout => zCopy off n (rout.getD (off - 1) 0 :: rout)

/-- Where an output that would take the block's bytes to `made` and the frame's to `total` ends: at the limit or above the block's maximum. -/
def zOver (room bmax made total : Nat) : Option ZBlockEnd :=
  let past := total - room
  let big := made - bmax
  if past = 0 && big = 0 then none else if big ≤ past then some .limit else some (.fail 0x0504)

/-- The sequences of a block, `n` of them, in the states `a` (literal length), `b` (offset) and `c` (match length); then the literals that are left.
`made` is the block's output so far and `total` the frame's. -/
def zSequences (room bmax : Nat) (tl tf tm : FseTable) (keep : ZTables) :
    Nat → Nat → Nat → Nat → BackBits → List Byte → Nat → Nat → Nat × Nat × Nat → List Byte → ZBlockEnd
  | 0, _, _, _, s, lits, made, total, rep, rout =>
    if s.left ≠ 0 then .fail 0x0504
    else match zOver room bmax (made + lits.length) (total + lits.length) with
      | some e => e
      | none => .done { keep with rep := rep } (lits.reverse ++ rout)
  | n + 1, a, b, c, s, lits, made, total, rep, rout =>
    let la := tl.cell a
    let ob := tf.cell b
    let mc := tm.cell c
    match s.read ob.sym with
    | none => .fail 0x0504
    | some o => match o.2.read (mlCode mc.sym).2 with
      | none => .fail 0x0504
      | some m => match m.2.read (llCode la.sym).2 with
        | none => .fail 0x0504
        | some l =>
          let ll := (llCode la.sym).1 + l.1
          let ml := (mlCode mc.sym).1 + m.1
          let off := zOffset rep (2 ^ ob.sym + o.1) ll
          if lits.length < ll then .fail 0x0504
          else match zOver room bmax (made + ll) (total + ll) with
            | some e => e
            | none =>
              let rout := (lits.take ll).reverse ++ rout
              if off.1 = 0 || decide (total + ll < off.1) then .fail 0x0504
              else match zOver room bmax (made + ll + ml) (total + ll + ml) with
                | some e => e
                | none =>
                  let rout := zCopy off.1 ml rout
                  let go := fun (a b c : Nat) (s : BackBits) =>
                    zSequences room bmax tl tf tm keep n a b c s (lits.drop ll) (made + ll + ml) (total + ll + ml) off.2 rout
                  if n = 0 then go a b c l.2
                  else match l.2.read la.nb with
                    | none => .fail 0x0504
                    | some x => match x.2.read mc.nb with
                      | none => .fail 0x0504
                      | some y => match y.2.read ob.nb with
                        | none => .fail 0x0504
                        | some z => go (la.base + x.1) (ob.base + z.1) (mc.base + y.1) z.2

/-- A compressed block's body after the frame's output `rout` (last byte first): `room` is the output that the limit leaves the frame. -/
def zBlockRead (tb : ZTables) (room bmax : Nat) (rout l : List Byte) : ZBlockEnd :=
  match zLiterals tb.huff bmax l with
  | none => .fail 0x0504
  | some x =>
    let lits := x.1
    let tb := { tb with huff := x.2.1 }
    let l := l.drop x.2.2
    let total := rout.length
    match l with
    | [] => .fail 0x0504
    | h :: _ =>
      let n0 := h.toNat
      let hd := if n0 < 128 then 1 else if n0 < 255 then 2 else 3
      let n := if n0 < 128 then n0 else if n0 < 255 then (n0 - 128) * 256 + numAt l 1 1 else numAt l 1 2 + 0x7F00
      if l.length < hd then .fail 0x0504
      else if n = 0 then
        if l.length ≠ hd then .fail 0x0504
        else match zOver room bmax lits.length (total + lits.length) with
          | some e => e
          | none => .done tb (lits.reverse ++ rout)
      else match l.drop hd with
        | [] => .fail 0x0504
        | m :: r =>
          let m := m.toNat
          if m % 4 ≠ 0 then .fail 0x0501
          else match zTable (m / 64) 9 35 llDefault tb.ll r with
            | none => .fail 0x0504
            | some tl => match zTable (m / 16 % 4) 8 31 offDefault tb.off tl.2 with
              | none => .fail 0x0504
              | some tf => match zTable (m / 4 % 4) 9 52 mlDefault tb.ml tf.2 with
                | none => .fail 0x0504
                | some tm => match backBits tm.2 with
                  | none => .fail 0x0504
                  | some s => match s.read tl.1.log with
                    | none => .fail 0x0504
                    | some a => match a.2.read tf.1.log with
                      | none => .fail 0x0504
                      | some b => match b.2.read tm.1.log with
                        | none => .fail 0x0504
                        | some c =>
                          zSequences room bmax tl.1 tf.1 tm.1 { tb with ll := some tl.1, off := some tf.1, ml := some tm.1 } n a.1 b.1 c.1 c.2 lits 0
                            total tb.rep rout

end Sys2Proof.Machine
end

