-- ==== Sys2Proof/Machine/Compress.lean ====
section
/-!
DEFINITION. Zstandard frames as the compression engines read and write them (spec/15_compression.md, R324 to R332). Frame and block
layout follow RFC 8878 and XXH64 its reference, which the spec names (PRESUMED); what a compressor writes into the body of a compressed block is a
free value that its verifying decoder holds against the block.
-/

namespace Sys2Proof.Machine

/-! ### XXH64 -/

def xxP1 : W64 := 0x9E3779B185EBCA87#64
def xxP2 : W64 := 0xC2B2AE3D27D4EB4F#64
def xxP3 : W64 := 0x165667B19E3779F9#64
def xxP4 : W64 := 0x85EBCA77C2B2AE63#64
def xxP5 : W64 := 0x27D4EB2F165667C5#64

/-- One lane round. -/
def xxRound (acc x : W64) : W64 := (acc + x * xxP2).rotateLeft 31 * xxP1

/-- A little-endian word of the input. -/
def xxWord (l : List Byte) (off : Nat) : W64 := BitVec.ofNat 64 (numAt l off 8)

/-- The four lanes over `n` stripes of 32 bytes. -/
def xxStripes : Nat → W64 × W64 × W64 × W64 → List Byte → W64 × W64 × W64 × W64
  | 0, v, _ => v
  | n + 1, (a, b, c, d), l =>
    xxStripes n (xxRound a (xxWord l 0), xxRound b (xxWord l 8), xxRound c (xxWord l 16), xxRound d (xxWord l 24)) (l.drop 32)

/-- The last `n` bytes one at a time. -/
def xxBytes : W64 → List Byte → W64
  | h, [] => h
  | h, b :: t => xxBytes ((h ^^^ (b.setWidth 64 * xxP5)).rotateLeft 11 * xxP1) t

/-- The last words of 8 bytes, `n` of them, then a word of 4, then single bytes. -/
def xxTail : Nat → W64 → List Byte → W64
  | 0, h, l =>
    if 4 ≤ l.length then
      xxBytes ((h ^^^ (BitVec.ofNat 64 (numAt l 0 4) * xxP1)).rotateLeft 23 * xxP2 + xxP3) (l.drop 4)
    else xxBytes h l
  | n + 1, h, l => xxTail n ((h ^^^ xxRound 0 (xxWord l 0)).rotateLeft 27 * xxP1 + xxP4) (l.drop 8)

/-- XXH64 with seed 0. -/
def xxh64 (l : List Byte) : W64 :=
  let n := l.length / 32
  let h := if n = 0 then xxP5
    else
      let v := xxStripes n (xxP1 + xxP2, xxP2, 0, 0 - xxP1) l
      let m := fun (h x : W64) => (h ^^^ xxRound 0 x) * xxP1 + xxP4
      m (m (m (m (v.1.rotateLeft 1 + v.2.1.rotateLeft 7 + v.2.2.1.rotateLeft 12 + v.2.2.2.rotateLeft 18) v.1) v.2.1) v.2.2.1) v.2.2.2
  let r := l.drop (32 * n)
  let h := xxTail (r.length / 8) (h + BitVec.ofNat 64 l.length) r
  let h := (h ^^^ (h >>> 33)) * xxP2
  let h := (h ^^^ (h >>> 29)) * xxP3
  h ^^^ (h >>> 32)

/-! ### Results (R211, R326, R332) -/

/-- What a compression or decompression ends with: status and reason, the counted output, how many destination bytes after it are
undefined, the input consumed, whether it stopped at its limit, and the block whose verification failed (R329). -/
structure ZOut where
  status : Nat
  reason : Nat
  out : List Byte
  undef : Nat
  consumed : Nat
  stopped : Bool
  vfail : Option Nat
deriving DecidableEq, Repr

/-- Bytes that bring a length to a multiple of 4. -/
def pad4 (n : Nat) : Nat := (4 - n % 4) % 4

/-! ### The compressor (R327, R328, R331) -/

/-- Window_Descriptor of an encoder setting (R328): 256 KiB, 1 MiB, 8 MiB. -/
def windowDescriptor (set : Nat) : Nat := ([18, 20, 23].getD set 18 - 10) * 8

/-- The 6 bytes of a frame header (R327). -/
def zHeader (set : Nat) : List Byte := leBytes 4 0xFD2FB528 ++ leBytes 1 4 ++ leBytes 1 (windowDescriptor set)

/-- A block header: last flag, type, size. -/
def zBlockHead (last : Bool) (type size : Nat) : List Byte := leBytes 3 (last.toNat + type * 2 + size * 8)

/-- Every byte of a list is the same. -/
def allSame : List Byte → Bool
  | [] => false
  | b :: t => t.all (fun x => x = b)

/-- A block of input as it is written (R327): RLE, raw, or compressed; its type and body. Of the free value `zBlock` nothing is known. -/
def zEncode (set : Nat) (before block : List Byte) : Nat × List Byte :=
  if allSame block then (1, block.take 1)
  else
    let c := Config.zBlock set before block
    if c.length < block.length then (2, c) else (0, block)

/-- The window of an encoder setting in bytes (R328). -/
def zWindow (set : Nat) : Nat := 2 ^ [18, 20, 23].getD set 18

/-- The verifying decoder (R329): what a compressed body decodes to after the input before it, in the tables the frame has come to; the tables after it
where that is the block. -/
def zVerify (tb : ZTables) (set : Nat) (before block body : List Byte) : Option ZTables :=
  match zBlockRead tb (before.length + block.length) (min (zWindow set) 131072) before.reverse body with
  | .done tb rout => if rout = (before ++ block).reverse then some tb else none
  | _ => none

/-- The end of a frame: checksum over the input consumed, and padding (R327). -/
def zClose (out input : List Byte) : List Byte :=
  let o := out ++ leBytes 4 ((xxh64 input).toNat % 2 ^ 32)
  o ++ List.replicate (pad4 o.length) 0

/-- The frame ends before the input does (R331): an empty raw last block, checksum and padding; with no block written the command
fails with reason 0x050A. `status` is 0 for the output limit and 8 for a poisoned source word. -/
def zStop (out before : List Byte) (blocks status : Nat) : ZOut :=
  if blocks = 0 then
    if status = 0 then ⟨7, 0x050A, [], 0, 0, true, none⟩ else ⟨status, 0, [], 0, 0, true, none⟩
  else ⟨status, 0, zClose (out ++ zBlockHead true 0 0) before, 0, before.length, true, none⟩

/-- The blocks of a frame: `fuel` bounds them; `poison` is the offset of the first poisoned source byte, `bad` the block whose
verification an injection spoils. The bytes already written, in whole words, are undefined after a mismatch (R329). -/
def zBlocks (set limit : Nat) (poison bad : Option Nat) : Nat → ZTables → List Byte → List Byte → List Byte → Nat → ZOut
  | 0, _, out, before, _, blocks => zStop out before blocks 0
  | fuel + 1, tb, out, before, rest, blocks =>
    let block := rest.take 131072
    let rest' := rest.drop 131072
    let poisoned := match poison with | some p => decide (p < before.length + block.length) | none => false
    let x := zEncode set before block
    let e := zBlockHead rest'.isEmpty x.1 (if x.1 = 2 then x.2.length else block.length) ++ x.2
    let good := if x.1 = 2 then zVerify tb set before block x.2 else some tb
    if poisoned then zStop out before blocks 8
    else if limit < out.length + e.length + 10 then zStop out before blocks 0
    else match good with
      | none => ⟨7, 0x0507, [], out.length + pad4 out.length, 0, false, some blocks⟩
      | some tb =>
        if bad = some blocks then ⟨7, 0x0507, [], out.length + pad4 out.length, 0, false, some blocks⟩
        else if rest'.isEmpty then ⟨0, 0, zClose (out ++ e) (before ++ block), 0, before.length + block.length, false, none⟩
        else zBlocks set limit poison bad fuel tb (out ++ e) (before ++ block) rest' (blocks + 1)

/-- Compress an input into one frame within an output limit (R327 to R331). -/
def zCompress (set limit : Nat) (poison bad : Option Nat) (input : List Byte) : ZOut :=
  zBlocks set limit poison bad (input.length / 131072 + 1) .start (zHeader set) [] input 0

/-! ### The decompressor (R324 to R326, R330) -/

/-- How decoding a frame's blocks ends: the decoded bytes and the rest of the input, the output limit, or a failure. -/
inductive ZFrame where
  | done (out rest : List Byte)
  | limit
  | fail (reason : Nat)
deriving DecidableEq, Repr

/-- A frame header: its size, the window, the content size where it declares one, and whether a checksum follows. -/
structure ZHead where
  size : Nat
  window : Nat
  content : Option Nat
  checksum : Bool
deriving DecidableEq, Repr

/-- Read a frame header after the magic (R324, R326): descriptor, window, dictionary and content size in their order, each failing when decoding
reaches it. -/
def zReadHead (l : List Byte) (maxWindow : Nat) : Nat ⊕ ZHead :=
  match l with
  | [] => .inl 0x0506
  | d :: _ =>
    let single := bit d 5
    let nd := [0, 1, 2, 4].getD (fld d 0 2) 0
    let nf := [if single then 1 else 0, 2, 4, 8].getD (fld d 6 2) 0
    let nw := if single then 0 else 1
    let wd := numAt l 1 1
    let dict := numAt l (1 + nw) nd
    let fcs := numAt l (1 + nw + nd) nf + (if nf = 2 then 256 else 0)
    let base := 2 ^ (10 + wd / 8)
    let window := if single then fcs else base + base / 8 * (wd % 8)
    if bit d 3 then .inl 0x0501
    else if l.length < 1 + nw then .inl 0x0506
    else if !single && decide (maxWindow < window) then .inl 0x0502
    else if l.length < 1 + nw + nd then .inl 0x0506
    else if dict ≠ 0 then .inl 0x0503
    else if l.length < 1 + nw + nd + nf then .inl 0x0506
    else if maxWindow < window then .inl 0x0502
    else .inr ⟨1 + nw + nd + nf, window, if nf = 0 then none else some fcs, bit d 2⟩

/-- A raw or RLE block of `n` bytes that are there of `size`: its bytes go to the output as the limit lets them (R330). -/
def zPlain (tb : ZTables) (room size : Nat) (rout d : List Byte) : ZBlockEnd :=
  if room < rout.length + d.length then .limit
  else if d.length < size then .fail 0x0506
  else .done tb (d.reverse ++ rout)

/-- Decode a frame's blocks: `fuel` bounds them, `room` is how many output bytes the limit allows the frame, `rout` its output, last byte first. -/
def zReadBlocks (h : ZHead) (room : Nat) : Nat → ZTables → List Byte → List Byte → ZFrame
  | 0, _, _, _ => .fail 0x0506
  | fuel + 1, tb, rout, l =>
    if l.length < 3 then .fail 0x0506
    else
      let w := numAt l 0 3
      let size := w / 8
      let type := w / 2 % 4
      let bmax := min h.window 131072
      let body := l.drop 3
      let used := if type = 1 then 1 else size
      if type = 3 || bmax < size then .fail 0x0504
      else if type ≠ 0 && decide (body.length < used) then .fail 0x0506
      else
        let r := if type = 0 then zPlain tb room size rout (body.take size)
          else if type = 1 then zPlain tb room size rout (List.replicate size (body.headD 0))
          else zBlockRead tb room bmax rout (body.take size)
        match r with
        | .fail e => .fail e
        | .limit => .limit
        | .done tb rout =>
          if w % 2 = 1 then
            let out := rout.reverse
            let rest := body.drop used
            let badSize := match h.content with | some c => decide (c ≠ out.length) | none => false
            if h.checksum && decide (rest.length < 4) then .fail 0x0506
            else if badSize || (h.checksum && decide (numAt rest 0 4 ≠ (xxh64 out).toNat % 2 ^ 32)) then .fail 0x0505
            else .done out (if h.checksum then rest.drop 4 else rest)
          else zReadBlocks h room fuel tb rout (body.drop used)

/-- The magic of a Zstandard frame, and of skippable frames (R324). -/
def zMagic : Nat := 0xFD2FB528
def zSkippable (m : Nat) : Bool := decide (0x184D2A50 ≤ m) && decide (m ≤ 0x184D2A5F)

/-- Decompression over frames: `fuel` bounds them, `total` is the input's length, so that offsets count from its start (R325); `any` tells that a frame
has been decoded (R332). -/
def zFrames (limit maxWindow total : Nat) : Nat → Bool → List Byte → List Byte → ZOut
  | 0, _, out, l => ⟨0, 0, out, 0, total - l.length, false, none⟩
  | fuel + 1, any, out, l =>
    let at' := total - l.length
    let stop : ZOut :=
      if !any then ⟨7, 0x050A, [], limit, 0, true, none⟩ else ⟨0, 0, out, limit - out.length, at', true, none⟩
    let failAt := fun (r : Nat) (out : List Byte) (n : Nat) => (⟨7, r, out, limit - out.length, n, false, none⟩ : ZOut)
    let fail := fun (r : Nat) => failAt r out at'
    -- a frame ends with `rest` left: padding to a multiple of 4 follows, and a failure there leaves the frame counted
    let next := fun (any : Bool) (out rest : List Byte) =>
      let n := min (pad4 (total - rest.length)) rest.length
      if (rest.take n).all (fun b => b = 0) then zFrames limit maxWindow total fuel any out (rest.drop n)
      else failAt 0x0501 out (total - rest.length)
    if l.isEmpty then ⟨0, 0, out, 0, at', false, none⟩
    else if l.length < 4 then fail 0x0506
    else
      let m := numAt l 0 4
      if zSkippable m then
        let n := numAt l 4 4
        if l.length < 8 + n then fail 0x0506 else next any out (l.drop (8 + n))
      else if m ≠ zMagic then fail 0x0501
      else
        match zReadHead (l.drop 4) maxWindow with
        | .inl r => fail r
        | .inr h =>
          let tooBig := match h.content with | some c => decide (limit < out.length + c) | none => false
          if tooBig then stop
          else
            match zReadBlocks h (limit - out.length) l.length .start [] (l.drop (4 + h.size)) with
            | .fail r => fail r
            | .limit => stop
            | .done d rest => next true (out ++ d) rest

/-- Decompress an input within an output limit (R324 to R326, R330). A poisoned source word ends the input there with status 8. -/
def zDecompress (limit maxWindow : Nat) (input : List Byte) : ZOut :=
  zFrames limit maxWindow input.length input.length false [] input

/-- The bytes a result leaves in the destination: the counted output filled with zeros to whole words, then undefined ones. -/
def ZOut.bytes (z : ZOut) (fresh : Nat) : List Byte :=
  let o := z.out ++ List.replicate (pad4 z.out.length) 0
  o ++ (List.range (z.undef - pad4 z.out.length)).map (fun i => Config.undefByte fresh i)

end Sys2Proof.Machine
end

