-- ==== Sys2Proof/Machine/JobTypes.lean ====
section
/-!
DEFINITION. The T build's health units and continuity operations as data (spec/13_health_containment.md, spec/16_job_continuity.md).
-/

namespace Sys2Proof.Machine

/-! ### Health (R276 to R301) -/

/-- The state of a die (R290). -/
inductive DieState where
  | healthy | watch | contained | held | expelled
deriving DecidableEq, Repr

def DieState.code : DieState → Nat
  | .healthy => 0 | .watch => 1 | .contained => 2 | .held => 3 | .expelled => 4

/-- What the health unit keeps of a member (R288 to R299). `known` is false while a state query is unanswered; `lv`, `up` and `down` are the
levels that are in and their counts; `asked` is the step of its last grant request, `askedAt` when those without an answer were sent, oldest first, and
`asks` the steps of the unit's own requests for it that still wait in its queue, oldest first; the rest is its last evaluation. -/
structure Die where
  known : Bool
  state : DieState
  sw : Bool
  lv : SMap Nat
  up : SMap Nat
  down : SMap Nat
  rseq : W32
  asked : Option W32
  askedAt : List Nat
  asks : List W32
  again : Bool
  h : Nat
  missing : Byte
  witness : Byte
  idx : Option Int
  adv : Nat
  vals : SMap Int
  contrib : SMap Nat
  seenEval : Bool
deriving DecidableEq, Repr

def Die.reset : Die :=
  ⟨false, .healthy, false, [], [], [], 0, none, [], [], false, 0, 0, 0, none, 0, [], [], false⟩

/-- A value that the health unit was sent: a member's feature (or score feature) at a step and point of a replay epoch (R278). -/
structure HVal where
  mem : Nat
  step : W32
  epoch : Byte
  point : Nat
  feature : Nat
  word : W32
deriving DecidableEq, Repr

/-- A cut of a pan set as the health unit remembers it for the step under way: CUSUM alarms and statuses of members (R285). -/
structure HCut where
  pset : Nat
  step : W32
  epoch : Byte
  point : Nat
  alarms : SMap (List Nat)
  gave : List Nat
  status : List Nat
deriving DecidableEq, Repr

/-- A job-wide reference applied (R281): its grid, its step and its value. -/
structure Ref where
  s : Int
  step : W32
  value : Int
deriving DecidableEq, Repr

/-- The key of a reference: the feature and the grid it is on. -/
def refKey (feature : Nat) (s : Int) : Nat := feature * 256 + (BitVec.ofInt 8 s).toNat

/-- One slot's health unit and expulsion budget (R276, R297). `refs` is keyed by feature and grid (`refKey`). -/
structure HSlot where
  dies : SMap Die
  vals : List HVal
  cuts : List HCut
  refs : SMap Ref
  knots : SMap (W32 × Nat)
  hseq : W32
  evals : W32
  nowit : Nat
  refrx : W32
  refbad : Nat
  g : Nat
  r : Nat
  lastExp : Option W32
  raisedAt : Option W32
  lost : Bool
deriving DecidableEq, Repr

def HSlot.reset : HSlot := ⟨[], [], [], [], [], 0, 0, 0, 0, 0, 0, 0, none, none, false⟩

/-- What a slot's unit keeps when its dies' state is discarded (R277): its counts, its knots, a harvest lost and what the budget holder holds. -/
def HSlot.kept (h : HSlot) : HSlot :=
  { HSlot.reset with knots := h.knots, hseq := h.hseq, evals := h.evals, nowit := h.nowit, refrx := h.refrx, refbad := h.refbad,
                     g := h.g, r := h.r, lastExp := h.lastExp, raisedAt := h.raisedAt, lost := h.lost }

/-! ### Continuity (R338 to R363) -/

/-- A child in a broadcast (R344): when it was sent the last part, its hop acknowledgement, whether it is orphaned, the link of the alternate that covers it, and how
often a teardown part was resent. -/
structure Hop where
  sentAt : Nat
  ack : Option Nat
  orphan : Bool
  covered : Option Nat
  resent : Nat
deriving DecidableEq, Repr

/-- A leaf in an attach (R340): when it was sent, and its status once it acknowledged. -/
structure Att where
  sentAt : Nat
  status : Option Nat
  noted : Bool
deriving DecidableEq, Repr

/-- A continuity descriptor held at a node (R342, R348): parts received, the children, the leaves, deferred members, how far it has come, and where
it stands in the start cache (R345), in 64 KiB units from its base. -/
structure Desc where
  kind : Nat
  job : W32
  bseq : W32
  txid : W32
  nparts : Nat
  parts : SMap (List Byte)
  coord : Bool
  queue : Option Nat
  hops : SMap Hop
  leaves : SMap Att
  deferred : List (List Byte)
  relAt : Option Nat
  applied : Bool
  forced : Bool
  cell : Option Nat
deriving DecidableEq, Repr

/-- The bytes of a descriptor held at a node, and whether it is held whole. -/
def Desc.bytes (x : Desc) : List Byte := (x.parts.map (·.2)).flatten
def Desc.complete (x : Desc) : Bool := decide (x.parts.length = x.nparts) && decide (x.nparts ≠ 0)

/-- The 64 KiB units of the start cache that a descriptor takes (R345). -/
def Desc.units (x : Desc) : Nat := (x.bytes.length + 65535) / 65536

/-- One version of a decided pair (R355): its digest, length, holders, writer, former writers, who marked it written, and whether it is thin. -/
structure Version where
  digest : BitVec 256
  len : Nat
  holders : List Nat
  writer : Option Nat
  former : List Nat
  written : Option Nat
  excluded : List Nat
deriving DecidableEq, Repr

/-- A decided pair (replica group, chunk). -/
structure Pair where
  group : Nat
  chunk : Nat
  versions : List Version
deriving DecidableEq, Repr

/-- A census (R352 to R359): members by place in the leaf table. `reports` holds (length, digest) by member × 2^20 + chunk, `most` the chunks of a
member where the holder knows them, `absent` members with more chunks than the descriptor allows. -/
structure Census where
  job : W32
  step : W32
  epoch : Byte
  desc : List Byte
  reports : SMap (Nat × BitVec 256)
  most : SMap Nat
  torn : List Nat
  absent : List Nat
  pairs : List Pair
  openAt : Nat
  failed : Option Nat
  complete : Bool
deriving DecidableEq, Repr

/-- A spare operation (R360, R361): sources and reports by chunk; `owed` are the chunks whose plan entries wait for Bus Master Enable (R372). -/
structure Spare where
  old : Nat
  spare : W32
  hbuf : Nat
  src : SMap (Option Nat)
  done : SMap Bool
  ready : Bool
  owed : List Nat
deriving DecidableEq, Repr

/-- A job slot's continuity state. -/
structure JSlot where
  census : Option Census
  kept : Option Census
  plan : Option Spare
  bseq : W32
  forced : Bool
deriving DecidableEq, Repr

def JSlot.reset : JSlot := ⟨none, none, none, 0, false⟩

end Sys2Proof.Machine
end

