-- ==== Sys2Proof/Machine/TrayTypes.lean ====
section
/-!
DEFINITION. The tray build's memory, ingest rings, distributors, cores, queues, models, scores, pan sets and harvests as data
(spec/09_tray_architecture.md to spec/12_tree_ensembles.md, spec/14_host_events_ordering.md).
-/

namespace Sys2Proof.Machine

/-! ### Memory (R191 to R196) -/

/-- The T build's memories. `slice` has one 16-byte line a key (core × 4,096 + line), `brine` and `lp` one byte a key; unlisted keys
read zero. `bad` lists flawed 64-bit words (key as `badKey`): 1 a latent single-bit error, 2 a poisoned word. `groups` holds the
failing physical places of each router group that has any (R187), `chans` the LPDDR5X channels that failed training (R432), and `used` how far each
region of the brine store that holds typed lists has been filled since the tier was initialised (R203). -/
structure Tier where
  slice : SMap (BitVec 128)
  brine : SMap Byte
  lp : SMap Byte
  bad : SMap Nat
  groups : SMap Nat
  chans : Byte
  used : SMap Nat
deriving DecidableEq, Repr

/-! ### PCI Express function and test access (R429, R437) -/

/-- The identifiers of the PCI Express function that the package-internal straps set. -/
structure PciIds where
  vendor : W16
  device : W16
  subVendor : W16
  subsystem : W16
deriving DecidableEq, Repr

/-- The instructions of the T-build TAP (R437). -/
inductive TapInstr where
  | bypass | idcode | samplePreload | extest
  /-- Selects the IEEE 1687 network. -/
  | network
deriving DecidableEq, Repr

/-! ### Ingest rings and reassembly (R179, R205) -/

/-- What a pan set made of a contribution when its ring write was judged (R240), and the step, point and epoch of the contribution. -/
structure Judged where
  pset : Nat
  gen : Nat
  inTime : Bool
  step : W32
  point : Nat
  epoch : Byte
deriving DecidableEq, Repr

/-- A frame or harvest in an ingest ring: its first place, how many it takes, its bytes, its sequence number and when it was written. -/
structure RingItem where
  place : Nat
  count : Nat
  len : Nat
  seq : W32
  at0 : Nat
  judged : List Judged
deriving DecidableEq, Repr

/-- An ingest ring. `bound` is the bound leaf number or child; `written` counts frames; `freed` places wait to be returned as credit since
`freedAt`; `level` is the decimation level sent; `lowFor` counts steps at or below `DEC_LO`; `slot` is the job slot
of its last frame, `gone` the sequence numbers discarded since, `hseqs` the last harvest number of each pan set of a child. -/
structure IRing where
  bound : W32
  items : List RingItem
  next : Nat
  written : W32
  lastSeq : Option W32
  freed : Nat
  freedAt : Nat
  level : Nat
  raisedIn : Option W32
  lowFor : Nat
  slot : Option Nat
  gone : List W32
  hseqs : SMap W32
  changes : Nat
deriving DecidableEq, Repr

/-- A frame, harvest or dump being reassembled (R179, R245, R137). -/
structure Asm where
  seq : W32
  count : Nat
  got : Nat
  bytes : List Byte
  lastAt : Nat
  isOpen : Bool
deriving DecidableEq, Repr

/-! ### Distributors, cores, stealing (R188, R199, R215 to R217) -/

/-- A distributor: the ring it served last, since which TB1 cycle it waits, on which ring and why (0 a stalled multicast, 1 a full score
table, 2 a streamed group's full buffers), how many core cycles of the wait its counter has taken, whether a long stall was reported, and flits sent. -/
structure Dist where
  last : Nat
  stalled : Option W64
  ring : Option Nat
  why : Nat
  noted : Bool
  counted : Nat
  flits : Nat
deriving DecidableEq, Repr

/-- What a work unit computes (R215, R249, R267). -/
inductive Work where
  /-- Walk the trees of the image at position `pos` of a group of the package of `handle`, for a score-table entry. -/
  | tree (handle grp pos entry : Nat)
  /-- Fold frame features on pan core `pc` of a pan set, member `m`. -/
  | fold (pset pc rep m : Nat)
  /-- Fold score features on pan core `pc`. -/
  | score (pset pc rep m : Nat)
  /-- Merge part `part` of pan `pan` of a child's harvest. -/
  | merge (pset pc rep m pan part : Nat)
  /-- Merge a child harvest's tally block on pan core 0. -/
  | tally (pset rep m : Nat)
deriving DecidableEq, Repr

/-- Where a projection arrives: the core, and whether it comes in the data class (R197). -/
structure CoreWay where
  core : Fin 81920
  data : Bool
deriving DecidableEq, Repr

/-- A work unit with its projection: the frame's leaf, sequence number and cut, the words of the projection, whether the unit was
stolen once, the thief it is being copied to, the multicast its projection is a copy of (0: a unicast), and whether its engine has begun it. -/
structure WUnit where
  work : Work
  leaf : W32
  seq : W32
  step : W32
  point : Nat
  epoch : Byte
  words : List W32
  stolen : Bool
  goes : Option Nat
  mc : Nat
  begun : Bool
deriving DecidableEq, Repr

/-- A pending unit of a projection that is no copy of a multicast. -/
def mkUnit (work : Work) (leaf seq step : W32) (point : Nat) (epoch : Byte) (words : List W32) : WUnit :=
  ⟨work, leaf, seq, step, point, epoch, words, false, none, 0, false⟩

/-- A multicast group (R198): whose it is (a package's handle or a pan set's number), of which tree group or pan core and which replica, and the
cores that its entries in the multicast tables reach. -/
structure McGroup where
  model : Bool
  id : Nat
  part : Nat
  rep : Nat
  cores : List Nat
deriving DecidableEq, Repr

/-- A core that steals (R217): the victim it tried last, how many it tried this round, until when it waits (TB1), the victim it has
asked with its room, and the answer: none yet, a refusal, or a grant under way. -/
structure Thief where
  last : Option Nat
  tried : Nat
  waitTo : Option W64
  asked : Option Nat
  room : Nat
  refused : Bool
  moving : Nat
deriving DecidableEq, Repr

/-! ### Command queues (R204 to R214) -/

/-- A command queue: PI and CI modulo 65,536, the staging buffer, and QSTS and QDONE. -/
structure CmdQ where
  pi : Nat
  ci : Nat
  stage : List Byte
  stopped : Bool
  full : Bool
  last : Nat
  done : W32
deriving DecidableEq, Repr

/-- A command that ends: its queue and bytes, its status and result, and whether it is the one its queue has in flight (`main`) or a
transaction member staged in the journal. -/
structure Done where
  q : Nat
  body : List Byte
  status : Nat
  reason : Nat
  result : W64
  late : Bool
  jrn : Bool
  main : Bool
deriving DecidableEq, Repr

/-- How far a command in flight has come; `ended` is one whose completion record waits for a place (R310). -/
inductive Phase where
  | started                        -- journalled, before any engine acted on it
  | running                        -- a data command on its engine
  | waiting                        -- it waits on an event outside its engine (R212)
  | ended
deriving DecidableEq, Repr

/-- A command in flight, one a queue: its class, its 64 bytes, whether it was rerun from the journal, when its wait began, the queue whose
transaction it was a member of, where it is a START or CONTAIN that a commit began (its key is then none of a queue), and the compression engine that it
runs on (R333). -/
structure Flight where
  cls : Nat
  body : List Byte
  phase : Phase
  jrn : Bool
  since : Nat
  aux : Nat
  member : Option Nat
  engine : Option Nat
deriving DecidableEq, Repr

/-- A commit point (R221). -/
inductive Point where
  | immediate
  | podTime (t : W64)
  | stamp (slot : Nat) (s a : W32)
deriving DecidableEq, Repr

/-- From when a table change acts on frames (R222). -/
inductive Since where
  | order
  | time (t : W64)
  | step (s a : W32)
deriving DecidableEq, Repr

/-- A transaction that a queue has open (R220). -/
structure Tx where
  txid : W32
  members : List (List Byte)
  doomed : Bool
deriving DecidableEq, Repr

/-- A decided transaction that waits for its commit point, in decision order. `queue` closes with it; `key` is its (job, txid) where it is
pod-wide, and `levels` that members of other levels are passed over. -/
structure DueTx where
  members : List (List Byte)
  point : Point
  queue : Option Nat
  key : Option (W32 × W32)
  txid : W32
  levels : Bool
deriving DecidableEq, Repr

/-- A child's answer in a pod-wide transaction: its vote and count. -/
structure Vote where
  vote : Nat
  count : Nat
deriving DecidableEq, Repr

/-- A pod-wide transaction at a node (R223 to R226). `queue` is the coordinator's; `parent` the link the prepare came from; `got` the
members by part; `own` whether its own members validated; `inv` whether it is involved; `unacked` the children told to commit. `start` tells that the members are
those of a start or replay descriptor (R342). -/
structure TxNode where
  job : W32
  txid : W32
  queue : Option Nat
  parent : Nat
  parts : Nat
  got : SMap (List (List Byte))
  mode : Nat
  quorum : Bool
  need : Nat
  dead : W64
  point : W64
  votes : SMap Vote
  own : Bool
  inv : Bool
  slot : Option Nat
  voted : Bool
  yes : Bool
  count : Nat
  decided : Option Bool
  copyWait : Bool
  applied : Bool
  unacked : List Nat
  doubt : Bool
  replay : Bool
  start : Bool
deriving DecidableEq, Repr

/-- A decision copy held for another node (R225), or an outcome kept. -/
structure TxCopy where
  job : W32
  txid : W32
  commit : Bool
  count : Nat
deriving DecidableEq, Repr

/-! ### Models and scores (R252 to R274) -/

/-- A node image: where it stands in LPDDR5X, its words and trees, and the first slice line of its node region (R252). -/
structure Img where
  addr : Nat
  words : Nat
  ntree : Nat
  base : Nat
deriving DecidableEq, Repr

/-- A tree group: its ensemble, whether it streams, its projection features, replicas, span, trees, images by span position and cores by replica
and position, and its node bytes (R252). -/
structure Grp where
  ens : Nat
  streamed : Bool
  feats : List Nat
  nrep : Nat
  span : Nat
  ntree : Nat
  imgs : List Img
  coreAt : Nat
  cores : List Nat
  bytes : Nat
deriving DecidableEq, Repr

/-- What a package says (R252): each ensemble's base, the groups, the gatherer cores and the streaming figures. -/
structure Pkg where
  bases : List Int
  groups : List Grp
  gaths : List Nat
  batch : Nat
  csamp : Nat
  nbytes : Nat
  sbytes : Nat
  bcut : Nat
deriving DecidableEq, Repr

/-- A loaded package: its address and length in LPDDR5X, what it says, and the MUNLOAD that waits. -/
structure Model where
  addr : Nat
  len : Nat
  pkg : Pkg
  unloading : Option Done
deriving DecidableEq, Repr

/-- A binding of a handle to a job slot, in force for frames from `since` on and before `upto`. -/
structure Bind where
  slot : Nat
  handle : Nat
  since : Since
  upto : Option Since
deriving DecidableEq, Repr

/-- An entry of a gatherer's score table (R269). `need` and `sum` are per ensemble; `miss` marks ensembles sent as missing. -/
structure ScoreEnt where
  id : Nat
  handle : Nat
  gath : Nat
  leaf : W32
  lslot : Nat
  slot : Nat
  seq : W32
  step : W32
  point : Nat
  epoch : Byte
  ringAt : Nat
  need : List Nat
  sum : List Int
  miss : List Bool
  psets : List (Nat × Nat)
deriving DecidableEq, Repr

/-- A partial on its way to a gatherer (R264); `bad` where its traversal read a poisoned word, at `core` and `line`. -/
structure Partial where
  ent : Nat
  handle : Nat
  ens : Nat
  val : Int
  bad : Bool
  core : Nat
  line : Nat
  leaf : W32
deriving DecidableEq, Repr

/-- A streamed group's two batch buffers (R271): the projections filling since `oldest`, and a batch that is ready or running, with the
units not ended; `closed` that the filling buffer has become ready short and waits for the other's release. -/
structure Batch where
  filling : List WUnit
  oldest : Nat
  ready : Option (List WUnit)
  running : Bool
  left : Nat
  closed : Bool
deriving DecidableEq, Repr

/-- A stream span (R272): the group it loads, the group it walks, and the number after that of the group it ran last. -/
structure Span where
  loading : Option Nat
  walking : Option Nat
  next : Nat
deriving DecidableEq, Repr

/-! ### Pan sets and harvests (R227 to R251) -/

/-- A contribution that a member delivered, as settling needs it (R241): its cut, whether its sequence number left a gap, and the decimation level
it carried and the one before it. -/
structure Came where
  step : W32
  point : Nat
  gap : Bool
  level : Nat
  prev : Nat
deriving DecidableEq, Repr

/-- What a pan set knows of a member: its last sequence number and level, its contributions since the first cut not closed, the leaf slot it uses once a
frame has told it, and the grain of a child's harvests. -/
structure Member where
  lastSeq : Option W32
  level : Nat
  came : List Came
  lslot : Option Nat
  grain : Nat
  changes : Nat
deriving DecidableEq, Repr

/-- A member's in-time part in a cut: the fine cuts (step and point) it delivered, how many frames were stretched, suspect, on hold or without pod
time, whether a score in it is late, and for a child the sums of its tally fields and late counts, the fine cuts whose merge units have been
sent, and how many of those units have not ended. -/
structure Share where
  fines : List (W32 × Nat)
  stretched : Nat
  suspect : Nat
  hold : Nat
  podInv : Nat
  scoreLate : Bool
  late : Nat
  tally : List Nat
  sent : List (W32 × Nat)
  left : Nat
deriving DecidableEq, Repr

/-- A cut (R238, R239). `pend` counts in-time work units and score units not ended; `refs` are the job-wide references at its opening
(feature, then grid and value); `closed` holds the reason, the TB0 time and whether it
is valid, `hseq` the harvest number that it took at its close, and `statuses` the members' statuses (R241): 1 contributed, 2 decimated, 3 withheld, 4 lost,
5 missing, 6 inactive. -/
structure Cut where
  step : W32
  point : Nat
  epoch : Byte
  topen : W64
  openOk : Bool
  openAt : Nat
  bank : Option Nat
  shares : SMap Share
  pend : Nat
  scoreLate : Bool
  refs : SMap (Int × Int)
  closed : Option (Nat × W64 × Bool)
  hseq : W32
  statuses : List Nat
deriving DecidableEq, Repr

/-- A defined pan set. `next` is the first declared cut not closed yet, `fresh` that the series has not begun: no cut of the
present epoch has opened and the slot's clock has no base; `freeing` the
PFREE that waits; `hseq` the number that the next cut to close takes. -/
structure Pset where
  desc : List Byte
  slot : Nat
  since : Since
  gen : Nat
  hseq : W32
  cuts : List Cut
  members : SMap Member
  next : W32 × Nat
  fresh : Bool
  freeing : Option Done
  late : Nat
  lateTot : Nat
  oow : Nat
  stale : Nat
  clipped : Nat
  published : W32
deriving DecidableEq, Repr

/-- A harvest in staging (R243 to R245). `ring` is the host ring it waits for, `relay` that it waits in the relay queue; `endAt` is the host
ring offset behind it once it is written; `sent` that its segments are queued; `noted` that a wait was reported; `base` where it stands in the brine store. -/
structure Staged where
  id : Nat
  pset : Nat
  gen : Nat
  hseq : W32
  step : W32
  point : Nat
  bytes : List Byte
  ring : Option Nat
  relay : Bool
  sent : Bool
  endAt : Option Nat
  paced : Bool
  noted : Bool
  base : Nat
deriving DecidableEq, Repr

/-! ### Host event queues (R303 to R315) -/

/-- A record of a held producer that waits for a place (R310): a completion, a harvest published (its staged harvest and
record payload), or a recovery marker. -/
inductive HeldRec where
  | completion (d : Done)
  | harvest (ring : Nat) (payload : BitVec 160)
  | marker (payload : BitVec 160)
deriving DecidableEq, Repr

/-- A host event queue of the T build. `head` is the staging place of the oldest record that waits. `keep` tells that a rise of en keeps PI and CI; `marked` that the queue has had its recovery marker since
the cold reset; `kept` is the staged count of before a warm reset, until that reset's marker has left its place (R315). -/
structure EvQ where
  staged : List Rec
  head : Nat
  waiting : List HeldRec
  pi : W32
  ci : W32
  unsig : Nat
  unsigAt : Nat
  lost : Nat
  lostCnt : Nat
  lostFirst : W32
  lostLast : W32
  irqs : W32
  last : Option W32
  keep : Bool
  marked : Bool
  kept : Option Nat
  base : W64
  wb : W64
deriving DecidableEq, Repr

/-- The staged count of QSTS: a warm reset keeps it (R315), until its marker leaves its place (DESIGN CHOICE, log 123). -/
def EvQ.count (e : EvQ) : Nat := e.kept.getD e.staged.length

/-- A record of those that the two reserved staging places are for: a gap record or a recovery marker (R310). -/
def Rec.reserved (r : Rec) : Bool := r.carried.isNone && decide (r.kind.page = 0x16) && decide (r.kind.code ≤ 2)

/-- Staging places that ordinary records may fill: 510, and what gap records and markers have taken of the two reserved ones besides (R310). -/
def EvQ.ordinary (e : EvQ) : Nat := 510 + min 2 (e.staged.filter Rec.reserved).length

/-- The current throttle (R202): the issue fraction numerator, intervals at or below 95 % of the cap, the last mean. -/
structure Throttle where
  n : Nat
  calm : Nat
  noted : Bool
  since : Nat
  total : Nat
deriving DecidableEq, Repr

/-! ### Reset values -/

def Tier.reset : Tier := ⟨[], [], [], [], [], 0, []⟩
def IRing.reset : IRing := ⟨0, [], 0, 0, none, 0, 0, 0, none, 0, none, [], [], 0⟩
def Asm.reset : Asm := ⟨0, 0, 0, [], 0, false⟩
def Dist.reset : Dist := ⟨0, none, none, 0, false, 0, 0⟩
def Thief.reset : Thief := ⟨none, 0, none, none, 0, false, 0⟩
def CmdQ.reset : CmdQ := ⟨0, 0, [], false, false, 0, 0⟩
def Batch.reset : Batch := ⟨[], 0, none, false, 0, false⟩
def Span.reset : Span := ⟨none, none, 0⟩
def Member.reset : Member := ⟨none, 0, [], none, 0, 0⟩
def Share.reset : Share := ⟨[], 0, 0, 0, 0, false, 0, [], [], 0⟩
def EvQ.reset : EvQ := ⟨[], 0, [], 0, 0, 0, 0, 0, 0, 0, 0, 0, none, false, false, none, 0, 0⟩
def Throttle.reset : Throttle := ⟨16, 0, false, 0, 0⟩

end Sys2Proof.Machine
end

