-- ==== Sys2Proof/Machine/Tray.lean ====
section
/-!
DEFINITION. The tray build as data.
-/

namespace Sys2Proof.Machine

/-- A leaf's dump that arrives in segments (R137, R180): where it stands in the dump area and how far it reaches, the segment numbers that came, the
number of the last, and whether it is stored, which ends it. `refused` dumps take no further segments. -/
structure LeafDump where
  leaf : W32
  dumpid : W32
  base : Nat
  len : Nat
  segs : List Nat
  last : Option Nat
  stored : Bool
  refused : Bool
deriving DecidableEq, Repr

/-- The T build. `transit` has the projections on their way to each core in the projection class, `dataWay` the merge projections in the data class
(R197); `mcIds` numbers multicasts, and `mct` is what the multicast tables hold, by group (R198). `lives` has the liveness last reported of a member (leaf × 128 + job slot; unlisted 0), `snaps` the snapshot identifier of a leaf,
`ptpDrop` the time messages each port dropped (R55). -/
structure Tray where
  u : Blk
  tier : Tier
  rings : SMap IRing
  asm : SMap Asm
  dists : SMap Dist
  cores : SMap (List WUnit)
  transit : SMap (List WUnit)
  dataWay : SMap (List WUnit)
  mcIds : Nat
  mct : SMap McGroup
  thieves : SMap Thief
  credSince : Option W64
  credCounted : Nat
  queues : SMap CmdQ
  served : SMap Nat
  flights : SMap Flight
  txs : SMap Tx
  nodes : List TxNode
  copies : List TxCopy
  due : List DueTx
  models : SMap Model
  binds : List Bind
  scores : List ScoreEnt
  partials : List Partial
  scoreIds : Nat
  gNoted : Bool
  batches : SMap Batch
  spans : SMap Span
  psets : SMap Pset
  gens : SMap Nat
  staged : List Staged
  stagedIds : Nat
  relay : Nat
  relayRem : Nat
  evqs : SMap EvQ
  thr : Throttle
  hlt : SMap HSlot
  job : SMap JSlot
  descs : List Desc
  bseqs : SMap W32
  lives : SMap Nat
  snaps : SMap W32
  dumps : List LeafDump
  ptpDrop : SMap Nat
  pciIds : PciIds
  tap : TapInstr
deriving DecidableEq, Repr

/-- The identifiers as a cold reset samples the straps (R429). -/
def PciIds.strapped : PciIds := ⟨Config.strap 0, Config.strap 1, Config.strap 2, Config.strap 3⟩

/-- The tray build's reset values. The TAP's first instruction is IDCODE (PRESUMED, IEEE 1149.1; log 112). -/
def Tray.reset : Tray :=
  { u := Blk.reset .tray, tier := Tier.reset, rings := [], asm := [], dists := [], cores := [], transit := [], dataWay := [], mcIds := 0, mct := [], thieves := [],
    credSince := none, credCounted := 0, queues := [], served := [], flights := [], txs := [], nodes := [], copies := [], due := [], models := [],
    binds := [], scores := [], partials := [], scoreIds := 0, gNoted := false, batches := [], spans := [], psets := [], gens := [],
    staged := [], stagedIds := 0, relay := 0, relayRem := 0, evqs := [], thr := Throttle.reset, hlt := [],
    job := [], descs := [], bseqs := [], lives := [], snaps := [], dumps := [], ptpDrop := [],
    pciIds := PciIds.strapped, tap := .idcode }

/-- Change what both builds hold. -/
def Tray.blk (t : Tray) (f : Blk → Blk) : Tray := { t with u := f t.u }

end Sys2Proof.Machine
end

