-- ==== Sys2Proof/Machine/TrayMem.lean ====
section
/-!
DEFINITION. Memory of the tray build: slices, brine store and LPDDR5X with their error correction, poison and areas
(spec/09_tray_architecture.md, R187, R191 to R196; spec/18_errors_injection.md, R384, R385). Spaces are coded as R209 codes them: 0 LPDDR5X,
2 brine store, 3 slice.
-/

namespace Sys2Proof.Machine

/-- The key of a flawed 64-bit word of a space. -/
def badKey (space word : Nat) : Nat := space * 2 ^ 40 + word

def rkUncorrectable : RecKind := rk 0x28 0x0001 3 .always

/-- The counters of corrected and uncorrectable errors of a space. -/
def ceReg (space : Nat) : Nat := if space = 3 then R.MEM_SCE else if space = 2 then R.MEM_BCE else R.MEM_LPCE
def ueReg (space : Nat) : Nat := if space = 3 then R.MEM_SUE else if space = 2 then R.MEM_BUE else R.MEM_LPUE

/-- The code of a flaw: a single-bit error, a double-bit error, a poisoned word. -/
abbrev flawSingle : Nat := 1
abbrev flawDouble : Nat := 2
abbrev flawPoison : Nat := 3

def Tray.flaw (t : Tray) (space word : Nat) : Nat := smGet t.tier.bad (badKey space word) 0
def Tray.setFlaw (t : Tray) (space word f : Nat) : Tray :=
  { t with tier := { t.tier with bad := smSet t.tier.bad (badKey space word) f 0 } }

/-- A word is read (R194, R384): a single-bit error is corrected, counted and written back (LPDDR5X: counted only); a double-bit error is counted,
reported and leaves the word poisoned. -/
def Tray.readWord (t : Tray) (space word : Nat) : Tray :=
  let f := t.flaw space word
  if f = flawSingle then
    let t := if space = 0 then t else t.setFlaw space word 0
    t.blk (fun u => let v := u.bump (ceReg space); { v with er := { v.er with corrected := smUpd v.er.corrected space 0 (· + 1) } })
  else if f = flawDouble then
    (t.setFlaw space word flawPoison).blk (fun u =>
      ((u.bump (ueReg space)).cause 0x28 0 0).report rkUncorrectable .dflt (pay [fd 0x24 1 space, fd 0x28 8 (8 * word)]))
  else t

/-- The flawed words of a space from word `w` up, `n` of them. -/
def Tray.flawed (t : Tray) (space w n : Nat) : List Nat :=
  (t.tier.bad.filter (fun e => badKey space w ≤ e.1 && e.1 < badKey space (w + n))).map (fun e => e.1 - badKey space 0)

/-- The words that the bytes `a` to `a + n - 1` lie in: the first, and how many. -/
def wordsOf (a n : Nat) : Nat × Nat := if n = 0 then (a / 8, 0) else (a / 8, (a + n - 1) / 8 + 1 - a / 8)

/-- Bytes of a space are read: answers whether some word of them is poisoned. -/
def Tray.readBytes (t : Tray) (space a n : Nat) : Tray × Bool :=
  let r := wordsOf a n
  let t := (t.flawed space r.1 r.2).foldl (fun (v : Tray) w => v.readWord space w) t
  (t, (t.flawed space r.1 r.2).any (fun w => t.flaw space w = flawPoison))

/-- Good data is written over bytes of a space: the words it covers whole hold no flaw any more; one covered in part is read, corrected and
written, and a poisoned one stays so. -/
def Tray.wroteBytes (t : Tray) (space a n : Nat) : Tray :=
  let r := wordsOf a n
  (t.flawed space r.1 r.2).foldl (fun (v : Tray) w => if a ≤ 8 * w && 8 * w + 8 ≤ a + n then v.setFlaw space w 0 else v) t

/-- Bytes of LPDDR5X. -/
def Tray.lpBytes (t : Tray) (a n : Nat) : List Byte := smReadBytes t.tier.lp a 0 n
def Tray.lpNum (t : Tray) (a n : Nat) : Nat := leVal (t.lpBytes a n)
def Tray.lpWrite (t : Tray) (a : Nat) (l : List Byte) : Tray :=
  ({ t with tier := { t.tier with lp := smWriteBytes t.tier.lp a 0 l } }).wroteBytes 0 a l.length

/-- Bytes of the brine store. -/
def Tray.brineBytes (t : Tray) (a n : Nat) : List Byte := smReadBytes t.tier.brine a 0 n
def Tray.brineWrite (t : Tray) (a : Nat) (l : List Byte) : Tray :=
  ({ t with tier := { t.tier with brine := smWriteBytes t.tier.brine a 0 l } }).wroteBytes 2 a l.length

/-- A slice line (R191). -/
def Tray.line (t : Tray) (core line : Nat) : BitVec 128 := smGet t.tier.slice (core * 4096 + line) 0
def Tray.setLine (t : Tray) (core line : Nat) (v : BitVec 128) : Tray :=
  ({ t with tier := { t.tier with slice := smSet t.tier.slice (core * 4096 + line) v 0 } }).wroteBytes 3 (core * 65536 + 16 * line) 16

/-- A slice line is read: answers whether it is poisoned. -/
def Tray.readLine (t : Tray) (core line : Nat) : Tray × Bool := t.readBytes 3 (core * 65536 + 16 * line) 16

/-- A 64-bit word of a slice. -/
def Tray.sliceWord (t : Tray) (core word : Nat) : W64 := (t.line core (word / 2)).extractLsb' (64 * (word % 2)) 64

/-- Bytes of a slice. -/
def Tray.sliceBytes (t : Tray) (a n : Nat) : List Byte :=
  (List.range n).map (fun i => (smGet t.tier.slice ((a + i) / 16) 0).extractLsb' (8 * ((a + i) % 16)) 8)

/-! ### LPDDR5X areas (R196) -/

/-- Usable bytes: 7/8 of the populated capacity, less an eighth of that for every channel that failed training (R432). -/
def Tray.lpUsable (t : Tray) : Nat := t.u.rf R.MEM_LPCTL 0 4 * 7 * 2 ^ 27 * (8 - popBelow t.tier.chans.toNat 8)
def areaUnit : Nat := 2 ^ 26
def Tray.strLen (t : Tray) : Nat := t.u.rf R.MEM_LPSTR 0 10 * areaUnit
def Tray.dmpBase (t : Tray) : Nat := t.strLen
def Tray.dmpLen (t : Tray) : Nat := t.u.rf R.MEM_LPDMP 0 10 * areaUnit
def Tray.hisBase (t : Tray) : Nat := t.dmpBase + t.dmpLen
def Tray.hisLen (t : Tray) : Nat := t.u.rf R.MEM_LPHIS 0 10 * areaUnit

/-- What the history area holds (R196): the records on their way to flash, in the order they wait, 64 bytes each from the area's base (the place of
each is the model's, log 108). -/
def Tray.hisArea (t : Tray) : List Byte := (t.u.his.staging.map (fun (i : HItem) => leBytes 64 i.raw.toNat)).flatten

/-- The address of unit `c` of the start cache (R345). -/
def Tray.cacheAddr (t : Tray) (c : Nat) : Nat := 65536 * (t.u.rf R.JOB_CBASE 0 16 + c)

/-- A byte of a descriptor in the start cache. -/
def Tray.cacheByte (t : Tray) (a : Nat) : Option Byte :=
  t.descs.findSome? (fun x => x.cell.bind (fun c => if t.cacheAddr c ≤ a then x.bytes[a - t.cacheAddr c]? else none))

/-- A byte of LPDDR5X: of the history area, the records staged there; of the start cache, its descriptors. -/
def Tray.lpByte (t : Tray) (a : Nat) : Byte :=
  match t.cacheByte a with
  | some b => b
  | none =>
  if t.hisBase ≤ a && a - t.hisBase < min t.hisLen t.hisArea.length then t.hisArea.getD (a - t.hisBase) 0 else smGet t.tier.lp a 0

/-- The brine-store address of the `i`-th record that waits in event queue `j` (R195, R309): 512 places of 64 bytes for each queue, taken in turn
(log 108). -/
def stagingAddr (j head i : Nat) : Nat := 864 * 2 ^ 20 + 32768 * j + 64 * ((head + i) % 512)

/-- Where the regions of the brine store begin that hold typed lists (R195): event staging, harvest staging, the command journal, port buffers, and link
and message buffers. -/
def stagingBase : Nat := 864 * 2 ^ 20
def harvestBase : Nat := 880 * 2 ^ 20
def journalBase : Nat := 976 * 2 ^ 20
def portBase : Nat := 992 * 2 ^ 20
def linkBase : Nat := 1000 * 2 ^ 20

/-- Where the next harvest of `n` bytes is staged: behind the last, or from the region's base where it would run past the end (DESIGN CHOICE, log 108). -/
def Tray.harvestPlace (t : Tray) (n : Nat) : Nat :=
  let e := match t.staged.getLast? with | some x => x.base + x.bytes.length | none => harvestBase
  if e + n ≤ journalBase then e else harvestBase

/-- The members at a node, by part. -/
def TxNode.members (n : TxNode) : List (List Byte) := (n.got.map (·.2)).flatten

/-- A node's members are staged (R218, R225): no outcome is known, or it is not sent while the decision copy is on its way. From then on they wait for the
commit point with what is due, or are gone. -/
def TxNode.stages (n : TxNode) : Bool := n.decided.isNone || n.copyWait

/-- The members that the journal holds (R218), in the order of their places. -/
def Tray.journalMembers (t : Tray) : List (List Byte) :=
  t.txs.flatMap (fun e => e.2.members) ++ t.due.flatMap (fun d => d.members) ++ (t.nodes.filter TxNode.stages).flatMap TxNode.members

/-- Keys of the members that run after their commit: none of a queue. -/
def memberKey0 : Nat := 2048

/-- Where staged members stand in the journal, behind every command in flight (the place is the model's, log 108). -/
def memberPlace : Nat := 4096

/-- The address of journal entry `i` (R218, log 108): a command in flight has the number of its queue or key, a staged member its place behind them. -/
def journalAddr (i : Nat) : Nat := journalBase + 256 * i

/-- What a port's egress buffer holds: the stored words of its messages, each from the next cell on (R167, log 108). -/
def Blk.portStore (u : Blk) (p : Nat) : List Byte :=
  (List.range 8).flatMap (fun q => ((u.port p).queue q).flatMap (fun m =>
    let b := m.stored q
    b ++ List.replicate (256 * m.cells - b.length) 0))

/-- Bytes of a port's egress buffer that messages take. -/
def Blk.portFill (u : Blk) (p : Nat) : Nat := ((List.range 8).map (fun q => (((u.port p).queue q).map (fun m => 256 * m.cells)).sum)).sum

/-- What the link and message buffers hold: segments under reassembly, and retained control messages, in cells as in the ports (R195, log 108). -/
def Tray.linkStore (t : Tray) : List Byte :=
  t.asm.flatMap (fun e => e.2.bytes) ++ t.u.links.flatMap (fun e => e.2.retained.flatMap (fun m =>
    let b := m.stored 1
    b ++ List.replicate (256 * m.cells - b.length) 0))

/-- Bytes that they take. -/
def Tray.linkFill (t : Tray) : Nat :=
  (t.asm.map (fun e => e.2.bytes.length)).sum + (t.u.links.map (fun e => (e.2.retained.map (fun m => 256 * m.cells)).sum)).sum

/-- The byte that stands at an address of the typed regions, if something stands there now. -/
def Tray.typedByte (t : Tray) (a : Nat) : Option Byte :=
  if a < harvestBase then
    let o := a - stagingBase
    let e := smGet t.evqs (o / 32768) EvQ.reset
    (e.staged[(o % 32768 / 64 + 512 - e.head % 512) % 512]?).map (fun r => r.ramBits.extractLsb' (8 * (o % 64)) 8)
  else if a < journalBase then t.staged.findSome? (fun x => if x.base ≤ a then x.bytes[a - x.base]? else none)
  else if a < portBase then
    let i := (a - journalBase) / 256
    let body := if i < memberPlace then (smGet? t.flights i).map Flight.body else t.journalMembers[i - memberPlace]?
    body.bind (fun b => b[(a - journalBase) % 256]?)
  else if a < linkBase then (t.u.portStore ((a - portBase) / 2 ^ 20))[(a - portBase) % 2 ^ 20]?
  else t.linkStore[a - linkBase]?

/-- The typed region that an address lies in, as its fill is recorded, and the place in it: the share of each event queue counts for itself. -/
def typedRegion (a : Nat) : Nat × Nat :=
  if a < harvestBase then ((a - stagingBase) / 32768, (a - stagingBase) % 32768)
  else if a < journalBase then (512, a - harvestBase)
  else if a < portBase then (513, a - journalBase)
  else if a < linkBase then (514 + (a - portBase) / 2 ^ 20, (a - portBase) % 2 ^ 20)
  else (522, a - linkBase)

/-- How far the typed regions are filled now. -/
def Tray.typedFill (t : Tray) : List (Nat × Nat) :=
  t.evqs.map (fun e => (e.1, 64 * min 512 (e.2.head + e.2.staged.length))) ++
  [(512, (t.staged.map (fun x => x.base + x.bytes.length - harvestBase)).foldl max 0),
   (513, max ((t.flights.map (fun e => 256 * (e.1 + 1))).foldl max 0) (if t.journalMembers.isEmpty then 0 else 256 * (memberPlace + t.journalMembers.length)))] ++
  t.u.ports.map (fun e => (514 + e.1, t.u.portFill e.1)) ++ [(522, t.linkFill)]

/-- The fill of the typed regions is recorded. -/
def Tray.markUsed (t : Tray) : Tray :=
  let used := t.typedFill.foldl (fun (m : SMap Nat) x => if smGet m x.1 0 < x.2 then smPut m x.1 x.2 else m) t.tier.used
  { t with tier := { t.tier with used := used } }

/-- A byte of the brine store. A place of a typed region that nothing has filled since the tier was initialised reads zero (R203); one that has been filled
and stands empty reads a free value. -/
def Tray.brineAt (t : Tray) (a : Nat) : Byte :=
  if a < stagingBase then smGet t.tier.brine a 0
  else match t.typedByte a with
    | some b => b
    | none => if (typedRegion a).2 < smGet t.tier.used (typedRegion a).1 0 then Config.brineByte t.u.fresh t.u.clk.ival a else 0

/-- A layout register is written (R196): only while the controller is off, and a layout past the usable capacity is refused. -/
def Tray.layoutWrite (t : Tray) (k : Nat) (w : W32) : Tray :=
  if t.u.rb R.MEM_LPCTL 31 then t
  else
    let u := t.u.setReg k (w &&& 0x3FF#32)
    let sum := (u.rf R.MEM_LPSTR 0 10 + u.rf R.MEM_LPDMP 0 10 + u.rf R.MEM_LPHIS 0 10) * areaUnit
    if t.lpUsable < sum then t.blk (fun u => u.cause 0x28 0 2) else { t with u := u }

/-! ### Router groups (R186, R187) -/

/-- A router group is disabled: two or more of its 17 physical cores fail. -/
def groupOff (fails : Nat) : Bool := decide (2 ≤ popBelow fails 17)

/-- A core is usable. -/
def Tray.coreOk (t : Tray) (c : Nat) : Bool := decide (c < 81920) && !groupOff (smGet t.tier.groups (c / 16) 0)

def Tray.disabledGroups (t : Tray) : Nat := (t.tier.groups.filter (fun e => groupOff e.2)).length

/-- PATROL_SCRUB: the word of a space that falls due is read and corrected (R194). `found` is what the read finds there besides a flaw that is known: a
single-bit error, a double-bit error, or none. Through a cold reset the scrub goes on (R203) and the registers keep the values of the reset (R374). -/
def Tray.scrub (t : Tray) (space word found : Nat) : Tray :=
  let r := (if found = 0 || t.flaw space word ≠ 0 then t else t.setFlaw space word found).readWord space word
  if t.u.held = some .cold then { t with tier := r.tier } else r

/-- A memory injection takes effect at once (R388): a bit of the word at the address is flipped, or two are, or it is poisoned. -/
def Tray.injectMem (t : Tray) (f : Nat) : Tray :=
  let space := t.u.rf R.ERR_ISPACE 0 2
  let w := t.u.rn64 R.ERR_IADDR_L R.ERR_IADDR_H / 8
  let was := t.flaw space w
  t.setFlaw space w (if f = flawSingle && was ≠ 0 then max was flawDouble else f)

end Sys2Proof.Machine
end

