-- ==== Sys2Proof/Machine/TrayHev.lean ====
section
/-!
DEFINITION. Host event queues of the tray build (spec/14_host_events_ordering.md, R303 to R315): staging, held producers, gap records, recovery markers,
ring writes and interrupts.
-/

namespace Sys2Proof.Machine

/-- The key of queue `q`'s QCFG or RCFG (R204). -/
def qcfgKey (q : Nat) : Nat := inst (R.QMG_QCFG + 16 * (q % 128)) (q / 128)

/-- A field of a queue's configuration. -/
def Tray.qf (t : Tray) (q lo n : Nat) : Nat := t.u.rf (qcfgKey q) lo n
def Tray.qb (t : Tray) (q i : Nat) : Bool := t.u.rb (qcfgKey q) i

def Tray.evq (t : Tray) (j : Nat) : EvQ := smGet t.evqs j EvQ.reset
def Tray.setEvq (t : Tray) (j : Nat) (e : EvQ) : Tray := { t with evqs := smSet t.evqs j e EvQ.reset }

/-- Places of event queue `j`'s ring (R303): none while n lies outside 12 to 24. -/
def Tray.evCap (t : Tray) (j : Nat) : Nat :=
  let n := t.qf (1536 + j) 24 5
  if 12 ≤ n && n ≤ 24 then 2 ^ (n - 6) else 0

def Tray.evFull (t : Tray) (j : Nat) : Bool := decide (t.evCap j ≤ ((t.evq j).pi - (t.evq j).ci).toNat)

/-- Records of this chapter (R323). -/
def rkGap : RecKind := rk 0x16 0x0001 2 .bySeverity
def rkTrayMarker : RecKind := rk 0x16 0x0002 1 .always

/-- A record takes a staging place of a queue. -/
def Tray.place (t : Tray) (j : Nat) (r : Rec) : Tray :=
  let e := t.evq j
  ((t.wroteBytes 2 (stagingAddr j e.head e.staged.length) 64).setEvq j { e with staged := e.staged ++ [r] }).blk (fun u =>
    u.peak (inst R.HEVT_SPEAK j) (e.staged.length + 1))

/-- A record is created and taken from the recorder at once (R310): the recorder's ring must be drained. -/
def Tray.createTake (t : Tray) (k : RecKind) (p : BitVec 160) : Tray × Option Rec :=
  let u := t.u.create (t.u.draft k .dflt p) false
  let r := u.rcd.ring.getLast?
  ({ t with u := { u with rcd := { u.rcd with ring := u.rcd.ring.dropLast, isOpen := false } } }, r)

/-- A record of a held producer is created and staged in one cycle (R310, R320). -/
def Tray.createPlace (t : Tray) (j : Nat) (k : RecKind) (p : BitVec 160) : Tray :=
  let r := t.createTake k p
  match r.2 with
  | some x => r.1.place j x
  | none => r.1

/-- A marker's payload (R315). -/
def markerPay (kind cls lost fromj ended : Nat) (last : Option W32) : BitVec 160 :=
  pay [fd 0x24 1 kind, fd 0x25 1 cls, fd 0x28 4 lost, fd 0x2C 2 fromj, fd 0x2E 2 ended, fd 0x30 4 ((last.map BitVec.toNat).getD 0xFFFFFFFF)]

/-- The parts of a carried record, and which part it is; an ordinary record is the one part of one. -/
def Rec.parts (r : Rec) : Nat × Nat :=
  match r.carried with
  | some c => (fld c 4 4, fld c 0 4)
  | none => (0, 1)

/-- A droppable record takes one of the ordinary places, or is lost (R310); a carried message is lost whole (R313). -/
def Tray.stageRec (t : Tray) (j : Nat) (r : Rec) : Tray :=
  let e := t.evq j
  let after := decide (0 < r.parts.1) && decide (e.lost ≠ 0) && decide (e.lostLast + 1 = r.seq)
  if e.staged.length + (if r.parts.1 = 0 then r.parts.2 else 1) ≤ e.ordinary && !after then t.place j r
  else
    let t := t.setEvq j { e with lost := e.lost + 1, lostCnt := satAdd e.lostCnt 1 0xFFFFFFFF,
                                 lostFirst := if e.lost = 0 then r.seq else e.lostFirst, lostLast := r.seq }
    t.blk (fun u => u.cause 0x16 0 0)

/-- The queue that a record's source page routes to (R309). -/
def Tray.routeOf (t : Tray) (page : Nat) : Nat := t.u.rf (R.HEVT_ROUTE + 4 * page) 0 9

/-- The recorder's oldest closed record takes a staging place in its queue. -/
def Tray.stageOne (t : Tray) : Tray :=
  match t.u.ringHead with
  | none => t
  | some r => (t.blk Blk.ringPop).stageRec (t.routeOf r.kind.page) r

/-- All closed records of the recorder are staged: `n` bounds them. -/
def Tray.drainN (t : Tray) : Nat → Tray
  | 0 => t
  | n + 1 => if t.u.ringHead.isSome then t.stageOne.drainN n else t

/-- The open record closes, and the recorder's records are staged ahead of a record that is created in its staging place. -/
def Tray.drain (t : Tray) : Tray :=
  (t.blk (fun u => { u with rcd := { u.rcd with isOpen := false } })).drainN 130

/-- The recovery marker of a cold reset is the first record of a queue (R315): it is created as the queue is first enabled, or before that as a
producer is first directed to it (DESIGN CHOICE, log 123), so that it precedes every record of the queue in sequence too. -/
def Tray.markNew (t : Tray) (j : Nat) : Tray :=
  if (t.evq j).marked then t
  else
    let t := t.drain
    (t.setEvq j { t.evq j with marked := true }).createPlace j rkTrayMarker (markerPay 0 0xFF 0 0 0 none)

/-- The recovery marker of a warm reset: the first record of every queue that has had one before, created at the reset (R315). What was staged is lost with
the tier and counted. -/
def Tray.markWarm (t : Tray) (j : Nat) : Tray :=
  let e := t.evq j
  let t := t.setEvq j { e with staged := [], waiting := [], keep := true, kept := some e.staged.length }
  t.createPlace j rkTrayMarker (markerPay 1 0xFF e.staged.length 0 0 e.last)

/-! ### Writing the ring (R304 to R306) -/

/-- An interrupt of a queue: it signals every record written before it. -/
def Tray.evSignal (t : Tray) (j : Nat) : Tray :=
  let e := t.evq j
  (t.setEvq j { e with irqs := e.irqs + 1, unsig := 0 }).blk (fun u => u.msixSend (t.qf (1536 + j) 16 6))

/-- Interrupts that are due after a record or a change of the interrupt enable (R306). -/
def Tray.evIrq (t : Tray) (j : Nat) (nowFull : Bool) : Tray :=
  let e := t.evq j
  if t.qb (1536 + j) 29 && decide (e.unsig ≠ 0) && (nowFull || decide (max 1 (t.qf (1536 + j) 8 8) ≤ e.unsig)) then t.evSignal j else t

/-- The queue writes records: it is on, the function is bus master, and the ring has a place. -/
def Tray.evReady (t : Tray) (j : Nat) : Bool :=
  t.qb (1536 + j) 31 && t.u.pw.busMaster && !t.evFull j && !(t.evq j).staged.isEmpty

/-- The oldest staged record leaves its place unwritten and is counted in a gap record: its place holds a poisoned word (R386). -/
def Tray.evDrop (t : Tray) (j : Nat) (r : Rec) : Tray :=
  let e := t.evq j
  (t.setEvq j { e with staged := e.staged.drop 1, kept := none, head := (e.head + 1) % 512, lost := e.lost + 1, lostCnt := satAdd e.lostCnt 1 0xFFFFFFFF,
                       lostFirst := if e.lost = 0 then r.seq else e.lostFirst, lostLast := r.seq }).blk (fun u => u.cause 0x16 0 0)

/-- The oldest staged record is read from the brine store and written: bytes 4 to 63, word 0, and PI where write-back is on, in posted order (R304,
R305). -/
def Tray.evWrite (t : Tray) (j : Nat) : Tray :=
  match (t.evq j).staged with
  | [] => t
  | r :: rest =>
    let rd := t.readBytes 2 (stagingAddr j (t.evq j).head 0) 64
    if rd.2 then rd.1.evDrop j r
    else
    let t := rd.1
    let e := t.evq j
    let a := e.base.toNat + 64 * (e.pi.toNat % t.evCap j)
    let b := leBytes 64 r.ramBits.toNat
    let u := (t.u.hostWrite (a + 4) (b.drop 4)).hostWrite a (b.take 4)
    let pi := e.pi + 1
    let u := if t.qb (1536 + j) 30 then u.hostWrite e.wb.toNat (leBytes 4 pi.toNat) else u
    let at1 := if e.unsig = 0 then u.clk.ival else e.unsigAt
    let t := ({ t with u := u }).setEvq j { e with staged := rest, kept := none, head := (e.head + 1) % 512, pi := pi, unsig := e.unsig + 1, unsigAt := at1, last := some r.seq }
    let full := t.evFull j
    let t := if full then t.blk (fun u => u.cause 0x16 0 1) else t
    t.evIrq j full

def Tray.evWriteN (t : Tray) (j : Nat) : Nat → Tray
  | 0 => t
  | n + 1 => if t.evReady j then (t.evWrite j).evWriteN j n else t

/-- The gap record follows a loss as soon as a place frees, in a reserved place where one is free (R310, R314). -/
def Tray.evGap (t : Tray) (j : Nat) : Tray :=
  let e := t.evq j
  if e.lost ≠ 0 && e.staged.length < e.ordinary then
    let t := t.drain
    let e := t.evq j
    let t := t.setEvq j { e with lost := 0 }
    t.createPlace j rkGap (pay [fd 0x24 4 e.lost, fd 0x28 4 e.lostFirst.toNat, fd 0x2C 4 e.lostLast.toNat])
  else t

end Sys2Proof.Machine
end

