-- ==== Sys2Proof/Machine/PanCells.lean ====
section
/-!
DEFINITION. Pan-set descriptors, grids and pan cells (spec/11_pans_reduction.md, R227 to R237 and R249).
-/

namespace Sys2Proof.Machine

/-! ### Descriptor fields (R228 to R230) -/

def pLevel (d : List Byte) : Nat := numAt d 1 1
def pFlag (d : List Byte) (i : Nat) : Bool := Nat.testBit (numAt d 2 1) i
def pGrain (d : List Byte) : Nat := numAt d 3 1
def pJob (d : List Byte) : W32 := bv (numAt d 4 4)
def pMask (d : List Byte) : Nat := numAt d 8 2
def pNbank (d : List Byte) : Nat := numAt d 0x0A 1
def pHring (d : List Byte) : Nat := numAt d 0x0B 1
def pNmem (d : List Byte) : Nat := numAt d 0x0C 2
def pNpan (d : List Byte) : Nat := numAt d 0x0E 2
def pNcore (d : List Byte) : Nat := numAt d 0x10 2
def pNrep (d : List Byte) : Nat := numAt d 0x12 1
def pDang (d : List Byte) : Nat := numAt d 0x14 4
def pDns (d : List Byte) : Nat := numAt d 0x18 4
def pHmax (d : List Byte) : Nat := numAt d 0x1C 4
def pAngle (d : List Byte) (o : Nat) : Nat := numAt d (64 + 4 * o) 4

/-- The declared points in order. -/
def pPoints (d : List Byte) : List Nat := (List.range 16).filter (fun o => Nat.testBit (pMask d) o)

/-- A member entry (R229): its identifier, weight and child pan set. -/
def pMember (d : List Byte) (j : Nat) : W32 × Nat × Nat :=
  (bv (numAt d (128 + 8 * j) 4), numAt d (132 + 8 * j) 2, numAt d (134 + 8 * j) 2)

/-- The place of a member identifier in the member table. -/
def pMemberOf (d : List Byte) (id : W32) : Option Nat := (List.range (pNmem d)).find? (fun j => (pMember d j).1 = id)

/-- The core entry of replica `r` of pan core `c` (R229): core, first line, lines. -/
def pCore (d : List Byte) (r c : Nat) : Nat × Nat × Nat :=
  let o := 128 + 8 * pNmem d + 8 * (r * pNcore d + c)
  (numAt d o 4, numAt d (o + 4) 2, numAt d (o + 6) 2)

/-- A pan entry (R230). -/
structure PanEnt where
  type : Nat
  ftype : Nat
  s : Int
  w : Nat
  feature : Nat
  core : Nat
  cell : Nat
  flags : Nat
  param : Nat
  p1 : W64
  p2 : W64
  p3 : W64
deriving DecidableEq, Repr

def pPan (d : List Byte) (i : Nat) : PanEnt :=
  let o := 128 + 8 * pNmem d + 8 * pNcore d * pNrep d + 48 * i
  let sb : Byte := bv (numAt d (o + 2) 1)
  { type := numAt d o 1, ftype := numAt d (o + 1) 1, s := sb.toInt, w := numAt d (o + 3) 1, feature := numAt d (o + 4) 2,
    core := numAt d (o + 6) 2, cell := numAt d (o + 8) 2, flags := numAt d (o + 0x0A) 1, param := numAt d (o + 0x0B) 1,
    p1 := bv (numAt d (o + 0x10) 8), p2 := bv (numAt d (o + 0x18) 8), p3 := bv (numAt d (o + 0x20) 8) }

/-- Bank lines of a pan (R233). -/
def bankLines (nmem : Nat) (p : PanEnt) : Nat :=
  match p.type with
  | 0 => 2 | 1 => 3 | 2 => 2 | 3 => 2 | 4 => 66
  | 5 => 1 + p.param
  | 6 => 3 + nmem
  | _ => 1 + nmem

/-- Persistent lines of a pan (R233). -/
def keepLines (nmem : Nat) (p : PanEnt) : Nat := if p.type = 6 || p.type = 7 then nmem else 0

/-- The pans of a descriptor with their numbers. -/
def pPans (d : List Byte) : List (Nat × PanEnt) := (List.range (pNpan d)).map (fun i => (i, pPan d i))

/-- The pans of a pan core. -/
def corePans (d : List Byte) (c : Nat) : List (Nat × PanEnt) := (pPans d).filter (fun e => e.2.core = c)

/-- Lines of one bank of a pan core. -/
def coreBank (d : List Byte) (c : Nat) : Nat := ((corePans d c).map (fun e => bankLines (pNmem d) e.2)).sum

/-- Where a pan's persistent lines begin behind the banks: pans of the core in pan order. -/
def keepOff (d : List Byte) (c i : Nat) : Nat :=
  (((corePans d c).filter (fun e => e.1 < i)).map (fun e => keepLines (pNmem d) e.2)).sum

/-- The harvest bytes of a descriptor (R248). -/
def harvestLen (d : List Byte) : Nat := 160 + ((pPans d).map (fun e => 16 + 16 * bankLines (pNmem d) e.2)).sum

/-- The slice line of line `l` of pan `i` in bank `b` of replica `r`. -/
def panLine (d : List Byte) (r b i l : Nat) : Nat × Nat :=
  let p := pPan d i
  let ce := pCore d r p.core
  (ce.1, ce.2.1 + b * coreBank d p.core + p.cell + l)

/-- The persistent slice line of member `j` of pan `i`. -/
def panKeep (d : List Byte) (i j : Nat) : Nat × Nat :=
  let p := pPan d i
  let ce := pCore d 0 p.core
  (ce.1, ce.2.1 + pNbank d * coreBank d p.core + keepOff d p.core i + j)

/-! ### Grids (R232) -/

/-- The largest magnitude on a grid. -/
def gridMax : Int := 2 ^ 47 - 1

/-- `x / 2^k` rounded half to even, for an integer of either sign. -/
def roundShift (x : Int) (k : Nat) : Int := if 0 ≤ x then (roundEven x.toNat (2 ^ k) : Int) else -(roundEven (-x).toNat (2 ^ k) : Int)

/-- A value on a grid: missing, or the integer and whether it was clipped. -/
def toGrid (ftype : Nat) (s : Int) (x : W32) : Option (Int × Bool) :=
  if ftype = 0 && f32IsNan x || ftype ≠ 0 && decide (x = missingWord) then none
  else
    let v : Int :=
      if ftype = 0 then
        if f32IsInf x then (if bit x 31 then -(2 ^ 48) else 2 ^ 48) else roundShift (f32Units x) (149 - s).toNat
      else if 0 ≤ s then x.toInt * 2 ^ s.toNat
      else roundShift x.toInt (-s).toNat
    if gridMax < v then some (gridMax, true) else if v < -gridMax then some (-gridMax, true) else some (v, false)

/-! ### Cells (R233, R235 to R237) -/

abbrev Line : Type := BitVec 128

def lo64 (l : Line) : Int := (l.extractLsb' 0 64).toInt
def hi64 (l : Line) : Int := (l.extractLsb' 64 64).toInt
def mkLine (hi lo : Int) : Line := BitVec.ofInt 64 hi ++ BitVec.ofInt 64 lo

/-- A segmented add of 32-bit fields: no carry passes between fields. -/
def segAdd (a b : Line) : Line :=
  (a.extractLsb' 96 32 + b.extractLsb' 96 32) ++ (a.extractLsb' 64 32 + b.extractLsb' 64 32) ++
  (a.extractLsb' 32 32 + b.extractLsb' 32 32) ++ (a.extractLsb' 0 32 + b.extractLsb' 0 32)

/-- A line of 32-bit fields, the lowest first. -/
def seg (a b c : Nat) : Line := BitVec.ofNat 128 (a + b * 2 ^ 32 + c * 2 ^ 64)

/-- The bucket of a HIST pan (R235). -/
def histBucket (e0 : Nat) (v : Int) : Nat :=
  if v < 2 ^ e0 then 0
  else
    let n := v.toNat
    let e := Nat.log2 n
    min 255 (1 + 8 * (e - e0) + (n * 8 / 2 ^ e - 8))

/-- The lower edge of bucket `b` ≥ 1 (R235). -/
def histEdge (e0 b : Nat) : Nat := (8 + (b - 1) % 8) * 2 ^ (e0 + (b - 1) / 8) / 8

/-- An unused top-k entry. -/
def topkEmpty : Line := BitVec.ofNat 128 (0xFFFFFFFF * 2 ^ 64)

/-- A top-k entry (R236). -/
def topkEntry (v : Int) (leaf : W32) (off point : Nat) : Line :=
  BitVec.ofNat 128 ((BitVec.ofInt 64 v).toNat + leaf.toNat * 2 ^ 64 + (off % 256) * 2 ^ 96 + (point % 256) * 2 ^ 104)

/-- Entry `a` ranks before entry `b` (R236). -/
def topkBefore (smallest : Bool) (a b : Line) : Bool :=
  let used := fun (x : Line) => decide (fld x 64 32 ≠ 0xFFFFFFFF)
  if !used a then false
  else if !used b then true
  else if lo64 a = lo64 b then
    decide (fld a 64 32 < fld b 64 32) || (decide (fld a 64 32 = fld b 64 32) &&
      (decide (fld a 96 8 < fld b 96 8) || (decide (fld a 96 8 = fld b 96 8) && decide (fld a 104 8 < fld b 104 8))))
  else if smallest then decide (lo64 a < lo64 b) else decide (lo64 b < lo64 a)

/-- Insert an entry into a sorted list, keeping its length. -/
def topkInsert (smallest : Bool) (e : Line) : List Line → List Line
  | [] => []
  | a :: t => if topkBefore smallest e a then e :: (a :: t).dropLast else a :: topkInsert smallest e t

/-- The empty contents of line `l` of a pan's bank (R233). -/
def emptyLine (p : PanEnt) (l : Nat) : Line :=
  match p.type with
  | 2 => if l = 1 then mkLine (-(2 ^ 63)) (2 ^ 63 - 1) else 0
  | 5 => if l = 0 then 0 else topkEmpty
  | 6 => if l < 3 then 0 else BitVec.allOnes 128
  | 7 => if l < 1 then 0 else BitVec.allOnes 128
  | _ => 0

/-- The PDEFINE state of a persistent line (R237). -/
def keepEmpty (p : PanEnt) : Line := if p.type = 7 then mkLine (-1) 0 else 0

/-- A line is changed where it stands; a poisoned line stays poisoned (R386). -/
def Tray.updLine (t : Tray) (at0 : Nat × Nat) (f : Line → Line) : Tray :=
  let r := t.readLine at0.1 at0.2
  let flaws := r.1.flawed 3 (2 * (at0.1 * 4096 + at0.2)) 2
  let t := r.1.setLine at0.1 at0.2 (f (r.1.line at0.1 at0.2))
  flaws.foldl (fun (v : Tray) w => v.setFlaw 3 w flawPoison) t

def rkHarvestPoisoned : RecKind := rk 0x27 0x0005 3 .always

/-- "harvest poisoned" (R386, R394). -/
def Tray.panPoisoned (t : Tray) (pset pan hseq mem : Nat) : Tray :=
  t.blk (fun u => (u.cause 0x27 0 3).report rkHarvestPoisoned .dflt
    (pay [fd 0x24 2 pset, fd 0x26 2 pan, fd 0x28 4 hseq, fd 0x2C 4 mem]))

/-- What a fold needs besides the value: the pan set, its descriptor, the replica and bank, the member, and the cut. -/
structure FoldAt where
  pset : Nat
  d : List Byte
  rep : Nat
  bank : Nat
  mem : Nat
  leaf : W32
  off : Nat
  point : Nat
  hseq : Nat
  mu : Option Int
deriving DecidableEq, Repr

/-- The persistent line of a member, put back to its PDEFINE state where it is poisoned (R386). -/
def Tray.keepLine (t : Tray) (a : FoldAt) (i : Nat) (p : PanEnt) : Tray × Line :=
  let k := panKeep a.d i a.mem
  let r := t.readLine k.1 k.2
  if r.2 then ((r.1.setLine k.1 k.2 (keepEmpty p)).panPoisoned a.pset i a.hseq a.mem, keepEmpty p) else (r.1, r.1.line k.1 k.2)

/-- One CUSUM update (R237): the new line and whether an alarm is set. -/
def cusum (p : PanEnt) (mu v : Int) (l : Line) : Line × Bool :=
  let k := p.p2.toInt
  let h := p.p3.toInt
  let d := v - mu
  let hi := max 0 (lo64 l + d - k)
  let lo := max 0 (hi64 l - d - k)
  if h ≤ hi || h ≤ lo then (0, true) else (mkLine lo hi, false)

/-- One EWMA update (R237). -/
def ewma (p : PanEnt) (v : Int) (l : Line) : Line :=
  if hi64 l = -1 then mkLine 0 v
  else
    let d := v - lo64 l
    let m := lo64 l + d / (2 ^ p.param : Int)
    let mad := hi64 l
    mkLine (mad + ((Int.natAbs d : Int) - mad) / (2 ^ p.param : Int)) m

/-- An entry is inserted in the `n` top-k lines of a bank, the `k`-th of which stands at `at0 k`: they are read, and those that change written (R236). -/
def Tray.topkPut (t : Tray) (smallest : Bool) (at0 : Nat → Nat × Nat) (n : Nat) (e : Line) : Tray :=
  let t := (List.range n).foldl (fun (v : Tray) k => (v.readLine (at0 k).1 (at0 k).2).1) t
  let ls := (List.range n).map (fun k => t.line (at0 k).1 (at0 k).2)
  ((topkInsert smallest e ls).zipIdx 0).foldl (fun (w : Tray) x => if ls.getD x.2 0 = x.1 then w else w.updLine (at0 x.2) (fun _ => x.1)) t

/-- A value is folded into a pan (R232, R233). -/
def Tray.foldValue (t : Tray) (a : FoldAt) (i : Nat) (x : W32) : Tray :=
  let p := pPan a.d i
  let ln := fun (l : Nat) => panLine a.d a.rep a.bank i l
  match toGrid p.ftype p.s x with
  | none => t.updLine (ln 0) (fun y => segAdd y (seg 0 1 0))
  | some (v, clip) =>
    let t := t.updLine (ln 0) (fun y => segAdd y (seg 1 0 clip.toNat))
    let t := if clip then
        { t with psets := smMod t.psets a.pset (fun (s : Pset) => { s with clipped := satAdd s.clipped 1 0xFFFFFFFF }) } else t
    match p.type with
    | 0 => t.updLine (ln 1) (fun y => y + BitVec.ofInt 128 v)
    | 1 => (t.updLine (ln 1) (fun y => y + BitVec.ofInt 128 v)).updLine (ln 2) (fun y => y + BitVec.ofInt 128 (v * v))
    | 2 => t.updLine (ln 1) (fun y => mkLine (max (hi64 y) v) (min (lo64 y) v))
    | 3 => t.updLine (ln 1) (fun y => segAdd y (seg (decide (p.p1.toInt ≤ v)).toNat (decide (p.p2.toInt ≤ v)).toNat 0))
    | 4 =>
      let b := histBucket p.param v
      t.updLine (ln (1 + b / 4)) (fun y => segAdd y (BitVec.ofNat 128 (2 ^ (32 * (b % 4)))))
    | 5 => t.topkPut (Nat.testBit p.flags 1) (fun k => ln (1 + k)) p.param (topkEntry v a.leaf a.off a.point)
    | 6 =>
      let k := t.keepLine a i p
      let mu := match a.mu with | some m => m | none => p.p1.toInt
      let r := cusum p mu v k.2
      let at0 := panKeep a.d i a.mem
      let t := (k.1.setLine at0.1 at0.2 r.1).updLine (ln (3 + a.mem)) (fun _ => r.1)
      if r.2 then t.updLine (ln (1 + a.mem / 128)) (fun y => setBit y (a.mem % 128) true) else t
    | 7 =>
      let k := t.keepLine a i p
      let r := ewma p v k.2
      let at0 := panKeep a.d i a.mem
      (k.1.setLine at0.1 at0.2 r).updLine (ln (1 + a.mem)) (fun _ => r)
    | _ => t

/-- A line of another bank of the same pan is merged into line `l` of a bank (R233, R249). -/
def Tray.mergeLine (t : Tray) (d : List Byte) (r b i l : Nat) (c : Line) : Tray :=
  let p := pPan d i
  let ln := fun (k : Nat) => panLine d r b i k
  if l = 0 then t.updLine (ln 0) (fun y => segAdd y c)
  else match p.type with
    | 0 => t.updLine (ln l) (fun y => y + c)
    | 1 => t.updLine (ln l) (fun y => y + c)
    | 2 => t.updLine (ln l) (fun y => mkLine (max (hi64 y) (hi64 c)) (min (lo64 y) (lo64 c)))
    | 3 => t.updLine (ln l) (fun y => segAdd y c)
    | 4 => if l = 65 then t else t.updLine (ln l) (fun y => segAdd y c)
    | 5 => t.topkPut (Nat.testBit p.flags 1) (fun k => ln (1 + k)) p.param c
    | _ => t

/-- The counts of a HIST pan's bank lines. -/
def histCounts (ls : List Line) : List Nat := (List.range 256).map (fun b => fld (ls.getD (1 + b / 4) 0) (32 * (b % 4)) 32)

/-- The smallest bucket whose cumulative count reaches `need`; `acc` has been counted before bucket `b`. -/
def histFind (need : Nat) : List Nat → Nat → Nat → Nat
  | [], _, b => b
  | c :: t, acc, b => if need ≤ acc + c then b else histFind need t (acc + c) (b + 1)

/-- The readout line of a HIST pan (R235). -/
def histReadout (p : PanEnt) (ls : List Line) : Line :=
  let cs := histCounts ls
  let n := cs.sum
  if n = 0 then BitVec.ofNat 128 (2 ^ 16)
  else
    let bk := fun (q : Nat) => histFind (ceilDiv (q * n) 65536) cs 0 0
    let b1 := bk (fld p.p1 0 16)
    let b2 := bk (fld p.p1 16 16)
    BitVec.ofNat 128 (b1 + b2 * 256 + (if b1 = 0 then 0 else histEdge p.param b1) * 2 ^ 64)

end Sys2Proof.Machine
end

