-- ==== Sys2Proof/Machine/TrayQ.lean ====
section
/-!
DEFINITION. Command queues of the tray build (spec/10_command_queues_transactions.md, R204 to R214): the command's fields, its end and completion
record, stopping, the aperture, and dispatch.
-/

namespace Sys2Proof.Machine

/-! ### The command (R208) -/

def cOp (b : List Byte) : Nat := numAt b 0 1
def cSlot (b : List Byte) : Nat := numAt b 2 1
def cTxid (b : List Byte) : W32 := bv (numAt b 8 4)
def cNotify (b : List Byte) : Bool := Nat.testBit (numAt b 1 1) 7
def cMember (b : List Byte) : Bool := Nat.testBit (numAt b 1 1) 6

/-- The opcodes (R209). -/
def opcodes : List Nat :=
  [0, 1, 2, 3, 4, 5, 0x10, 0x11, 0x12, 0x13, 0x20, 0x21, 0x22, 0x30, 0x40, 0x41, 0x50, 0x51, 0x52, 0x60, 0x61, 0x62]

/-- The operand bytes of each opcode, as (offset, size) (R209). -/
def operandBytes (op : Nat) : List (Nat × Nat) :=
  match op with
  | 1 => [(0x10, 2), (0x14, 4), (0x18, 4)]
  | 2 => [(0x10, 1), (0x18, 8)]
  | 3 => [(0x10, 3), (0x14, 4), (0x18, 8), (0x20, 4), (0x24, 2)]
  | 5 => [(0x10, 2)]
  | 0x10 => [(0x10, 16), (0x20, 2)]
  | 0x11 => [(0x20, 2)]
  | 0x12 => [(0x20, 2)]
  | 0x13 => [(0x20, 2)]
  | 0x20 => [(0x10, 12), (0x1C, 2)]
  | 0x21 => [(0x1C, 2)]
  | 0x22 => [(0x1C, 2), (0x20, 5)]
  | 0x30 => [(0x10, 25)]
  | 0x40 => [(0x10, 26), (0x2C, 4)]
  | 0x41 => [(0x10, 25), (0x2C, 4)]
  | 0x50 => [(0x10, 6), (0x18, 8), (0x28, 1)]
  | 0x51 => [(0x10, 12)]
  | 0x52 => [(0x10, 5), (0x16, 2)]
  | 0x60 => [(0x10, 5), (0x18, 16)]
  | 0x62 => [(0x14, 1)]
  | _ => []

/-- Every reserved field of a command is zero (R208 to R210). -/
def cmdClean (b : List Byte) : Bool :=
  let op := cOp b
  let used := fun (i : Nat) => (operandBytes op).any (fun r => r.1 ≤ i && i < r.1 + r.2)
  let tx := cMember b || op = 3 || op = 4
  (List.range 64).all (fun i => i < 0x0C || used i || decide (numAt b i 1 = 0)) &&
  decide (numAt b 1 1 % 64 = 0) && (if tx then decide (cTxid b ≠ 0) else decide (cTxid b = 0)) &&
  (if cMember b then decide (numAt b 3 1 < 8) else decide (numAt b 3 1 = 0))

/-- The opcode belongs to a class or to the common range (R210). -/
def opInClass (op cls : Nat) : Bool := opcodes.contains op && (op < 16 || decide (op / 16 = cls + 1))

/-- Commands in flight that a class allows; a compression engine out of service takes none (R329), and one command at a time ends where all are. -/
def Tray.classLimit (t : Tray) (cls : Nat) : Nat :=
  let out := ((List.range 32).filter (fun i => t.u.rb R.CMPT_EFAIL i)).length
  if cls = 3 then max 1 (32 - out) else [1, 1, 4, 32, 64, 1].getD cls 1

/-- Records of the QMG and ENG pages. -/
def rkCompletion (status : Nat) : RecKind := rk 0x2D 0x0001 (if status = 0 then 0 else 2) .bySeverity
def rkQueueStopped : RecKind := rk 0x2D 0x0002 2 .bySeverity

def Tray.queue (t : Tray) (q : Nat) : CmdQ := smGet t.queues q CmdQ.reset
def Tray.setQueue (t : Tray) (q : Nat) (c : CmdQ) : Tray := { t with queues := smSet t.queues q c CmdQ.reset }

/-- Commands that the ring holds. -/
def CmdQ.held (c : CmdQ) : Nat := (c.pi + 65536 - c.ci) % 65536

/-- The class of a queue. -/
def Tray.qClass (t : Tray) (q : Nat) : Nat := t.qf q 24 3

/-- The brine-store address of a place of a command ring (R195). -/
def ringByte (q place : Nat) : Nat := 768 * 2 ^ 20 + q * 65536 + 64 * place

/-! ### Ending a command (R210, R211, R214) -/

/-- A queue stops (R214). -/
def Tray.stopQueue (t : Tray) (q : Nat) : Tray :=
  if (t.queue q).stopped then t
  else
    let t := t.setQueue q { t.queue q with stopped := true }
    t.blk (fun u => (u.cause 0x2D (q / 128) 1).report rkQueueStopped .dflt (pay [fd 0x24 4 q]))

/-- A member of a pod-wide transaction ends without a queue at a node that did not dispatch it. -/
def noQueue : Nat := 1536

/-- A command has ended and its record, if any, is staged: QDONE advances, and the queue stops where it is to. -/
def Tray.closeCmd (t : Tray) (d : Done) : Tray :=
  if noQueue ≤ d.q then t
  else
  let c := t.queue d.q
  let t := t.setQueue d.q { c with done := c.done + 1, last := if d.status = 0 then c.last else d.status }
  let t := if d.main then { t with flights := smDel t.flights d.q } else t
  let t := if d.jrn then t.blk (fun u => u.bump (R.ENG_CJRN + 16 * (t.qClass d.q))) else t
  if d.status = 12 || (d.status ≠ 0 && d.status ≠ 11 && t.qb d.q 30) then t.stopQueue d.q else t

/-- A completion record's payload (R211). -/
def Done.pay (d : Done) : BitVec 160 :=
  Sys2Proof.Machine.pay [fd 0x24 2 d.q, fd 0x26 1 (cOp d.body), fd 0x27 1 d.status, fd 0x28 4 (numAt d.body 4 4), fd 0x2C 2 d.reason,
    fd 0x2E 1 (4 * d.late.toNat + 2 * d.jrn.toNat + (cMember d.body).toNat), fd 0x30 8 d.result.toNat]

def rkHarvestPublished : RecKind := rk 0x27 0x0001 0 .bySeverity

/-- The oldest producer that waits for a place of queue `j` takes one (R310). -/
def Tray.heldOne (t : Tray) (j : Nat) (h : HeldRec) : Tray :=
  let t := t.drain
  match h with
  | .completion d => (t.createPlace j (rkCompletion d.status) d.pay).closeCmd d
  | .harvest _ p => t.createPlace j rkHarvestPublished p
  | .marker p => t.createPlace j rkTrayMarker p

/-- The staging places that a held record may fill: a recovery marker's are the reserved ones too (R310). -/
def EvQ.placesFor (e : EvQ) (h : HeldRec) : Nat :=
  match h with
  | .marker _ => 512
  | _ => e.ordinary

/-- Places are given out (R310): first the gap record after a loss, then the waiting producers in order, while places are free for them; the
ring is written as far as it takes records. `n` bounds the rounds. -/
def Tray.evServeN (t : Tray) (j : Nat) : Nat → Tray
  | 0 => t
  | n + 1 =>
    let t := (t.evWriteN j (t.evq j).staged.length).evGap j
    match (t.evq j).waiting with
    | [] => t.evWriteN j (t.evq j).staged.length
    | h :: rest =>
      if (t.evq j).staged.length < (t.evq j).placesFor h then ((t.setEvq j { t.evq j with waiting := rest }).heldOne j h).evServeN j n
      else t

/-- Serve a host event queue. -/
def Tray.evServe (t : Tray) (j : Nat) : Tray := t.evServeN j ((t.evq j).waiting.length + 2)

/-- A held producer asks for a place in queue `j`. -/
def Tray.held (t : Tray) (j : Nat) (h : HeldRec) : Tray :=
  (t.setEvq j { t.evq j with waiting := (t.evq j).waiting ++ [h] }).evServe j

/-- A command ends (R210, R211): its record waits for a place, and a done command without notify writes none. -/
def Tray.endCmd (t : Tray) (d : Done) : Tray :=
  if noQueue ≤ d.q then t
  else
  let t := if d.main then { t with flights := smMod t.flights d.q (fun f => { f with phase := .ended }) } else t
  if d.status = 0 && !cNotify d.body then t.closeCmd d else t.held (t.qf d.q 0 9) (.completion d)

/-- The command in flight on a queue ends, or the member that a commit began under a key of its own. -/
def Tray.finish (t : Tray) (q status reason : Nat) (result : Nat) (late : Bool) : Tray :=
  match smGet? t.flights q with
  | none => t
  | some f =>
    match f.member with
    | none => t.endCmd ⟨q, f.body, status, reason, BitVec.ofNat 64 result, late, f.jrn, true⟩
    | some m => ({ t with flights := smDel t.flights q }).endCmd ⟨m, f.body, status, reason, BitVec.ofNat 64 result, late, f.jrn, false⟩

/-- A transaction member ends. -/
def Tray.endMember (t : Tray) (q : Nat) (b : List Byte) (status : Nat) (result : Nat) (late : Bool) : Tray :=
  t.endCmd ⟨q, b, status, 0, BitVec.ofNat 64 result, late, false, false⟩

/-! ### The aperture (R207) -/

/-- "command dropped": the spec names the record without its code. -/
def Tray.dropAppend (t : Tray) (q : Nat) (full : Bool) : Tray :=
  let t := if full then t.setQueue q { t.queue q with full := true } else t
  t.blk (fun u => (((u.bump (inst R.QMG_APDROP (q / 128))).cause 0x2D (q / 128) 0).reportOpen 0x2D 1 .dflt [q]))

/-- Bytes are staged in the queue's 64-byte buffer. -/
def Tray.stageBytes (t : Tray) (q off : Nat) (l : List Byte) : Tray :=
  let c := t.queue q
  let s := bytesAt c.stage 0 64
  let s := overlay s off l
  t.setQueue q { c with stage := if s.all (fun x => decide (x = 0)) then [] else s }

/-- COMMAND_APPEND: the staged bytes, the write's own included, go to the ring or are dropped, and the staging buffer is cleared. -/
def Tray.append (t : Tray) (q off : Nat) (l : List Byte) : Tray :=
  let t := t.stageBytes q off l
  let c := t.queue q
  let b := bytesAt c.stage 0 64
  let t := t.setQueue q { c with stage := [] }
  let full := decide (1024 ≤ c.held)
  if full || !t.qb q 31 || t.qf q 28 2 ≠ 0 then t.dropAppend q full
  else
    let t := t.brineWrite (ringByte q (c.pi % 1024)) b
    t.setQueue q { t.queue q with pi := (c.pi + 1) % 65536 }

/-- A command of an internal producer is appended to its queue (R206); answers whether it was taken. -/
def Tray.produce (t : Tray) (q : Nat) (b : List Byte) : Tray × Bool :=
  let c := t.queue q
  if 1024 ≤ c.held || !t.qb q 31 then (t.dropAppend q (decide (1024 ≤ c.held)), false)
  else
    let t := t.brineWrite (ringByte q (c.pi % 1024)) b
    (t.setQueue q { t.queue q with pi := (c.pi + 1) % 65536 }, true)

/-! ### Dispatch (R212, R213, R218) -/

/-- Commands of a class that count against its limit: those on an engine or not yet begun (R212). -/
def Tray.inFlight (t : Tray) (cls : Nat) : Nat :=
  (t.flights.filter (fun e => e.2.cls = cls && (e.2.phase == .started || e.2.phase == .running))).length

/-- A queue is ready (R213). -/
def Tray.qReady (t : Tray) (q : Nat) : Bool :=
  t.qb q 31 && !(t.queue q).stopped && decide ((t.queue q).held ≠ 0) && (smGet? t.flights q).isNone

/-- The queue a dispatcher takes (R213): the highest priority that has a ready queue, round robin within it. -/
def Tray.pickQueue (t : Tray) (cls : Nat) : Option Nat :=
  let ready := (t.queues.map (·.1)).filter (fun q => q < 1536 && decide (t.qClass q = cls) && t.qReady q)
  let top := (ready.map (fun q => t.qf q 20 2)).foldl max 0
  let level := ready.filter (fun q => t.qf q 20 2 = top)
  match smGet? t.served (4 * cls + top) with
  | none => level.head?
  | some s => match level.find? (fun q => s < q) with | some q => some q | none => level.head?

/-- The bytes of the next command of a queue. -/
def Tray.nextBody (t : Tray) (q : Nat) : List Byte := t.brineBytes (ringByte q ((t.queue q).ci % 1024)) 64

/-- The command in flight on a queue, where it is the given opcode and has not begun. -/
def Tray.begun (t : Tray) (q op : Nat) : Option Flight :=
  match smGet? t.flights q with
  | some f => if f.phase == .started && decide (cOp f.body = op) then some f else none
  | none => none

end Sys2Proof.Machine
end

