-- ==== Sys2Proof/Machine/PanCuts.lean ====
section
/-!
DEFINITION. Cuts of pan sets: contributions, settling, deadlines and closing (spec/11_pans_reduction.md, R238 to R242).
-/

namespace Sys2Proof.Machine

/-- A cut's key within an epoch: block start (or step) and point. -/
abbrev CutKey : Type := W32 × Nat

/-- Cut order (R238). -/
def keyBefore (a b : CutKey) : Bool := stepAfter b.1 a.1 || (decide (a.1 = b.1) && decide (a.2 < b.2))

/-- A step stamp: step index and angle. -/
abbrev Stamp : Type := W32 × W32

/-- Stamps in the order of steps and angles. -/
def stampBefore (a b : Stamp) : Bool := stepAfter b.1 a.1 || (decide (a.1 = b.1) && decide (a.2.toNat < b.2.toNat))

/-- The cut that a step and point belong to (R238). -/
def cutKey (d : List Byte) (step : W32) (point : Nat) : CutKey :=
  let g := pGrain d
  if g = 0 then (step, point) else (BitVec.ofNat 32 (step.toNat / 2 ^ (g - 1) * 2 ^ (g - 1)), 0xFF)

/-- The next declared cut. -/
def nextKey (d : List Byte) (k : CutKey) : CutKey :=
  let g := pGrain d
  if g = 0 then
    match (pPoints d).find? (fun o => k.2 < o) with
    | some o => (k.1, o)
    | none => (k.1 + 1, (pPoints d).headD 0)
  else (k.1 + BitVec.ofNat 32 (2 ^ (g - 1)), 0xFF)

/-- The first declared cut of a step's block. -/
def firstKey (d : List Byte) (step : W32) : CutKey :=
  if pGrain d = 0 then (step, (pPoints d).headD 0) else cutKey d step 0

/-- The angle deadline of a cut, as a step stamp (R238). -/
def cutStamp (d : List Byte) (k : CutKey) : W32 × W32 :=
  let g := pGrain d
  if g = 0 then
    let a := pAngle d k.2 + pDang d
    (k.1 + BitVec.ofNat 32 (a / 2 ^ 32), BitVec.ofNat 32 a)
  else (k.1 + BitVec.ofNat 32 (2 ^ (g - 1)), BitVec.ofNat 32 (pDang d))

/-- A step stamp is reached on a slot's clock (R212): overrun included. -/
def Blk.stampReached (u : Blk) (slot : Nat) (s a : W32) : Bool :=
  let c := u.step slot
  stepAfter c.idx s || (decide (c.idx = s) && decide (a.toNat ≤ (u.angle slot).toNat))

/-- Time moves to the cycle in which a stamp is reached, where the slot's clock is in that step and its period is known. -/
def Blk.toStamp (u : Blk) (slot : Nat) (s a : W32) : Blk :=
  let c := u.step slot
  if u.stampReached slot s a || c.idx ≠ s || !c.haveMark || !c.estValid || c.per = 0 then u
  else u.toNs (c.markAt + BitVec.ofNat 64 (ceilDiv (a.toNat * c.per.toNat) (2 ^ 32)))

def Tray.pset (t : Tray) (p : Nat) : Option Pset := smGet? t.psets p
def Tray.setPset (t : Tray) (p : Nat) (s : Pset) : Tray := { t with psets := smPut t.psets p s }

def Cut.key (c : Cut) : CutKey := (c.step, c.point)
def Pset.cut? (s : Pset) (k : CutKey) (e : Byte) : Option Cut := s.cuts.find? (fun c => c.key = k && decide (c.epoch = e))
def Pset.modCut (s : Pset) (k : CutKey) (e : Byte) (f : Cut → Cut) : Pset :=
  { s with cuts := s.cuts.map (fun c => if c.key = k && decide (c.epoch = e) then f c else c) }

/-- The harvest number of a cut: it takes it at its close, behind the open cuts before it. -/
def Pset.hseqOf (s : Pset) (c : Cut) : W32 :=
  if c.closed.isSome then c.hseq
  else s.hseq + BitVec.ofNat 32 ((s.cuts.takeWhile (fun x => !(x.key = c.key && decide (x.epoch = c.epoch)))).filter (fun x => x.closed.isNone)).length

/-- Open cuts. -/
def Pset.openCuts (s : Pset) : List Cut := s.cuts.filter (fun c => c.closed.isNone)

/-- Banks are given to cuts that wait for one, the earliest first (R239). -/
def Pset.giveBanks (s : Pset) : Pset :=
  let nb := pNbank s.desc
  let go := s.cuts.foldl (fun (acc : List Cut × List Nat) c =>
    match c.bank with
    | some _ => (acc.1 ++ [c], acc.2)
    | none => match acc.2 with
      | [] => (acc.1 ++ [c], [])
      | b :: r => (acc.1 ++ [{ c with bank := some b }], r))
    (([] : List Cut), (List.range nb).filter (fun b => !s.cuts.any (fun c => c.bank = some b)))
  { s with cuts := go.1 }

/-- Insert a cut in cut order. -/
def insertCut (c : Cut) : List Cut → List Cut
  | [] => [c]
  | x :: r => if x.epoch = c.epoch && keyBefore c.key x.key then c :: x :: r else x :: insertCut c r

/-- The job-wide references that a cut takes at its opening (R281). -/
def Tray.refsOf (t : Tray) (slot : Nat) : SMap (Int × Int) :=
  smMap (fun (r : Ref) => (r.s, r.value)) (smGet t.hlt slot HSlot.reset).refs

/-- A new cut. -/
def Tray.newCut (t : Tray) (s : Pset) (k : CutKey) : Cut :=
  { step := k.1, point := k.2, epoch := (t.u.step s.slot).epoch, topen := t.u.clk.ns, openOk := t.u.clk.valid, openAt := t.u.clk.ival,
    bank := none, shares := [], pend := 0, scoreLate := false, refs := t.refsOf s.slot, closed := none, hseq := 0, statuses := [] }

/-! ### Members (R241) -/

/-- A sample is skipped at a decimation level (R81), with n and o taken from the declared points. -/
def decimates (d : List Byte) (level : Nat) (step : W32) (point : Nat) : Bool :=
  let n := (pPoints d).length
  let o := ((pPoints d).filter (fun x => x < point)).length
  decide (((step.toNat * n + o) % 2 ^ 32) % 2 ^ level ≠ 0)

/-- Every sample of a cut is skipped at a level. -/
def cutDecimated (d : List Byte) (level : Nat) (k : CutKey) : Bool :=
  if pGrain d = 0 then decimates d level k.1 k.2
  else (List.range (2 ^ (pGrain d - 1))).all (fun i => (pPoints d).all (fun o => decimates d level (k.1 + BitVec.ofNat 32 i) o))

/-- The ring of a leaf and leaf slot, or of a child: the enabled ring bound to it (R205). -/
def Tray.ringOf (t : Tray) (kind slot : Nat) (bound : W32) : Option Nat :=
  (t.rings.map (·.1)).find? (fun r => (smGet t.rings r IRing.reset).bound = bound && t.qb (2048 + r) 31 &&
    decide (t.qf (2048 + r) 30 1 = kind) && (kind = 1 || decide (t.qf (2048 + r) 29 1 = slot)))

/-- The child whose node identifier this is. -/
def Tray.childOf (t : Tray) (node : W32) : Option Nat :=
  (t.u.tree.find? (fun e => 2 ≤ e.1 && e.2.node = node)).map (fun e => e.1 - 2)

/-- The ingest ring of a member. Of a leaf that has not been heard it is an enabled ring of the leaf that no other job slot's attach has taken. -/
def Tray.memberRing (t : Tray) (s : Pset) (j : Nat) : Option Nat :=
  let id := (pMember s.desc j).1
  if pLevel s.desc = 1 then
    match (smGet s.members j Member.reset).lslot with
    | some l => t.ringOf 0 l id
    | none =>
      let rs := [0, 1].filterMap (fun l => t.ringOf 0 l id)
      let of := fun (x : Option Nat) => rs.find? (fun r => (smGet t.rings r IRing.reset).slot = x)
      match of (some s.slot) with | some r => some r | none => of none
  else (t.childOf id).bind (fun c => t.ringOf 1 0 (BitVec.ofNat 32 c))

/-- The last fine cut of a block: the highest declared point of its last step. -/
def lastFine (d : List Byte) (k : CutKey) : W32 × Nat :=
  (k.1 + BitVec.ofNat 32 (2 ^ (pGrain d - 1) - 1), (pPoints d).getLast?.getD 0)

/-- A member has come as far as a cut: a later contribution of it was written, or that of the block's last fine cut has been folded (R241). A fine cut
of grain g covers 2^(g-1) steps and has no point. -/
def Pset.passed (s : Pset) (j : Nat) (c : Cut) : Bool :=
  let m := smGet s.members j Member.reset
  m.came.any (fun x => keyBefore c.key (cutKey s.desc x.step x.point)) ||
  (pGrain s.desc ≠ 0 && (smGet c.shares j Share.reset).left = 0 && (smGet c.shares j Share.reset).sent.any (fun f =>
    if f.2 = 0xFF then decide (f.1 + BitVec.ofNat 32 (2 ^ (m.grain - 1)) = c.step + BitVec.ofNat 32 (2 ^ (pGrain s.desc - 1)))
    else f = lastFine s.desc c.key))

/-- The status of an active member for a cut (R241): 1 contributed, 2 decimated, 3 withheld, 4 lost, 5 missing; and whether it is settled or
needs no more. -/
def Tray.statusOf (t : Tray) (s : Pset) (j : Nat) (c : Cut) : Nat × Bool :=
  let m := smGet s.members j Member.reset
  let lvl1 := decide (pLevel s.desc = 1)
  match t.memberRing s j with
  | none => (6, true)
  | some r =>
    if (smGet? c.shares j).isSome then (1, pGrain s.desc = 0 || s.passed j c)
    else match m.came.find? (fun x => keyBefore c.key (cutKey s.desc x.step x.point)) with
      | some x =>
        if x.gap then (4, true)
        else if lvl1 && (cutDecimated s.desc x.level c.key || cutDecimated s.desc x.prev c.key) then (2, true)
        else (3, true)
      | none =>
        if lvl1 && m.lastSeq.isSome && cutDecimated s.desc m.level c.key && decide ((smGet t.rings r IRing.reset).changes = m.changes) then (2, true)
        else (5, false)

/-- Every active member is contributed, settled, or unsettled and decimated (reason 0 of R242). -/
def Tray.cutComplete (t : Tray) (s : Pset) (c : Cut) : Bool :=
  (List.range (pNmem s.desc)).all (fun j => (t.statusOf s j c).2) &&
  (List.range (pNmem s.desc)).any (fun j => (t.memberRing s j).isSome)

/-! ### Closing (R242) -/

/-- "cut forced by bank" (R251). -/
def rkCutForced : RecKind := rk 0x24 0x0002 2 .bySeverity

/-- One cut closes: its time, reason and statuses are fixed, and it takes the next harvest number; a cut that never opened closes empty. -/
def Tray.closeOne (t : Tray) (s : Pset) (k : CutKey) (e : Byte) (reason : Nat) : Pset :=
  let c := match s.cut? k e with | some c => c | none => { t.newCut s k with epoch := e }
  let st := (List.range (pNmem s.desc)).map (fun j => (t.statusOf s j c).1)
  let c := { c with closed := some (reason, t.u.clk.ns, t.u.clk.valid), hseq := s.hseq, statuses := st }
  let s := { s with hseq := s.hseq + 1 }
  match s.cut? k e with
  | some _ => s.modCut k e (fun _ => c)
  | none => { s with cuts := insertCut c s.cuts }

/-- Declared cuts from `k` on, up to and without `upto`: `n` bounds them. -/
def keysTo (d : List Byte) (upto : CutKey) : Nat → CutKey → List CutKey
  | 0, _ => []
  | n + 1, k => if keyBefore k upto then k :: keysTo d upto n (nextKey d k) else []

/-- A member's contributions that no cut still open can need are dropped. -/
def Pset.trim (s : Pset) : Pset :=
  { s with members := smMap (fun (m : Member) =>
      { m with came := m.came.filter (fun x => !keyBefore (cutKey s.desc x.step x.point) s.next) }) s.members }

/-- A series that the slot's clock could not begin yet begins at a cut (R239). -/
def Pset.begin (s : Pset) (k : CutKey) : Pset := if s.fresh then { s with next := k, fresh := false } else s

/-- The declared cuts before cut `k` that are not closed, earlier first: those that are open, and those that never opened. Of the latter a slot clock
that has jumped by more than 64 steps leaves only the last 64 steps' (R239). -/
def Tray.unclosed (t : Tray) (s : Pset) (k : CutKey) : List CutKey :=
  let clk := t.u.step s.slot
  let base := firstKey s.desc (clk.idx - 64)
  let jumped := clk.haveMark && stepAfter clk.idx (s.next.1 + 64) && keyBefore s.next base
  let older := if jumped then (s.openCuts.filter (fun c => c.epoch = clk.epoch && keyBefore c.key base && keyBefore c.key k)).map Cut.key else []
  let start := if jumped then base else s.next
  older ++ keysTo s.desc k (16 * ((k.1 - start.1).toNat + 1)) start

/-- A cut closes, and with it every earlier declared cut that is not closed, earlier first, with reason 3 (R242). -/
def Tray.closeCut (t : Tray) (p : Nat) (k : CutKey) (reason : Nat) : Tray :=
  match t.pset p with
  | none => t
  | some s =>
    let s := s.begin k
    let e := (t.u.step s.slot).epoch
    let s := (t.unclosed s k).foldl (fun (v : Pset) x => t.closeOne v x e 3) s
    let s := t.closeOne s k e reason
    let s := ({ s with next := nextKey s.desc k }).trim.giveBanks
    t.setPset p s

/-- Close the earliest of the open cuts that are complete, and so on (reason 0): `n` bounds them. -/
def Tray.closeComplete (t : Tray) (p : Nat) : Nat → Tray
  | 0 => t
  | n + 1 =>
    match t.pset p with
    | none => t
    | some s =>
      match s.openCuts.find? (fun c => t.cutComplete s c) with
      | some c => (t.closeCut p c.key 0).closeComplete p n
      | none => t

/-! ### Contributions (R239, R240) -/

/-- A contribution to a pan set: a frame's or a child harvest's header. `share` is what it adds to its member's part. -/
structure Contrib where
  step : W32
  point : Nat
  epoch : Byte
  job : W32
  seq : W32
  level : Nat
  lslot : Nat
  grain : Nat
  share : Share
deriving DecidableEq, Repr

/-- Add a contribution to a member's part. -/
def Share.plus (a b : Share) : Share :=
  { fines := a.fines ++ b.fines, stretched := a.stretched + b.stretched, suspect := a.suspect + b.suspect, hold := a.hold + b.hold,
    podInv := a.podInv + b.podInv, scoreLate := a.scoreLate || b.scoreLate, late := a.late + b.late,
    tally := if a.tally.isEmpty then b.tally else (a.tally.zip b.tally).map (fun x => x.1 + x.2), sent := a.sent, left := a.left }

def rkLate : RecKind := rk 0x24 0x0001 1 .bySeverity
def rkOutOfWindow : RecKind := rk 0x24 0x0003 2 .bySeverity

/-- The level changes sent so far to the leaf of a member, for one of its job slots. -/
def Tray.ringChanges (t : Tray) (s : Pset) (j lslot : Nat) : Nat :=
  match t.ringOf 0 lslot (pMember s.desc j).1 with
  | some r => (smGet t.rings r IRing.reset).changes
  | none => 0

/-- A member's contribution is noted as its previous one (R241), with the level changes sent to it so far. -/
def Pset.noteSeq (s : Pset) (j : Nat) (c : Contrib) (chg : Nat) : Pset :=
  let m := smGet s.members j Member.reset
  { s with members := smPut s.members j { m with lastSeq := some c.seq, level := c.level, lslot := some c.lslot, grain := c.grain, changes := chg } }

/-- A member's contribution to the series is noted for settling (R241). -/
def Pset.noteCame (s : Pset) (j : Nat) (c : Contrib) (chg : Nat) : Pset :=
  let m := smGet s.members j Member.reset
  let gap := match m.lastSeq with | some q => decide (c.seq ≠ q + 1) | none => false
  let came := if keyBefore (cutKey s.desc c.step c.point) s.next then m.came else m.came ++ [⟨c.step, c.point, gap, c.level, m.level⟩]
  ({ s with members := smPut s.members j { m with came := came } }).noteSeq j c chg

/-- A child's harvest is discarded as mismatched (R245): the next one that is taken shows a gap. -/
def Pset.noteLost (s : Pset) (j : Nat) (hseq : W32) : Pset :=
  let m := smGet s.members j Member.reset
  if m.lastSeq.isSome then s else { s with members := smPut s.members j { m with lastSeq := some (hseq - 1) } }

/-- A pan set judges a contribution of member `j` at its ring write (R240). Answers whether it is in time. A contribution that needs a new cut
while all banks have open cuts closes the oldest open cut with reason 4 (R239), in the cycle in which it is in time itself. A pan set that a PFREE frees opens
no further cut (R242). -/
def Tray.contribute (t : Tray) (p j : Nat) (c : Contrib) : Tray × Bool :=
  match t.pset p with
  | none => (t, false)
  | some s =>
    let clk := t.u.step s.slot
    let k := cutKey s.desc c.step c.point
    let chg := t.ringChanges s j c.lslot
    if c.job ≠ clk.job || c.epoch ≠ clk.epoch then (t.setPset p { s.noteSeq j c chg with stale := satAdd s.stale 1 0xFFFFFFFF }, false)
    else if s.freeing.isSome && !keyBefore k s.next then (t, false)
    else
      let oow := fun (s : Pset) =>
        let t := t.setPset p { s with oow := satAdd s.oow 1 0xFFFFFFFF }
        t.blk (fun u => (u.cause 0x24 0 1).report rkOutOfWindow (.slot s.slot)
          (pay [fd 0x24 2 p, fd 0x28 4 c.step.toNat, fd 0x2C 4 (pMember s.desc j).1.toNat]))
      if clk.haveMark && stepAfter c.step (clk.idx + 2) then ((oow (s.noteCame j c chg)).closeComplete p 64, false)
      else
      let s := s.begin k
      if keyBefore k s.next then
        let s := { s.noteCame j c chg with late := s.late + 1, lateTot := satAdd s.lateTot 1 0xFFFFFFFF }
        let t := t.setPset p s
        let t := t.blk (fun u => (u.cause 0x24 0 0).report rkLate (.slot s.slot)
          (pay [fd 0x24 2 p, fd 0x26 1 c.point, fd 0x28 4 c.step.toNat, fd 0x2C 4 (pMember s.desc j).1.toNat]))
        (t.closeComplete p 64, false)
      else
        let has := match s.cut? k c.epoch with
          | some x => (smGet x.shares j Share.reset).fines.contains (c.step, c.point)
          | none => false
        if has then ((oow (s.noteCame j c chg)).closeComplete p 64, false)
        else
          let s := s.noteCame j c chg
          let full := (s.cut? k c.epoch).isNone && decide (pNbank s.desc ≤ s.openCuts.length)
          let oldest := if full then s.openCuts.head? else none
          let s := if (s.cut? k c.epoch).isNone then { s with cuts := insertCut (t.newCut s k) s.cuts } else s
          let s := s.modCut k c.epoch (fun x => { x with shares := smUpd x.shares j Share.reset (fun h => h.plus c.share) })
          let t := t.setPset p (if full then s else s.giveBanks)
          let t := match oldest with
            | some o =>
              (t.closeCut p o.key 4).blk (fun u => (u.cause 0x24 0 2).report rkCutForced (.slot s.slot)
                (pay [fd 0x24 2 p, fd 0x26 1 o.point, fd 0x28 4 o.step.toNat]))
            | none => t
          (t.closeComplete p 64, true)

/-! ### Deadlines (R238, R242) -/

/-- The slot clock has jumped by more than 64 steps past the next declared cut: cuts before the last 64 steps that never opened are
not published (R239). -/
def Tray.skipJump (t : Tray) (s : Pset) : Pset :=
  let c := t.u.step s.slot
  if !stepAfter c.idx (s.next.1 + 64) || (s.cut? s.next c.epoch).isSome then s
  else
    let base := firstKey s.desc (c.idx - 64)
    let upTo := match s.openCuts.find? (fun x => x.epoch = c.epoch) with
      | some o => if keyBefore o.key base then o.key else base
      | none => base
    if keyBefore s.next upTo then { s with next := upTo }.trim else s

/-- CUT_ANGLE_DEADLINE: time moves to the angle deadline of the next declared cut of a pan set, where its slot's clock can tell it, and every cut whose
deadline is reached closes with reason 1. -/
def Tray.angleDeadline (t : Tray) (p : Nat) : Tray :=
  match t.pset p with
  | none => t
  | some s =>
    let at1 := cutStamp s.desc s.next
    let t := t.blk (fun u => u.toStamp s.slot at1.1 at1.2)
    if t.u.stampReached s.slot at1.1 at1.2 && (t.u.step s.slot).haveMark && !s.fresh && s.freeing.isNone then
      let s := t.skipJump s
      let at2 := cutStamp s.desc s.next
      let t := t.setPset p s
      if t.u.stampReached s.slot at2.1 at2.2 then t.closeCut p s.next 1 else t
    else t

/-- The open cut whose pod-time deadline comes first: that which opened first (R238). -/
def Pset.firstOpened (s : Pset) : Option Cut :=
  match s.openCuts with
  | [] => none
  | c :: r => some (r.foldl (fun (b : Cut) x => if reached64 x.topen b.topen then b else x) c)

/-- CUT_TIME_DEADLINE: the pod-time deadline of an open cut of a pan set is reached, that which comes first (R238): never while TB0 is not valid. -/
def Tray.timeDeadline (t : Tray) (p : Nat) : Tray :=
  match t.pset p with
  | none => t
  | some s =>
    match s.firstOpened with
    | none => t
    | some c => if t.u.clk.valid then
        let at1 := c.topen + BitVec.ofNat 64 (pDns s.desc * 1000)
        (t.blk (fun u => u.toNs at1)).closeCut p c.key 2
      else t

/-- A member became active or inactive: cuts that are complete now close (R241, R242). -/
def Tray.recheckCuts (t : Tray) : Tray := (t.psets.map (·.1)).foldl (fun (v : Tray) p => v.closeComplete p 64) t

/-- Every open cut closes with the reason given, earlier first, and the cuts before it that never opened with reason 3 (R242). -/
def Tray.closeAll (t : Tray) (p reason : Nat) : Tray :=
  match t.pset p with
  | none => t
  | some s => s.openCuts.foldl (fun (v : Tray) c => v.closeCut p c.key reason) t

/-- The first declared cut whose angle deadline is still to come on the slot's clock (R239). -/
def Tray.seriesStart (t : Tray) (d : List Byte) (slot : Nat) : CutKey :=
  let back := if pGrain d = 0 then 2 else 2 ^ pGrain d
  let k0 := firstKey d ((t.u.step slot).idx - BitVec.ofNat 32 back)
  let keys := keysTo d ((t.u.step slot).idx + 3, 0) 64 k0
  (keys.find? (fun k => let s := cutStamp d k; !t.u.stampReached slot s.1 s.2)).getD (firstKey d ((t.u.step slot).idx + 1))

/-- A slot's clock knows its step: it has a mark, and one of the present epoch (R51, R363). -/
def Tray.hasBase (t : Tray) (slot : Nat) : Bool := (t.u.step slot).haveMark && !(t.u.step slot).notice

/-- The slot's clock has its base now: pan sets whose series waits for it begin with the first cut whose deadline is still to come (R239). -/
def Tray.startSeries (t : Tray) (slot : Nat) : Tray :=
  t.psets.foldl (fun (v : Tray) e =>
    if e.2.slot = slot && v.hasBase slot then v.setPset e.1 (e.2.begin (v.seriesStart e.2.desc slot)) else v) t

end Sys2Proof.Machine
end

