-- ==== Sys2Proof/Machine/PanPub.lean ====
section
/-!
DEFINITION. Publication of harvests: reading and merging banks, staging, host harvest rings and relay to the parent (spec/11_pans_reduction.md, R243 to
R248; spec/01_pod_role.md, R23, R24).
-/

namespace Sys2Proof.Machine

def rkStagingFull : RecKind := rk 0x27 0x0003 3 .always
def rkRingFull : RecKind := rk 0x27 0x0002 2 .bySeverity
def rkPaced : RecKind := rk 0x27 0x0004 1 .bySeverity

/-- Bytes of the harvest-staging region (R195). -/
def stagingCap : Nat := 96 * 2 ^ 20

/-- A staged harvest still occupies staging: it waits for its ring or for the relay. -/
def Staged.inStaging (h : Staged) : Bool := (h.ring.isSome && h.endAt.isNone) || (h.relay && !h.sent)

/-- Staging bytes in use. -/
def Tray.stagingUse (t : Tray) : Nat := ((t.staged.filter Staged.inStaging).map (fun h => h.bytes.length)).sum

/-- Fine cuts of a child in a cut. -/
def fineCount (d : List Byte) (m : Member) : Nat :=
  let g := pGrain d
  if g = 0 then 1 else if m.grain = 0 then (pPoints d).length * 2 ^ (g - 1) else 2 ^ (g - 1) / 2 ^ (m.grain - 1)

/-- The ten counts of a tally block (R247): expected, contributed, decimated, withheld, lost, missing, inactive, stretched, suspect, hold. -/
def tallyOf (s : Pset) (c : Cut) : List Nat :=
  let d := s.desc
  let js := List.range (pNmem d)
  let st := fun (j : Nat) => c.statuses.getD j 6
  if pLevel d = 1 then
    let six := (List.range 6).map (fun i => (js.filter (fun j => st j = i + 1)).length)
    let sh := c.shares.map (·.2)
    six.sum :: six ++ [(sh.map Share.stretched).sum, (sh.map Share.suspect).sum, (sh.map Share.hold).sum]
  else
    let six := fun (i : Nat) => (js.map (fun j =>
      if st j = 1 then (smGet c.shares j Share.reset).tally.getD (i + 1) 0
      else if st j = i + 1 then (pMember d j).2.1 * fineCount d (smGet s.members j Member.reset) else 0)).sum
    let l := (List.range 6).map six
    let rest := fun (i : Nat) => (c.shares.map (fun e => e.2.tally.getD (7 + i) 0)).sum
    l.sum :: l ++ [rest 0, rest 1, rest 2]

/-- The contributor map (R247). -/
def contributors (c : Cut) : Nat := (c.shares.map (fun e => 2 ^ e.1)).sum

/-- The bank of replica 0 with the other replicas folded in (R243). -/
def Tray.mergeReplicas (t : Tray) (d : List Byte) (b : Nat) : Tray :=
  (List.range (pNrep d - 1)).foldl (fun (t : Tray) r0 =>
    (pPans d).foldl (fun (t : Tray) e =>
      (List.range (bankLines (pNmem d) e.2)).foldl (fun (t : Tray) l =>
        let a := panLine d (r0 + 1) b e.1 l
        let rd := t.readLine a.1 a.2
        rd.1.mergeLine d 0 b e.1 l (rd.1.line a.1 a.2)) t) t) t

/-- Read a pan's bank lines: the lines, and which of them are poisoned. -/
def Tray.readPan (t : Tray) (d : List Byte) (b i : Nat) : Tray × List Line × List Nat :=
  let p := pPan d i
  let r := (List.range (bankLines (pNmem d) p)).foldl (fun (acc : Tray × List Line × List Nat) l =>
      let a := panLine d 0 b i l
      let rd := acc.1.readLine a.1 a.2
      (rd.1, acc.2.1 ++ [rd.1.line a.1 a.2], if rd.2 then acc.2.2 ++ [l] else acc.2.2)) (t, [], [])
  let ls := r.2.1
  (r.1, if p.type = 4 then ls.set 65 (histReadout p ls) else ls, r.2.2)

/-- A bank returns to its empty state (R233). -/
def Tray.clearBank (t : Tray) (d : List Byte) (b : Nat) : Tray :=
  (List.range (pNrep d)).foldl (fun (t : Tray) r =>
    (pPans d).foldl (fun (t : Tray) e =>
      (List.range (bankLines (pNmem d) e.2)).foldl (fun (t : Tray) l =>
        let a := panLine d r b e.1 l
        t.setLine a.1 a.2 (emptyLine e.2 l)) t) t) t

/-- A pan block (R248). -/
def panBlock (i : Nat) (p : PanEnt) (ls : List Line) : List Byte :=
  let sb : Byte := BitVec.ofInt 8 p.s
  layout 16 [fd 0 2 i, fd 2 1 p.type, fd 3 1 sb.toNat, fd 4 4 ls.length, fd 8 1 p.param] ++ (ls.map (fun l => leBytes 16 l.toNat)).flatten

/-- The whole harvest with its CRC (R246 to R248). -/
def Tray.harvestBytes (t : Tray) (p : Nat) (s : Pset) (c : Cut) (blocks : List Byte) : List Byte :=
  let d := s.desc
  let sh := c.shares.map (·.2)
  let cl := c.closed.getD (0, 0, true)
  let flags := (pFlag d 2).toNat * 128 + c.shares.isEmpty.toNat * 64 + (sh.any (fun x => x.suspect ≠ 0)).toNat * 32 +
    (sh.any (fun x => x.hold ≠ 0)).toNat * 16 + (sh.any (fun x => x.podInv ≠ 0) || !c.openOk || !cl.2.2).toNat * 8 +
    (c.scoreLate || sh.any Share.scoreLate).toNat * 4 + pLevel d
  let len := 160 + blocks.length
  let late := s.late + (sh.map Share.late).sum
  let ta := tallyOf s c
  let head := layout 64 [fd 0 1 1, fd 1 1 flags, fd 2 1 cl.1, fd 3 1 c.epoch.toNat, fd 4 4 (pJob d).toNat, fd 8 2 p, fd 0x0A 1 c.point,
    fd 0x0B 1 (pGrain d), fd 0x0C 4 c.step.toNat, fd 0x10 4 c.hseq.toNat, fd 0x14 4 (t.u.rn R.PAN_NODE), fd 0x18 8 c.topen.toNat,
    fd 0x20 8 cl.2.1.toNat, fd 0x28 4 len, fd 0x2C 2 (pNpan d), fd 0x2E 2 s.gen, fd 0x30 4 late, fd 0x34 2 (pMask d)]
  let tal := layout 96 ((List.range 10).map (fun i => fd (4 * i) 4 (ta.getD i 0)) ++ [fd 0x40 32 (contributors c)])
  let all := head ++ tal ++ blocks
  overlay all 0x3C (leBytes 4 (crc32c all).toNat)

/-- An in-time contribution to a cut still stands in its ingest ring (R240). -/
def Tray.undistributed (t : Tray) (p : Nat) (s : Pset) (c : Cut) : Bool :=
  t.rings.any (fun e => e.2.items.any (fun x => x.judged.any (fun j =>
    j.inTime && decide (j.pset = p) && decide (j.gen = s.gen) && decide (cutKey s.desc j.step j.point = c.key) && decide (j.epoch = c.epoch))))

/-- The cut that is read next: the first closed cut whose last in-time unit has ended (R243). A cut that still waits for units does not hold back the bank of
a later one; the harvests leave staging in order. -/
def Tray.ripe (t : Tray) (p : Nat) (s : Pset) : Option Cut :=
  s.cuts.find? (fun c => c.closed.isSome && decide (c.pend = 0) && !t.undistributed p s c)

/-- A harvest takes its place in staging: before those of its pan set with later numbers. -/
def insertStaged (h : Staged) : List Staged → List Staged
  | [] => [h]
  | x :: r => if x.pset = h.pset && x.gen = h.gen && stepAfter x.hseq h.hseq then h :: x :: r else x :: insertStaged h r

/-- A harvest may leave staging: none of its pan set with an earlier number is still to be staged (R243). -/
def Tray.leavesInOrder (t : Tray) (h : Staged) : Bool :=
  match t.pset h.pset with
  | some s => s.gen ≠ h.gen || !s.cuts.any (fun c => c.closed.isSome && stepAfter h.hseq c.hseq)
  | none => true

/-- A closed cut of a pan set, once its last in-time unit has ended, is read, merged and staged (R243), and its bank frees; poisoned bank lines stay poisoned
in the harvest (R386). Answers the staged harvest. A harvest that finds staging full keeps its bank (R245). -/
def Tray.publish (t : Tray) (p : Nat) : Tray × Option Staged :=
  match t.pset p with
  | none => (t, none)
  | some s =>
    match t.ripe p s with
    | none => (t, none)
    | some c =>
      if stagingCap < t.stagingUse + harvestLen s.desc then
        (t.blk (fun u => ((u.cause 0x24 0 3).cause 0x27 0 1).report rkStagingFull .dflt (pay [fd 0x24 2 p, fd 0x28 4 t.stagingUse])), none)
      else
        let d := s.desc
        let inj := t.u.armed 0x27 0 3 && decide (t.u.injParam 0x27 0 % 1024 = p)
        let t := if inj then t.blk (fun u => u.fire 0x27 0 3 false) else t
        let t := match c.bank with | some b => t.mergeReplicas d b | none => t
        let r := (pPans d).foldl (fun (acc : Tray × List Byte × List (Nat × List Nat)) e =>
            match c.bank with
            | some b =>
              let x := acc.1.readPan d b e.1
              let bad := if inj && acc.2.1.isEmpty then (0 :: x.2.2).dedup else x.2.2
              let at0 := 160 + acc.2.1.length + 16
              (x.1, acc.2.1 ++ panBlock e.1 e.2 x.2.1, if bad.isEmpty then acc.2.2 else acc.2.2 ++ [(e.1, bad.map (fun l => at0 + 16 * l))])
            | none =>
              let ls := (List.range (bankLines (pNmem d) e.2)).map (emptyLine e.2)
              let ls := if e.2.type = 4 then ls.set 65 (histReadout e.2 ls) else ls
              (acc.1, acc.2.1 ++ panBlock e.1 e.2 ls, acc.2.2)) (t, ([] : List Byte), ([] : List (Nat × List Nat)))
        let t := r.1
        let bytes := t.harvestBytes p s c r.2.1
        let t := match c.bank with | some b => t.clearBank d b | none => t
        let t := r.2.2.foldl (fun (v : Tray) i => v.panPoisoned p i.1 c.hseq.toNat 0xFFFFFFFF) t
        let at0 := t.harvestPlace bytes.length
        let t := t.wroteBytes 2 at0 bytes.length
        let t := (r.2.2.flatMap (·.2)).foldl (fun (v : Tray) o =>
          (v.setFlaw 2 ((at0 + o) / 8) flawPoison).setFlaw 2 ((at0 + o) / 8 + 1) flawPoison) t
        let h : Staged := ⟨t.stagedIds, p, s.gen, c.hseq, c.step, c.point, bytes, if pFlag d 0 then some (pHring d) else none, pFlag d 1,
          false, none, false, false, at0⟩
        let s := match t.pset p with | some x => x | none => s
        let s := ({ s with cuts := s.cuts.filter (fun x => !(x.key = c.key && decide (x.epoch = c.epoch))), late := 0, published := s.published + 1 }).giveBanks
        let keep := h.ring.isSome || h.relay
        let t := { t.setPset p s with staged := if keep then insertStaged h t.staged else t.staged, stagedIds := t.stagedIds + 1 }
        (t.blk (fun u => u.peak R.HRV_SPEAK t.stagingUse), some h)

/-! ### Host harvest rings (R244) -/

/-- The register keys of host harvest ring `h`. -/
def hrv (r h : Nat) : Nat := inst r h

/-- Bytes of a harvest ring: none while n lies outside 16 to 32. -/
def Tray.hrvSize (t : Tray) (h : Nat) : Nat :=
  let n := t.u.rf (hrv R.HRV_RCFG h) 16 5
  if 16 ≤ n && n ≤ 32 then 2 ^ n else 0

/-- Bytes that a block of `len` skips at the end of the ring. -/
def Tray.hrvPad (t : Tray) (h len : Nat) : Nat :=
  let o := t.u.rn (hrv R.HRV_RPI h)
  if t.hrvSize h < o + len then t.hrvSize h - o else 0

/-- A block of `len` bytes fits before RCI with 16 bytes to spare (R244). -/
def Tray.hrvFits (t : Tray) (h len : Nat) : Bool :=
  let sz := t.hrvSize h
  let used := (t.u.rn (hrv R.HRV_RPI h) + sz - t.u.rn (hrv R.HRV_RCI h)) % sz
  decide (used + t.hrvPad h len + len + 16 ≤ sz)

/-- Write a block at RPI, behind a pad where it would run past the end; the words at the offsets `bad` go out as Poisoned TLPs (R386). Answers the offset it
stands at. -/
def Tray.hrvPut (t : Tray) (h : Nat) (l : List Byte) (bad : List Nat) : Tray × Nat :=
  let base := t.u.rn64 (hrv R.HRV_RBASE_L h) (hrv R.HRV_RBASE_H h)
  let o := t.u.rn (hrv R.HRV_RPI h)
  let pad := t.hrvPad h l.length
  let u := if pad = 0 then t.u else t.u.hostWrite (base + o) (layout 16 [fd 4 4 pad])
  let o := if pad = 0 then o else 0
  let u := bad.foldl (fun (u : Blk) b => u.hostPoison (base + o + b)) (u.hostWrite (base + o) l)
  ({ t with u := u.setN (hrv R.HRV_RPI h) ((o + l.length) % t.hrvSize h) }, o)

/-- The next harvest that a ring waits for. -/
def Tray.hrvNext (t : Tray) (h : Nat) : Option Staged := t.staged.find? (fun x => x.ring = some h && x.endAt.isNone && t.leavesInOrder x)

/-- A staged harvest is read from the brine store (R194, R384): the offsets of its poisoned words. -/
def Tray.readStaged (t : Tray) (x : Staged) : Tray × List Nat :=
  let r := t.readBytes 2 x.base x.bytes.length
  let w := wordsOf x.base x.bytes.length
  (r.1, if r.2 then ((r.1.flawed 2 w.1 w.2).filter (fun k => r.1.flaw 2 k = flawPoison)).map (fun k => 8 * k - x.base) else [])

def Tray.modStaged (t : Tray) (id : Nat) (f : Staged → Staged) : Tray :=
  { t with staged := t.staged.map (fun (x : Staged) => if x.id = id then f x else x) }

/-- A harvest that finds no room in its ring waits; "harvest ring full" is written once a wait, with repeats (R244). -/
def Tray.ringWait (t : Tray) (x : Staged) (h : Nat) : Tray :=
  if x.noted then t
  else (t.modStaged x.id (fun y => { y with noted := true })).blk (fun u =>
    (u.cause 0x27 0 0).report rkRingFull .dflt (pay [fd 0x24 4 h]))

/-- Distance from RCI to the end of what has been written. -/
def Tray.hrvUsed (t : Tray) (h : Nat) : Nat :=
  let sz := t.hrvSize h
  (t.u.rn (hrv R.HRV_RPI h) + sz - t.u.rn (hrv R.HRV_RCI h)) % sz

/-- HARVEST_RING_WRITE: the next harvest of a host ring is written where it fits, and "harvest published" follows (R244). -/
def Tray.ringWrite (t : Tray) (h : Nat) : Tray :=
  match t.hrvNext h with
  | none => t
  | some x =>
    if !t.u.rb (hrv R.HRV_RCFG h) 31 || !t.u.pw.busMaster || t.hrvSize h = 0 then t
    else if !t.hrvFits h x.bytes.length then t.ringWait x h
    else
      let rd := t.readStaged x
      let r := rd.1.hrvPut h x.bytes rd.2
      let t := r.1.modStaged x.id (fun y => { y with endAt := some (r.1.hrvUsed h) })
      t.held (t.u.rf (hrv R.HRV_RCFG h) 0 9) (.harvest h (pay [fd 0x24 2 x.pset, fd 0x26 1 h, fd 0x27 1 x.point, fd 0x28 4 x.step.toNat,
        fd 0x2C 4 x.hseq.toNat, fd 0x30 4 r.2, fd 0x34 4 x.bytes.length]))

/-- A harvest has been acknowledged in every way that it is delivered (R242). -/
def Staged.acked (h : Staged) : Bool := !h.relay && (h.ring.isNone || h.endAt = some 0)

/-- Acknowledged harvests are forgotten. -/
def Tray.dropAcked (t : Tray) : Tray := { t with staged := t.staged.filter (fun h => !h.acked) }

/-- HARVEST_RING_RCI_WRITE: driver software writes RCI, a multiple of 16; other values are ignored (R244, R251). What it passes is acknowledged. -/
def Tray.rciWrite (t : Tray) (h v : Nat) : Tray :=
  let sz := t.hrvSize h
  let adv := (v + 2 ^ 32 - t.u.rn (hrv R.HRV_RCI h)) % sz
  if v % 16 ≠ 0 then t.blk (fun u => u.cause 0x27 0 2)
  else
    let t := t.blk (fun u => u.setN (hrv R.HRV_RCI h) v)
    ({ t with staged := t.staged.map (fun (x : Staged) => if x.ring = some h then { x with endAt := x.endAt.map (fun e => e - adv) } else x) }).dropAcked

/-! ### Relay (R23, R24, R245) -/

/-- Ingest bytes add to the harvest credit (R23): one byte a hundred, at most 4 MiB. -/
def Tray.addIngest (t : Tray) (n : Nat) : Tray :=
  let s := t.relayRem + n
  { t with relay := min (2 ^ 22) (t.relay + s / 100), relayRem := s % 100 }

/-- The segments of a harvest (R245). -/
def harvestSegs (h : Staged) : List (List Byte) :=
  let n := ceilDiv h.bytes.length 8176
  (List.range n).map (fun i =>
    let part := (h.bytes.drop (8176 * i)).take 8176
    layout 16 [fd 0 1 4, fd 1 1 ((decide (i = 0)).toNat * 128 + (decide (i + 1 = n)).toNat * 64), fd 2 2 part.length, fd 4 4 h.hseq.toNat,
      fd 8 4 (8176 * i), fd 0x0C 2 h.pset, fd 0x0E 2 i] ++ part)

/-- The harvest credit is zero after any reset (R23, R373). -/
def Tray.relayZero (t : Tray) : Tray := { t with relay := 0, relayRem := 0 }

/-- HARVEST_RELAY: the harvest at the head of the relay queue leaves once the credit is at least its size; until then it and all behind it wait. -/
def Tray.relayNext (t : Tray) : Tray :=
  match t.staged.find? (fun x => x.relay && !x.sent && t.leavesInOrder x) with
  | none => t
  | some x =>
    if t.relay < x.bytes.length then
      if x.paced then t
      else (t.modStaged x.id (fun y => { y with paced := true })).blk (fun u =>
        (u.bump R.HRV_PACED).report rkPaced .dflt (pay [fd 0x24 2 x.pset, fd 0x28 4 t.relay]))
    else
      let l := t.u.parentLink
      let rd := t.readStaged x
      let t := rd.1
      let u := ((harvestSegs x).zipIdx).foldl (fun (u : Blk) b =>
        let bad := rd.2.any (fun o => decide (8176 * b.2 ≤ o) && decide (o < 8176 * (b.2 + 1)))
        u.enqueue (u.linkPort l) 4 { mkMsg 5 l b.1 with tag := BitVec.ofNat 32 (x.id + 1), badWord := bad }) t.u
      ({ t with u := u, relay := t.relay - x.bytes.length }).modStaged x.id (fun y => { y with sent := true })

/-- Messages of a port that carry a tag. -/
def Blk.tagged (u : Blk) (p : Nat) (kind : Nat) (tag : W32) : Bool :=
  let x := u.port p
  let hit := fun (m : Msg) => m.kind = kind && decide (m.tag = tag)
  x.queues.any (fun e => e.2.any hit) || x.waiting.any (fun e => e.2.any hit) || (match x.onPort with | some o => hit o.msg | none => false)

/-- Relayed harvests whose last beat has left the port are acknowledged (R242). -/
def Tray.relayGone (t : Tray) : Tray :=
  ({ t with staged := t.staged.map (fun (x : Staged) =>
      if x.relay && x.sent && !(List.range 8).any (fun p => t.u.tagged p 5 (BitVec.ofNat 32 (x.id + 1))) then { x with relay := false } else x)
  }).dropAcked

end Sys2Proof.Machine
end

