-- ==== Sys2Proof/Machine/Package.lean ====
section
/-!
DEFINITION. Gulti packages: reading one, the checks of MLOAD, loading and unloading, and walking its trees (spec/12_tree_ensembles.md, R252 to R264 and
R273, R274).
-/

namespace Sys2Proof.Machine

/-! ### Reading (R252) -/

/-- A package's header fields. -/
structure PkgHdr where
  nens : Nat
  ngroup : Nat
  nimg : Nat
  ncore : Nat
  ngath : Nat
  batch : Nat
  csamp : Nat
  length : Nat
  nbytes : Nat
  sbytes : Nat
  ens : Nat
  grp : Nat
  proj : Nat
  img : Nat
  core : Nat
  node : Nat
  sig : Nat
deriving DecidableEq, Repr

def Tray.pkgHdr (t : Tray) (a : Nat) : PkgHdr :=
  let n := fun (o k : Nat) => t.lpNum (a + o) k
  { nens := n 6 1, ngroup := n 8 4, nimg := n 0x0C 4, ncore := n 0x10 4, ngath := n 0x14 2, batch := n 0x16 2, csamp := n 0x18 2,
    length := n 0x20 8, nbytes := n 0x28 8, sbytes := n 0x30 8, ens := n 0x38 8, grp := n 0x40 8, proj := n 0x48 8, img := n 0x50 8,
    core := n 0x58 8, node := n 0x60 8, sig := n 0x68 8 }

/-- A group entry's fields. -/
structure GrpEnt where
  ens : Nat
  flags : Nat
  nfeat : Nat
  nrep : Nat
  span : Nat
  ntree : Nat
  proj : Nat
  img : Nat
  core : Nat
  bytes : Nat
deriving DecidableEq, Repr

def Tray.grpEnt (t : Tray) (a : Nat) (h : PkgHdr) (g : Nat) : GrpEnt :=
  let n := fun (o k : Nat) => t.lpNum (a + h.grp + 32 * g + o) k
  { ens := n 0 1, flags := n 1 1, nfeat := n 2 1, nrep := n 3 1, span := n 4 2, ntree := n 6 2, proj := n 8 4, img := n 0x0C 4,
    core := n 0x10 4, bytes := n 0x18 8 }

def Tray.imgEnt (t : Tray) (a : Nat) (h : PkgHdr) (i : Nat) : Img :=
  let n := fun (o k : Nat) => t.lpNum (a + h.img + 16 * i + o) k
  { addr := a + h.node + n 0 8, words := n 8 2, ntree := n 0x0A 2, base := n 0x0C 2 }

/-- Copies of a group's span: its replicas, or the one stream span. -/
def GrpEnt.copies (g : GrpEnt) : Nat := if g.nrep = 0 then 1 else g.nrep

/-- What a package says. -/
def Tray.pkg (t : Tray) (a : Nat) : Pkg :=
  let h := t.pkgHdr a
  let coreAt := fun (i : Nat) => t.lpNum (a + h.core + 8 * i) 8
  let groups : List Grp := (List.range h.ngroup).map (fun gi =>
    let g := t.grpEnt a h gi
    { ens := g.ens, streamed := g.flags % 2 = 1, feats := (List.range g.nfeat).map (fun j => t.lpNum (a + h.proj + 2 * (g.proj + j)) 2),
      nrep := g.nrep, span := g.span, ntree := g.ntree, imgs := (List.range g.span).map (fun p => t.imgEnt a h (g.img + p)),
      coreAt := g.core, cores := (List.range (g.copies * g.span)).map (fun k => coreAt (g.core + k)), bytes := g.bytes })
  let bc := ((groups.filter Grp.streamed).map (fun g => ceilDiv (g.bytes * h.csamp) h.batch + 640 * h.csamp)).sum
  { bases := (List.range h.nens).map (fun e => (BitVec.ofNat 64 (t.lpNum (a + h.ens + 32 * e + 8) 8)).toInt), groups := groups,
    gaths := (List.range h.ngath).map (fun i => coreAt (h.ncore - h.ngath + i)), batch := h.batch, csamp := h.csamp, nbytes := h.nbytes,
    sbytes := h.sbytes, bcut := bc }

/-! ### Structure checks (R252, R254) -/

/-- Sections lie in order, each at a multiple of 16 and inside the package. -/
def Tray.pkgSections (t : Tray) (a : Nat) (h : PkgHdr) : Bool :=
  let projEnd := ((List.range h.ngroup).map (fun g => let e := t.grpEnt a h g; 2 * (e.proj + e.nfeat))).foldl max 0
  let nodeEnd := ((List.range h.nimg).map (fun i => let e := t.imgEnt a h i; e.addr - (a + h.node) + 8 * e.words)).foldl max 0
  [h.ens, h.grp, h.proj, h.img, h.core, h.node, h.sig].all (fun o => o % 16 = 0) &&
  decide (128 ≤ h.ens) && decide (h.ens + 32 * h.nens ≤ h.grp) && decide (h.grp + 32 * h.ngroup ≤ h.proj) &&
  decide (h.proj + projEnd ≤ h.img) && decide (h.img + 16 * h.nimg ≤ h.core) && decide (h.core + 8 * h.ncore ≤ h.node) &&
  decide (h.node + nodeEnd ≤ h.sig) && decide (h.sig + 128 = h.length)

/-- Header fields lie in their ranges and reserved ones are zero. -/
def Tray.pkgHeader (t : Tray) (a len : Nat) (h : PkgHdr) : Bool :=
  let n := fun (o k : Nat) => t.lpNum (a + o) k
  let within := fun (x lo hi : Nat) => decide (lo ≤ x) && decide (x ≤ hi)
  decide (n 0 4 = 0x55544C47) && decide (n 4 2 = 0x0203) && decide (h.length = len) && decide (n 7 1 = 0) && decide (n 0x1A 6 = 0) &&
  decide (n 0x70 12 = 0) && within h.nens 1 8 && within h.ngroup 1 16384 && within h.nimg 1 81920 && within h.ncore 1 81920 &&
  within h.ngath 1 64 && decide (h.ngath ≤ h.ncore) && within h.csamp 1 192

/-- A group entry's fields lie in their ranges. -/
def GrpEnt.ok (g : GrpEnt) (h : PkgHdr) : Bool :=
  decide (g.ens < h.nens) && decide (g.flags < 2) && decide (1 ≤ g.nfeat) && decide (g.nfeat ≤ 64) &&
  (if g.flags = 1 then decide (g.nrep = 0) else decide (1 ≤ g.nrep) && decide (g.nrep ≤ 64)) && decide (1 ≤ g.span) &&
  decide (g.span ≤ 4096) && decide (g.img + g.span ≤ h.nimg) && decide (g.core + g.copies * g.span ≤ h.ncore - h.ngath)

/-- Check 0x0303 of R254. -/
def Tray.pkgWhole (t : Tray) (a len : Nat) : Bool :=
  let h := t.pkgHdr a
  let n := fun (o k : Nat) => t.lpNum (a + o) k
  if !t.pkgHeader a len h then false
  else if !t.pkgSections a h then false
  else
    let gs := (List.range h.ngroup).map (t.grpEnt a h)
    let imgsOk := (List.range h.nimg).all (fun i =>
      let e := t.imgEnt a h i
      e.addr % 16 = (a + h.node) % 16 && decide (1 ≤ e.words) && decide (e.words ≤ 8192) && decide (1 ≤ e.ntree) &&
        decide (e.ntree ≤ e.words) && decide (n (h.img + 16 * i + 0x0E) 2 = 0))
    let ensOk := (List.range h.nens).all (fun e =>
      let o := h.ens + 32 * e
      let mine := gs.filter (fun g => g.ens = e)
      let q : W64 := BitVec.ofNat 64 (n (o + 8) 8)
      decide (1 ≤ n o 2) && decide (n o 2 ≤ 16384) && decide (n (o + 2) 1 ≤ 1) && decide (n (o + 3) 1 = 0) && decide (n (o + 16) 16 = 0) &&
        decide (mine.length = n (o + 4) 4) && decide ((mine.map GrpEnt.ntree).sum = n o 2) && decide (Int.natAbs q.toInt < 2 ^ 48))
    let grpOk := gs.all (fun g => g.ok h && decide (g.bytes = 8 * ((List.range g.span).map (fun p => (t.imgEnt a h (g.img + p)).words)).sum))
    let coreOk := (List.range h.ncore).all (fun i => decide (n (h.core + 8 * i) 8 < 81920))
    let str := gs.filter (fun g => g.flags = 1)
    let body := overlay (t.lpBytes a h.sig) 0x7C [0, 0, 0, 0]
    imgsOk && ensOk && grpOk && coreOk && (str.isEmpty || (decide (1 ≤ h.batch) && decide (h.batch ≤ 4096))) &&
    decide (n (h.sig + 0x70) 16 = 0) && decide (h.nbytes = (gs.map GrpEnt.bytes).sum) && decide (h.sbytes = (str.map GrpEnt.bytes).sum) &&
    decide (n 0x7C 4 = (crc32c body).toNat)

/-- Check 0x0304 of R254: a slot with the model role holds the key, and the signature verifies. -/
def Tray.pkgSigned (t : Tray) (a : Nat) : Bool :=
  let h := t.pkgHdr a
  let kid : BitVec 128 := BitVec.ofNat 128 (t.lpNum (a + h.sig) 16)
  t.u.idn.slots.any (fun e => e.2.keyid = kid && bit e.2.roles 1 &&
    Config.packageSigned e.2.key (t.lpBytes a h.sig) (t.lpBytes (a + h.sig + 16) 96))

/-! ### Node words (R260, R261) -/

/-- A node word's fields. -/
def nwFeature (w : W64) : Nat := fld w 18 14
def nwDelta (w : W64) : Nat := fld w 4 14
def nwLeaf (w : W64) : Bool := bit w 3
def nwThreshold (w : W64) : W32 := w.extractLsb' 32 32
def leafValue (w : W64) : Int := (w.extractLsb' 8 56).toInt

/-- Follow a tree from word `o`: answers the first word at fault, or the node words and the set offsets met. `rd` reads a word of the image,
`stop` is where the tree ends, and `n` bounds the words of a path. -/
def checkTree (rd : Nat → W64) (words ntree nfeat stop : Nat) : Nat → Nat → Except Nat (List Nat × List Nat)
  | 0, o => .error o
  | n + 1, o =>
    if o < ntree || words ≤ o then .error o
    else
      let w := rd o
      if nwLeaf w then
        if fld w 4 4 ≠ 0 || fld w 0 3 ≠ 0 || 2 ^ 48 ≤ Int.natAbs (leafValue w) then .error o else .ok ([o], [])
      else
        let cat := bit w 1
        let set := (nwThreshold w).toNat
        if nwDelta w = 0 || stop ≤ o + nwDelta w || nfeat ≤ nwFeature w then .error o
        else if !bit w 0 && (cat || f32IsNan (nwThreshold w)) then .error o
        else if cat && (set % 2 ≠ 0 || set < ntree || words < set + 4) then .error o
        else match checkTree rd words ntree nfeat stop n (o + 1) with
          | .error x => .error x
          | .ok l =>
            match checkTree rd words ntree nfeat stop n (o + nwDelta w) with
            | .error x => .error x
            | .ok r => .ok (o :: l.1 ++ r.1, (if cat then [set] else []) ++ l.2 ++ r.2)

/-- The first word at fault of an image, if any (R261). A tree ends where the next one's root stands, or with the image; the set area begins at the lowest
category set, and no node word stands in it or behind it (DEDUCED, log 125). -/
def checkImage (rd : Nat → W64) (words ntree nfeat : Nat) : Option Nat :=
  let roots := (List.range ntree).map (fun i => fld (rd i) 0 16)
  let stop := fun (r : Nat) => (roots.filter (fun x => r < x)).foldl min words
  let r := (List.range ntree).foldl (fun (acc : Except Nat (List Nat × List Nat)) i =>
    match acc with
    | .error x => .error x
    | .ok a =>
      let root := rd i
      if root.toNat ≥ 65536 then .error i
      else match checkTree rd words ntree nfeat (stop root.toNat) 64 root.toNat with
        | .error x => .error x
        | .ok b => .ok (a.1 ++ b.1, a.2 ++ b.2)) (.ok ([], []))
  match r with
  | .error x => some x
  | .ok (nodes, sets) => sets.find? (fun s => nodes.any (fun x => s ≤ x))

/-- Check 0x0305 over every image, for each group that names it: the core and word at fault. An image that no group names has no core, and no bound
of its own on feature indices. -/
def Tray.pkgWords (t : Tray) (a : Nat) : Option (Nat × Nat) :=
  let h := t.pkgHdr a
  let gs := (List.range h.ngroup).map (t.grpEnt a h)
  (List.range h.nimg).findSome? (fun i =>
    let im := t.imgEnt a h i
    let check := fun (nfeat core : Nat) =>
      (checkImage (fun o => BitVec.ofNat 64 (t.lpNum (im.addr + 8 * o) 8)) im.words im.ntree nfeat).map (fun w => (core, w))
    match gs.filter (fun g => g.img ≤ i && i < g.img + g.span) with
    | [] => check (2 ^ 14) 0xFFFFFFFF
    | mine => mine.findSome? (fun g => check g.nfeat (t.lpNum (a + h.core + 8 * (g.core + (i - g.img))) 8)))

/-! ### Slice space -/

/-- The lines of an image's node region. -/
def Img.lines (i : Img) : Nat := ceilDiv i.words 2

/-- The node regions of a package: core, first line, lines. -/
def Pkg.regions (p : Pkg) : List (Nat × Nat × Nat) :=
  (p.groups.map (fun g => (g.cores.zipIdx 0).map (fun e =>
    let im := g.imgs.getD (e.2 % max 1 g.span) ⟨0, 0, 0, 0⟩
    (e.1, im.base, im.lines)))).flatten

/-- The slice lines that pan sets take on cores. -/
def panRegions (d : List Byte) : List (Nat × Nat × Nat) :=
  ((List.range (pNrep d)).map (fun r => (List.range (pNcore d)).map (fun c => pCore d r c))).flatten

/-- Two regions overlap. -/
def regionsMeet (a b : Nat × Nat × Nat) : Bool :=
  decide (a.1 = b.1) && decide (a.2.1 < b.2.1 + b.2.2) && decide (b.2.1 < a.2.1 + a.2.2)

/-- Slice lines in use: pan cells, node regions, and the whole slice of a gatherer core, whose score table it holds. -/
def Tray.regions (t : Tray) : List (Nat × Nat × Nat) :=
  (t.psets.map (fun e => panRegions e.2.desc)).flatten ++ (t.models.map (fun e => e.2.pkg.regions)).flatten ++
    (t.models.map (fun e => e.2.pkg.gaths.map (fun c => (c, 0, 4096)))).flatten

/-- The cores a package names. -/
def Tray.pkgCores (t : Tray) (a : Nat) : List Nat :=
  let h := t.pkgHdr a
  (List.range h.ncore).map (fun i => t.lpNum (a + h.core + 8 * i) 8)

/-- The first number that a list has twice. -/
def firstTwice : List Nat → Option Nat
  | [] => none
  | x :: r => if r.contains x then some x else firstTwice r

/-- A core that two groups of a package name (R254): pinned groups share no core entry with another group, and stream spans are the same or apart. -/
def sharedCore : List Grp → Option Nat
  | [] => none
  | g :: r =>
    match r.findSome? (fun h => if g.streamed && h.streamed && g.coreAt = h.coreAt && g.span = h.span then none else g.cores.find? h.cores.contains) with
    | some c => some c
    | none => sharedCore r

/-- Check 0x0306: the core at fault, if any. -/
def Tray.pkgSpace (t : Tray) (a : Nat) (p : Pkg) : Option Nat :=
  match firstTwice (t.pkgCores a), sharedCore p.groups with
  | some c, _ => some c
  | none, some c => some c
  | none, none =>
    ((p.regions ++ p.gaths.map (fun (c : Nat) => (c, 0, 4096))).find? (fun (r : Nat × Nat × Nat) => decide (4096 < r.2.1 + r.2.2) || t.regions.any (regionsMeet r) ||
      (p.gaths.contains r.1 && decide (r.2.2 ≠ 4096)))).map (fun (r : Nat × Nat × Nat) => r.1)

/-! ### Multicast groups and budgets (R198, R273, R274) -/

/-- Multicast groups of a package: one a replica of each pinned group (R255). -/
def Pkg.mgroups (p : Pkg) : Nat := ((p.groups.filter (fun g => !g.streamed)).map Grp.nrep).sum

/-- Multicast groups of a pan set: one a replica of each pan core. -/
def panGroups (d : List Byte) : Nat := pNcore d * pNrep d

/-- The multicast groups of a package (R255): each reaches the cores of one replica. -/
def Pkg.mcGroups (p : Pkg) (handle : Nat) : List McGroup :=
  (p.groups.zipIdx 0).flatMap (fun e =>
    if e.1.streamed then []
    else (List.range e.1.nrep).map (fun r => ⟨true, handle, e.2, r, (e.1.cores.drop (r * e.1.span)).take e.1.span⟩))

/-- The multicast groups of a pan set: each reaches one core. -/
def panMcGroups (p : Nat) (d : List Byte) : List McGroup :=
  (List.range (pNcore d)).flatMap (fun c => (List.range (pNrep d)).map (fun r => ⟨false, p, c, r, [(pCore d r c).1]⟩))

/-- Whose a multicast group is. -/
def McGroup.isOf (g : McGroup) (model : Bool) (id : Nat) : Bool := g.model == model && decide (g.id = id)

/-- Multicast groups in use. -/
def Tray.mcUsed (t : Tray) : Nat := t.mct.length

/-- The loader fills the multicast tables with a group under the lowest number that is free (R198; the number is the model's choice, log 109). -/
def mcAdd (m : SMap McGroup) (g : McGroup) : SMap McGroup :=
  match (List.range 4096).find? (fun i => (smGet? m i).isNone) with
  | some i => smPut m i g
  | none => m

/-- The groups of a package or a pan set are freed. -/
def Tray.mcFree (t : Tray) (model : Bool) (id : Nat) : Tray := { t with mct := t.mct.filter (fun e => !e.2.isOf model id) }

/-- The groups of a package or a pan set take the place of those it had. -/
def Tray.mcFill (t : Tray) (model : Bool) (id : Nat) (gs : List McGroup) : Tray :=
  let t := t.mcFree model id
  { t with mct := gs.foldl mcAdd t.mct }

/-- The cores that a group of the tables reaches: that of replica `rep` of a part of a package or pan set. -/
def Tray.mcCores (t : Tray) (model : Bool) (id part rep : Nat) : List Nat :=
  ((t.mct.find? (fun e => e.2.isOf model id && decide (e.2.part = part) && decide (e.2.rep = rep))).map (fun e => e.2.cores)).getD []

/-- An entry of a router's multicast table (R198): the output links that the group takes there, and the local cores that receive it. -/
structure McEntry where
  west : Bool
  east : Bool
  north : Bool
  south : Bool
  cores : List Nat
deriving DecidableEq, Repr

/-- The router of distributor `d` (R199), as column and row. -/
def distRouter (d : Nat) : Nat × Nat := if d < 32 then (0, 2 * d) else (79, 2 * (d - 32))

/-- The entry of group `n` in the table of the router at column `x` and row `y`, for the tree of x-first paths from distributor `d` (R198): along the
distributor's row to the destination's column, then along the column. South is the side of greater rows. -/
def Tray.mcEntry (t : Tray) (d n x y : Nat) : McEntry :=
  let s := distRouter d
  let cs := match smGet? t.mct n with | some g => g.cores | none => []
  let goes := fun (f : Nat → Nat → Bool) => cs.any (fun c => f (c / 16 % 80) (c / 16 / 80))
  { east := goes (fun cx _ => decide (y = s.2 ∧ s.1 ≤ x ∧ x < cx)),
    west := goes (fun cx _ => decide (y = s.2 ∧ x ≤ s.1 ∧ cx < x)),
    south := goes (fun cx cy => decide (x = cx ∧ s.2 ≤ y ∧ y < cy)),
    north := goes (fun cx cy => decide (x = cx ∧ y ≤ s.2 ∧ cy < y)),
    cores := cs.filter (fun c => c / 16 % 80 = x && c / 16 / 80 = y) }

/-- `MDL.SUSED`. -/
def Tray.sUsed (t : Tray) : Nat := (t.models.map (fun e => e.2.pkg.bcut)).sum

/-- A refusal of a load: its reason, the core and word at fault, and the figure of 0x0307 and 0x0308. -/
structure Refused where
  reason : Nat
  core : Nat
  word : Nat
  fig : Nat
deriving DecidableEq, Repr

def refusal (reason : Nat) : Refused := ⟨reason, 0xFFFFFFFF, 0xFFFFFFFF, 0⟩

/-- The checks of R254 in order; `budget` tells whether the stream budget is checked, which a restore leaves out (R257). -/
def Tray.pkgCheck (t : Tray) (a len : Nat) (budget : Bool) : Option Refused :=
  let p := t.pkg a
  if t.u.idn.role ≠ 1 then some (refusal 0x030A)
  else if (t.readBytes 0 a len).2 || !t.pkgWhole a len then some (refusal 0x0303)
  else if !t.pkgSigned a then some (refusal 0x0304)
  else if p.groups.any (fun g => g.feats.any (fun f => 8191 < f)) then some (refusal 0x0309)
  else match t.pkgWords a with
  | some (c, w) => some ⟨0x0305, c, w, 0⟩
  | none =>
    match (t.pkgCores a).find? (fun c => !t.coreOk c) with
    | some c => some ⟨0x0301, c, 0xFFFFFFFF, 0⟩
    | none =>
      match t.pkgSpace a p with
      | some c => some { refusal 0x0306 with core := c }
      | none =>
      if p.nbytes < 4 * p.sbytes then some { refusal 0x0307 with fig := 1000 * p.sbytes / p.nbytes }
      else if budget && decide (t.u.rn R.MDL_SBUDGET < t.sUsed + p.bcut) then some { refusal 0x0308 with fig := p.bcut }
      else if 4096 < t.mcUsed + p.mgroups then some (refusal 0x0302)
      else none

/-! ### Frames in ingest rings -/

/-- A ring's places and where they begin in the brine store (R195, R205). -/
def Tray.ringPlaces (t : Tray) (r : Nat) : Nat := 8 * t.qf (2048 + r) 22 7
def Tray.ringBase (t : Tray) (r : Nat) : Nat := 65536 * t.qf (2048 + r) 8 14

/-- Occupied places. -/
def IRing.used (x : IRing) : Nat := (x.items.map RingItem.count).sum

/-- The brine address of byte `i` of a frame: each place holds one segment, its 16-byte header first. -/
def Tray.frameAddr (t : Tray) (r : Nat) (x : RingItem) (i : Nat) : Nat :=
  t.ringBase r + 8192 * ((x.place + i / 8176) % t.ringPlaces r) + 16 + i % 8176

/-- The bytes of a frame or harvest in a ring. -/
def Tray.frameBytes (t : Tray) (r : Nat) (x : RingItem) : List Byte :=
  (List.range x.len).map (fun i => smGet t.tier.brine (t.frameAddr r x i) 0)

/-- A brine frame's header (R76). -/
structure FHdr where
  flags : Nat
  nfeat : Nat
  job : W32
  seq : W32
  step : W32
  angle : W32
  point : Nat
  epoch : Byte
  start : W64
  nref : Nat
  leaf : W32
deriving DecidableEq, Repr

def FHdr.read (b : List Byte) : FHdr :=
  { flags := numAt b 1 1, nfeat := numAt b 2 2, job := bv (numAt b 4 4), seq := bv (numAt b 8 4), step := bv (numAt b 0xC 4),
    angle := bv (numAt b 0x10 4), point := numAt b 0x14 1, epoch := bv (numAt b 0x15 1), start := bv (numAt b 0x18 8),
    nref := numAt b 0x24 2, leaf := bv (numAt b 0x30 4) }

/-- The attached job slot that holds a job. -/
def Tray.slotOfJob (t : Tray) (job : W32) : Option Nat :=
  (List.range 64).find? (fun s => (t.u.step s).en && decide ((t.u.step s).job = job))

/-- A table change acts on a frame with this stamp and start time (R222). -/
def Since.holds (s : Since) (step angle : W32) (start : W64) : Bool :=
  match s with
  | .order => true
  | .time x => reached64 start x
  | .step i a => stepAfter step i || (decide (step = i) && decide (a.toNat ≤ angle.toNat))

/-! ### Loading and unloading (R255) -/

def rkModelLoaded : RecKind := rk 0x25 0x0001 1 .bySeverity
def rkModelRefused : RecKind := rk 0x25 0x0002 2 .always
def rkModelUnloaded : RecKind := rk 0x25 0x0003 1 .bySeverity
def rkModelDropped : RecKind := rk 0x25 0x0004 3 .always

/-- An image is read from LPDDR5X through its ECC and copied into the node region of a core, with the poison of its words. -/
def Tray.loadImage (t : Tray) (core : Nat) (i : Img) : Tray :=
  let bad := (List.range i.words).filter (fun k => (t.readBytes 0 (i.addr + 8 * k) 8).2)
  let t := (t.readBytes 0 i.addr (8 * i.words)).1
  let t := (List.range i.lines).foldl (fun (v : Tray) l =>
    let hi := if 2 * l + 1 < i.words then v.lpNum (i.addr + 16 * l + 8) 8 else 0
    v.setLine core (i.base + l) (BitVec.ofNat 128 (v.lpNum (i.addr + 16 * l) 8 + hi * 2 ^ 64))) t
  bad.foldl (fun (v : Tray) k => v.setFlaw 3 (core * 8192 + 2 * i.base + k) flawPoison) t

/-- A group's images are copied to the cores of all its copies. -/
def Tray.loadGroup (t : Tray) (g : Grp) : Tray :=
  (g.cores.zipIdx 0).foldl (fun (v : Tray) e => v.loadImage e.1 (g.imgs.getD (e.2 % max 1 g.span) ⟨0, 0, 0, 0⟩)) t

/-- The pinned images of a package are copied, the multicast tables have its groups, its handle is in the handle table (R255), and M4 is extended with the
package's digest (R403). -/
def Tray.loadModel (t : Tray) (handle a len : Nat) : Tray :=
  let p := t.pkg a
  let t := ((p.groups.filter (fun g => !g.streamed)).foldl Tray.loadGroup t).mcFill true handle (p.mcGroups handle)
  let t := t.blk (fun u => u.extend 4 (digestBytes (sha384 (t.lpBytes a len))))
  { t with models := smPut t.models handle ⟨a, len, p, none⟩ }

/-- "model refused" (R254). -/
def Tray.reportRefused (t : Tray) (handle : Nat) (r : Refused) : Tray :=
  t.blk (fun u => (((u.setN R.MDL_REFCORE (r.core % 2 ^ 17)).setN R.MDL_REFWORD r.word).cause 0x25 0 0).report rkModelRefused .dflt
    (pay [fd 0x24 2 handle, fd 0x26 2 r.reason, fd 0x28 4 r.core, fd 0x2C 4 r.word, fd 0x30 4 r.fig]))

/-- Slots bound to a handle. -/
def Tray.boundSlots (t : Tray) (handle : Nat) : List Nat :=
  (t.binds.filter (fun b => b.handle = handle && b.upto.isNone)).map Bind.slot

/-- Work and scores of a package that have not ended (R255). -/
def Tray.modelBusy (t : Tray) (handle : Nat) : Bool :=
  let uses := fun (w : WUnit) => match w.work with | .tree h _ _ _ => h = handle | _ => false
  t.scores.any (fun e => e.handle = handle) || t.cores.any (fun e => e.2.any uses) || t.transit.any (fun e => e.2.any uses) ||
    t.partials.any (fun p => p.handle = handle)

/-- A package leaves the handle table: its cores, regions and multicast groups are free. -/
def Tray.dropModel (t : Tray) (handle : Nat) : Tray :=
  let t := t.mcFree true handle
  { t with models := smDel t.models handle, binds := t.binds.filter (fun b => b.handle ≠ handle),
           batches := t.batches.filter (fun e => e.1 / 16384 ≠ handle), spans := t.spans.filter (fun e => e.1 / 2 ^ 20 ≠ handle) }

/-- Frames and cuts of a slot with stamps before a commit point are still to come (R222): frames in ingest rings, and, for a step stamp, declared cuts
of its pan sets that are not published; for a pod time, those that are open or not published. -/
def Tray.earlier (t : Tray) (slot : Nat) (x : Since) : Bool :=
  t.rings.any (fun e => t.qf (2048 + e.1) 30 1 = 0 && e.2.items.any (fun i =>
    let h := FHdr.read (t.frameBytes e.1 i)
    decide (t.slotOfJob h.job = some slot) && !x.holds h.step h.angle h.start)) ||
  t.psets.any (fun e => decide (e.2.slot = slot) &&
    (match x with
     | .order => false
     | .step s a => e.2.cuts.any (fun c => stampBefore (cutStamp e.2.desc (c.step, c.point)) (s, a)) ||
         (!e.2.fresh && stampBefore (cutStamp e.2.desc e.2.next) (s, a))
     | .time n => e.2.cuts.any (fun c => !reached64 c.topen n)))

/-- The old state that a binding ended by stamp stands for is still needed. -/
def Tray.bindHeld (t : Tray) (handle : Nat) : Bool :=
  t.binds.any (fun b => b.handle = handle && (match b.upto with | some x => t.earlier b.slot x | none => false))

/-- An MUNLOAD that waits ends once the package's work has ended, and what earlier stamps need it for (R222). -/
def Tray.unloadCheck (t : Tray) (handle : Nat) : Tray :=
  match smGet? t.models handle with
  | none => t
  | some m =>
    match m.unloading with
    | none => t
    | some d =>
      if t.modelBusy handle || t.bindHeld handle then t
      else ((t.dropModel handle).blk (fun u => (u.bumpSeq 0x25 0).report rkModelUnloaded .dflt (pay [fd 0x24 2 handle]))).endCmd d

/-- Every MUNLOAD that waits is looked at. -/
def Tray.unloadAll (t : Tray) : Tray := (t.models.map (·.1)).foldl (fun (v : Tray) h => v.unloadCheck h) t

/-- The restore of R257: every package of the handle table is read and checked again without the budget, and reloaded or dropped. A MUNLOAD that waits goes
on, or ends with the package that is dropped. -/
def Tray.restoreModels (t : Tray) : Tray :=
  let old := t.models
  old.foldl (fun (v : Tray) e =>
    let r := v.pkgCheck e.2.addr e.2.len false
    let v := (v.readBytes 0 e.2.addr e.2.len).1
    match r with
    | none =>
      let v := v.loadModel e.1 e.2.addr e.2.len
      { v with models := smMod v.models e.1 (fun (m : Model) => { m with unloading := e.2.unloading }) }
    | some r =>
      let v := (v.dropModel e.1).blk (fun u =>
        (u.cause 0x25 0 2).report rkModelDropped .dflt (pay [fd 0x24 2 e.1, fd 0x26 2 r.reason]))
      match e.2.unloading with
      | some d => v.endCmd d
      | none => v)
    { t with models := [], mct := t.mct.filter (fun e => !e.2.model) }

/-! ### Walking (R262, R264) -/

/-- The direction at a node: true for right (R262). `set` reads a word of the category set. -/
def goesRight (w : W64) (x : W32) (set : Nat → W64) : Bool :=
  let dflt := bit w 2
  let int := bit w 0
  if (!int && f32IsNan x) || (int && decide (x = missingWord)) then dflt
  else if bit w 1 then (if x.toNat < 256 then !bit (set (x.toNat / 64)) (x.toNat % 64) else dflt)
  else if int then !decide (x.toInt < (nwThreshold w).toInt)
  else !f32Lt x (nwThreshold w)

/-- Walk a tree in the slice of a core from word `o` of the image at `base`: the leaf value, or the slice word that is poisoned. -/
def Tray.walk (t : Tray) (core base : Nat) (xs : List W32) : Nat → Nat → Tray × Except Nat Int
  | 0, o => (t, .error (2 * base + o))
  | n + 1, o =>
    let at0 := 2 * base + o
    let t := t.readWord 3 (core * 8192 + at0)
    if t.flaw 3 (core * 8192 + at0) = flawPoison then (t, .error at0)
    else
      let w := t.sliceWord core at0
      if nwLeaf w then (t, .ok (leafValue w))
      else
        let x := xs.getD (nwFeature w) missingWord
        let setAt := 2 * base + (nwThreshold w).toNat + x.toNat / 64
        let reads := bit w 1 && decide (x.toNat < 256)
        let t := if reads then t.readWord 3 (core * 8192 + setAt) else t
        if reads && t.flaw 3 (core * 8192 + setAt) = flawPoison then (t, .error setAt)
        else if goesRight w x (fun k => t.sliceWord core (2 * base + (nwThreshold w).toNat + k)) then t.walk core base xs n (o + nwDelta w)
        else t.walk core base xs n (o + 1)

/-- Walk every tree of an image (R264): the partial, or the slice word that ended a traversal. -/
def Tray.walkImage (t : Tray) (core : Nat) (i : Img) (xs : List W32) : Tray × Int × Option Nat :=
  (List.range i.ntree).foldl (fun (acc : Tray × Int × Option Nat) k =>
    let rt := acc.1.readWord 3 (core * 8192 + 2 * i.base + k)
    if rt.flaw 3 (core * 8192 + 2 * i.base + k) = flawPoison then (rt, acc.2.1, some (acc.2.2.getD (2 * i.base + k)))
    else
      let r := rt.walk core i.base xs 64 (fld (rt.sliceWord core (2 * i.base + k)) 0 16)
      match r.2 with
      | .ok q => (r.1, acc.2.1 + q, acc.2.2)
      | .error w => (r.1, acc.2.1, some (acc.2.2.getD w))) (t, 0, none)

end Sys2Proof.Machine
end

