-- ==== Sys2Proof/Machine/Cores.lean ====
section
/-!
DEFINITION. Distributors, work units, stealing, scores and streaming of the tray build (spec/09_tray_architecture.md, R188, R199, R200;
spec/10_command_queues_transactions.md, R215 to R217, R222; spec/11_pans_reduction.md, R240, R249; spec/12_tree_ensembles.md, R258 to R272).
-/

namespace Sys2Proof.Machine

/-! ### Frames as contributions -/

/-- The handle that scores a slot's frame (R222, R256). -/
def Tray.handleFor (t : Tray) (slot : Nat) (h : FHdr) : Option Nat :=
  (t.binds.find? (fun b => b.slot = slot && b.since.holds h.step h.angle h.start &&
    !(match b.upto with | some x => x.holds h.step h.angle h.start | none => false))).map Bind.handle

/-- What a frame adds to a cut (R241, R247). -/
def FHdr.contrib (h : FHdr) : Contrib :=
  { step := h.step, point := h.point, epoch := h.epoch, job := h.job, seq := h.seq, level := h.flags / 64, lslot := h.flags % 2, grain := 0,
    share := { Share.reset with fines := [(h.step, h.point)], stretched := (decide (h.nref ≠ 0)).toNat,
                                suspect := (Nat.testBit h.flags 4).toNat, hold := (Nat.testBit h.flags 3).toNat,
                                podInv := (Nat.testBit h.flags 2).toNat } }

/-- A frame is judged by the pan sets that list its leaf and are not among `done` (R240). A frame of a job that another slot holds is none of
theirs. -/
def Tray.judgeFrame (t : Tray) (h : FHdr) (done : List Judged) : Tray × List Judged :=
  let mine := t.slotOfJob h.job
  t.psets.foldl (fun (acc : Tray × List Judged) e =>
    let d := e.2.desc
    if pLevel d ≠ 1 || done.any (fun j => j.pset = e.1 && j.gen = e.2.gen) || !e.2.since.holds h.step h.angle h.start ||
        (match mine with | some s => decide (s ≠ e.2.slot) | none => false) then acc
    else match pMemberOf d h.leaf with
      | none => acc
      | some j =>
        let r := acc.1.contribute e.1 j h.contrib
        (r.1, acc.2 ++ [⟨e.1, e.2.gen, r.2, h.step, h.point, h.epoch⟩])) (t, done)

/-- The fields of a child harvest's header (R246) as a contribution. -/
def harvestContrib (b : List Byte) : Contrib :=
  let flags := numAt b 1 1
  { step := bv (numAt b 0xC 4), point := numAt b 0x0A 1, epoch := bv (numAt b 3 1), job := bv (numAt b 4 4), seq := bv (numAt b 0x10 4),
    level := 0, lslot := 0, grain := numAt b 0x0B 1,
    share := { Share.reset with fines := [(bv (numAt b 0xC 4), numAt b 0x0A 1)], suspect := (Nat.testBit flags 5).toNat,
                                hold := (Nat.testBit flags 4).toNat, podInv := (Nat.testBit flags 3).toNat,
                                scoreLate := Nat.testBit flags 2, late := numAt b 0x30 4,
                                tally := (List.range 10).map (fun i => numAt b (0x40 + 4 * i) 4) } }

/-- Where pan block `k` of a harvest lies: `n` bounds the blocks passed over. -/
def blockAt (b : List Byte) (k : Nat) : Nat → Nat → Option Nat
  | 0, _ => none
  | n + 1, o => if b.length < o + 16 then none else if numAt b o 2 = k then some o else blockAt b k n (o + 16 + 16 * numAt b (o + 4) 4)

/-- Why a parent's pan set discards a child's harvest as mismatched (R245): grain, points, or a pan block. -/
def mismatch (d : List Byte) (b : List Byte) : Option Nat :=
  if pGrain d < numAt b 0x0B 1 then some 0
  else if numAt b 0x34 2 ≠ pMask d then some 1
  else if (pPans d).all (fun e => match blockAt b e.2.feature 1024 160 with
      | none => false
      | some o =>
        let sb : Byte := bv (numAt b (o + 3) 1)
        decide (numAt b (o + 2) 1 = e.2.type) && decide (sb.toInt = e.2.s) && decide (numAt b (o + 8) 1 = e.2.param) &&
          decide (numAt b (o + 4) 4 = bankLines (pNmem d) e.2)) then none
  else some 2

def rkChildDiscarded : RecKind := rk 0x24 0x0004 2 .bySeverity

/-- A child's harvest is judged by the pan sets it supplies (R229, R245). -/
def Tray.judgeHarvest (t : Tray) (b : List Byte) (done : List Judged) : Tray × List Judged :=
  let node : W32 := bv (numAt b 0x14 4)
  let c := harvestContrib b
  let mine := t.slotOfJob c.job
  t.psets.foldl (fun (acc : Tray × List Judged) e =>
    let d := e.2.desc
    if pLevel d = 1 || done.any (fun j => j.pset = e.1 && j.gen = e.2.gen) || !e.2.since.holds c.step 0 (bv (numAt b 0x18 8)) ||
        (match mine with | some s => decide (s ≠ e.2.slot) | none => false) then acc
    else match pMemberOf d node with
      | none => acc
      | some j =>
        if (pMember d j).2.2 ≠ numAt b 8 2 then acc
        else match mismatch d b with
          | some why =>
            let t := match acc.1.pset e.1 with | some s => acc.1.setPset e.1 (s.noteLost j c.seq) | none => acc.1
            let t := t.blk (fun u => ((u.bump R.PAN_MISMATCH).cause 0x24 0 4).report rkChildDiscarded (.slot e.2.slot)
              (pay [fd 0x24 2 e.1, fd 0x26 1 why, fd 0x28 4 node.toNat]))
            (t, acc.2 ++ [⟨e.1, e.2.gen, false, c.step, c.point, c.epoch⟩])
          | none =>
            let r := acc.1.contribute e.1 j c
            (r.1, acc.2 ++ [⟨e.1, e.2.gen, r.2, c.step, c.point, c.epoch⟩])) (t, done)

/-! ### Core queues (R188) -/

def Tray.core (t : Tray) (c : Nat) : List WUnit := smGet t.cores c []
def Tray.setCore (t : Tray) (c : Nat) (l : List WUnit) : Tray := { t with cores := smSet t.cores c l [] }
def Tray.onWay (t : Tray) (c : Nat) : List WUnit := smGet t.transit c []
def Tray.setOnWay (t : Tray) (c : Nat) (l : List WUnit) : Tray := { t with transit := smSet t.transit c l [] }
def Tray.onData (t : Tray) (c : Nat) : List WUnit := smGet t.dataWay c []
def Tray.setOnData (t : Tray) (c : Nat) (l : List WUnit) : Tray := { t with dataWay := smSet t.dataWay c l [] }

/-- Free feature-window places of a core: 16 in all. -/
def Tray.freePlaces (t : Tray) (c : Nat) : Nat := 16 - (t.core c).length

/-- Core cycles, of 1.6 GHz, in `n` cycles of TB1, of 312.5 MHz. -/
def coreCycles (n : Nat) : Nat := n * 128 / 25

/-- Cycles of TB1 that `n` core cycles take. -/
def tb1Of (n : Nat) : Nat := ceilDiv (n * 25) 128

/-- A projection is sent to a core, in the projection class. -/
def Tray.sendUnit (t : Tray) (c : Nat) (w : WUnit) : Tray := t.setOnWay c (t.onWay c ++ [w])

/-- A projection is sent to the cores of a multicast group (R198): each gets its copy. -/
def Tray.sendMulticast (t : Tray) (cs : List Nat) (w : Nat → WUnit) : Tray :=
  let id := t.mcIds + 1
  (cs.zipIdx 0).foldl (fun (v : Tray) e => v.sendUnit e.1 { w e.2 with mc := id }) { t with mcIds := id }

/-- A merge projection is sent to a core, in the data class (R197, R249). -/
def Tray.sendData (t : Tray) (c : Nat) (w : WUnit) : Tray := t.setOnData c (t.onData c ++ [w])

/-- A destination stalls a multicast (R188): projections wait in its router and its window has no free place. -/
def Tray.coreStalled (t : Tray) (c : Nat) : Bool := !(t.onWay c).isEmpty && decide (t.freePlaces c = 0)

/-- A destination stalls what comes in the data class: a class never waits for another class's buffer (R197). -/
def Tray.dataStalled (t : Tray) (c : Nat) : Bool := !(t.onData c).isEmpty && decide (t.freePlaces c = 0)

/-- A thief's window has no place for the next projection that is copied to it (R188, R217). -/
def Tray.thiefStalled (t : Tray) (c : Nat) : Bool := decide ((smGet t.thieves c Thief.reset).moving ≠ 0) && decide (t.freePlaces c = 0)

/-- Some core port withholds credit (R188). -/
def Tray.withheld (t : Tray) : Bool :=
  t.transit.any (fun e => t.coreStalled e.1) || t.dataWay.any (fun e => t.dataStalled e.1) || t.thieves.any (fun e => t.thiefStalled e.1)

/-- The core cycles in which some port has withheld credit so far are counted (R188). -/
def Tray.accrueCredit (t : Tray) : Tray :=
  match t.credSince with
  | none => t
  | some s =>
    let n := coreCycles (t.u.clk.tb1 - s).toNat
    ({ t with credCounted := n }).blk (fun u => u.bumpBy R.NOC_CREDSTALL (n - t.credCounted))

/-- Whether some port withholds credit is followed. -/
def Tray.creditCheck (t : Tray) : Tray :=
  match t.credSince, t.withheld with
  | none, true => { t with credSince := some t.u.clk.tb1, credCounted := 0 }
  | some _, false => { t.accrueCredit with credSince := none }
  | _, _ => t

/-- A multicast advances only as fast as its slowest destination (R188): a copy waits while another copy of it stands before a window with no free
place. -/
def Tray.mcHeld (t : Tray) (c : Nat) (w : WUnit) : Bool :=
  decide (w.mc ≠ 0) && t.transit.any (fun e => decide (e.1 ≠ c) && decide (t.freePlaces e.1 = 0) && e.2.any (fun x => x.mc = w.mc))

/-- The replica that is chosen (R200): the one whose first core has the most free places, the lowest number on a tie. -/
def Tray.bestReplica (t : Tray) (firsts : List Nat) : Nat :=
  let free := firsts.map t.freePlaces
  (free.findIdx? (fun f => f = free.foldl max 0)).getD 0

/-- A unit enters a core's work queue; a thief that rests is a thief again. -/
def Tray.enqueueUnit (t : Tray) (c : Nat) (w : WUnit) : Tray :=
  let t := t.setCore c (t.core c ++ [w])
  let th := smGet t.thieves c Thief.reset
  if th.waitTo.isSome && th.tried = 0 then { t with thieves := smPut t.thieves c { th with waitTo := none } } else t

/-- PROJECTION_ARRIVAL: the next projection of a core in the projection or the data class takes a window place and makes a work unit, or waits in the
router, where the core's port withholds credit (R188). -/
def Tray.arrive (t : Tray) (c : Nat) (data : Bool) : Tray :=
  match (if data then t.onData c else t.onWay c) with
  | [] => t
  | w :: rest =>
    if t.freePlaces c = 0 || (!data && t.mcHeld c w) then t
    else (if data then t.setOnData c rest else t.setOnWay c rest).enqueueUnit c w

/-! ### Distributing (R199, R200, R258) -/

/-- Flits of a projection of `f` features (R199). -/
def flits (f : Nat) : Nat := ceilDiv (16 + 4 * f) 64

/-- The frame features that a pan core reads, ascending (R230): those of scores apart. -/
def coreFeats (d : List Byte) (c : Nat) (score : Bool) : List Nat :=
  let all := ((corePans d c).map (fun e => (List.range e.2.w).map (fun i => e.2.feature + i))).flatten
  let mine := all.filter (fun f => decide (0x2000 ≤ f) == score)
  let top := mine.foldl max 0
  (List.range (top + 1)).filter (fun f => mine.contains f)

/-- The first cores of the replicas of pan core `c`. -/
def panFirsts (d : List Byte) (c : Nat) : List Nat := (List.range (pNrep d)).map (fun r => (pCore d r c).1)

/-- A unit's cut in a pan set. -/
def Tray.modUnitCut (t : Tray) (p : Nat) (step : W32) (point : Nat) (epoch : Byte) (f : Cut → Cut) : Tray :=
  match t.pset p with
  | none => t
  | some s => t.setPset p (s.modCut (cutKey s.desc step point) epoch f)

/-- Registers of a health unit's input `i` of a slot. -/
def hltIn (r slot i : Nat) : Nat := inst r (slot * 16 + i)

/-- The features that a slot's health unit takes from frames (R282, R285). -/
def Tray.healthFeats (t : Tray) (slot : Nat) : List Nat :=
  ((List.range 8).filterMap (fun i =>
    let k := hltIn R.HLT_ICFG slot i
    if t.u.rb k 31 && t.u.rf k 24 3 = 2 then some (t.u.rf k 0 14) else none)) ++
  (if t.u.rb (inst R.HLT_ARR slot) 31 then [t.u.rf (inst R.HLT_ARRF slot) 0 13] else [])

/-- Values of a frame of a member that counts go to the health unit of a slot whose health pan set this is (R278). -/
def Tray.healthVals (t : Tray) (p slot mem : Nat) (step : W32) (epoch : Byte) (point : Nat) (vals : List (Nat × W32)) : Tray :=
  if t.u.rb (inst R.HLT_SCFG slot) 31 && t.u.rf (inst R.HLT_SCFG slot) 0 10 = p then
    let want := t.healthFeats slot
    let new := (vals.filter (fun v => want.contains v.1)).map (fun v => HVal.mk mem step epoch point v.1 v.2)
    let h := smGet t.hlt slot HSlot.reset
    { t with hlt := smPut t.hlt slot { h with vals := h.vals ++ new } }
  else t

def Tray.batch (t : Tray) (k : Nat) : Batch := smGet t.batches k Batch.reset
def Tray.setBatch (t : Tray) (k : Nat) (b : Batch) : Tray := { t with batches := smSet t.batches k b Batch.reset }
def batchKey (handle g : Nat) : Nat := handle * 16384 + g

/-- The groups of a package with their numbers. -/
def Pkg.gs (p : Pkg) : List (Grp × Nat) := p.groups.zipIdx 0

/-- Entries in use of a gatherer of a package. -/
def Tray.gathUse (t : Tray) (handle g : Nat) : Nat := (t.scores.filter (fun e => e.handle = handle && e.gath = g)).length

/-- The projections of a frame for the package that scores it. -/
def Tray.sendGroups (t : Tray) (handle entry : Nat) (p : Pkg) (h : FHdr) (word : Nat → W32) : Tray × Nat :=
  p.gs.foldl (fun (acc : Tray × Nat) e =>
    let g := e.1
    let w := fun (pos : Nat) => mkUnit (.tree handle e.2 pos entry) h.leaf h.seq h.step h.point h.epoch (g.feats.map word)
    let n := acc.2 + flits g.feats.length
    if g.streamed then
      let k := batchKey handle e.2
      let b := acc.1.batch k
      (acc.1.setBatch k { b with filling := b.filling ++ [w 0], oldest := if b.filling.isEmpty then acc.1.u.clk.ival else b.oldest }, n)
    else
      let r := acc.1.bestReplica ((List.range g.nrep).map (fun r => g.cores.getD (r * g.span) 0))
      (acc.1.sendMulticast (acc.1.mcCores true handle e.2 r) w, n)) (t, 0)

/-- The projections of a frame for a pan set it contributed to in time. `handle` tells whether the slot's frame is scored: score features of
one that is not are missing (R256). -/
def Tray.sendPans (t : Tray) (p : Nat) (s : Pset) (mem : Nat) (handle : Option Nat) (h : FHdr) (word : Nat → W32) : Tray × Nat :=
  let d := s.desc
  (List.range (pNcore d)).foldl (fun (acc : Tray × Nat) c =>
    let ff := coreFeats d c false
    let sf := coreFeats d c true
    let unit := fun (v : Tray) (mk : Nat → Work) (ws : List W32) =>
      let r := v.bestReplica (panFirsts d c)
      (v.sendMulticast (v.mcCores false p c r) (fun _ => mkUnit (mk r) h.leaf h.seq h.step h.point h.epoch ws)).modUnitCut p h.step h.point h.epoch
        (fun x => { x with pend := x.pend + 1 })
    let acc := if ff.isEmpty then acc else (unit acc.1 (fun r => .fold p c r mem) (ff.map word), acc.2 + flits ff.length)
    if sf.isEmpty then acc
    else match handle with
      | some _ => (acc.1.modUnitCut p h.step h.point h.epoch (fun x => { x with pend := x.pend + 1 }), acc.2)
      | none =>
        let v := acc.1.blk (fun u => u.bumpBy R.SCO_NOMODEL sf.length)
        (unit v (fun r => .score p c r mem) (sf.map (fun _ => missingWord)), acc.2 + flits sf.length)) (t, 0)

/-- A merge unit of member `mem` is on its way for a cut, or ends (R241, R243). -/
def Cut.mergeSent (c : Cut) (mem : Nat) : Cut :=
  { c with pend := c.pend + 1, shares := smMod c.shares mem (fun (h : Share) => { h with left := h.left + 1 }) }
def Cut.mergeDone (c : Cut) (mem : Nat) : Cut :=
  { c with pend := c.pend - 1, shares := smMod c.shares mem (fun (h : Share) => { h with left := h.left - 1 }) }

/-- The merge projections of a child's harvest for a pan set (R249): the tally block to pan core 0, and each pan block in parts of 256 bytes. -/
def Tray.sendMerge (t : Tray) (p : Nat) (s : Pset) (mem : Nat) (b : List Byte) : Tray × Nat :=
  let d := s.desc
  let c := harvestContrib b
  let unit := fun (v : Tray) (core : Nat) (w : Work) (ws : List Byte) =>
    (v.sendData core (mkUnit w (pMember d mem).1 c.seq c.step c.point c.epoch
      ((List.range (ws.length / 4)).map (fun i => bv (numAt ws (4 * i) 4))))).modUnitCut p c.step c.point c.epoch (fun x => x.mergeSent mem)
  let r0 := t.bestReplica (panFirsts d 0)
  let t := unit t (pCore d r0 0).1 (.tally p r0 mem) (bytesAt b 0x40 96)
  (pPans d).foldl (fun (acc : Tray × Nat) e =>
    match blockAt b e.2.feature 1024 160 with
    | none => acc
    | some o =>
      let n := bankLines (pNmem d) e.2
      (List.range (ceilDiv n 16)).foldl (fun (acc : Tray × Nat) k =>
        let lines := min 16 (n - 16 * k)
        let r := acc.1.bestReplica (panFirsts d e.2.core)
        (unit acc.1 (pCore d r e.2.core).1 (.merge p e.2.core r mem e.1 k) (bytesAt b (o + 16 + 256 * k) (16 * lines)),
          acc.2 + ceilDiv (16 + 16 * lines) 64)) acc) (t, 2)

/-- The units of a member's contribution to a cut have been sent: it is folded once none of them is left. -/
def Tray.contribSent (t : Tray) (p mem : Nat) (c : Contrib) : Tray :=
  t.modUnitCut p c.step c.point c.epoch (fun x => { x with shares := smMod x.shares mem (fun (h : Share) =>
    { h with sent := h.sent ++ [(c.step, c.point)] }) })

/-- The cores that the next frame's projections go to, as far as the choice of replica leaves them open: those of the best replicas now. -/
def Tray.dests (t : Tray) (p : Pkg) : List Nat :=
  ((p.groups.filter (fun g => !g.streamed)).map (fun g =>
    let r := t.bestReplica ((List.range g.nrep).map (fun r => g.cores.getD (r * g.span) 0))
    (List.range g.span).map (fun pos => g.cores.getD (r * g.span + pos) 0))).flatten

def Tray.panDests (t : Tray) (js : List Judged) : List Nat :=
  ((js.filter Judged.inTime).map (fun j => match t.pset j.pset with
    | some s => (List.range (pNcore s.desc)).map (fun c => (pCore s.desc (t.bestReplica (panFirsts s.desc c)) c).1)
    | none => [])).flatten

def Tray.dist (t : Tray) (d : Nat) : Dist := smGet t.dists d Dist.reset
def Tray.setDist (t : Tray) (d : Nat) (x : Dist) : Tray := { t with dists := smSet t.dists d x Dist.reset }

/-- "gatherer full" (R275). -/
def rkGathererFull : RecKind := rk 0x26 0x0003 2 .bySeverity

/-- The core cycles that a distributor has waited so far are counted, in the counter of what it waits for (R200, R269, R271). -/
def Tray.accrue (t : Tray) (d : Nat) : Tray :=
  let x := t.dist d
  match x.stalled with
  | none => t
  | some s =>
    let n := coreCycles (t.u.clk.tb1 - s).toNat
    let k := if x.why = 1 then R.SCO_GSTALL else if x.why = 2 then R.MDL_SSTALL else inst R.NOC_DSTALL d
    (t.setDist d { x with counted := n }).blk (fun u => u.bumpBy k (n - x.counted))

/-- The waits of every distributor and core port are counted up to now. -/
def Tray.accrueAll (t : Tray) : Tray := ((t.dists.map (·.1)).foldl Tray.accrue t).accrueCredit

/-- A distributor goes on. -/
def Tray.unstall (t : Tray) (d : Nat) : Tray :=
  let t := t.accrue d
  t.setDist d { t.dist d with stalled := none, ring := none, noted := false, counted := 0 }

/-- A distributor waits with the frame at the head of a ring and skips to no other (R200, R269, R271). Where what it waits for changes, the wait that
ends is counted. -/
def Tray.stall (t : Tray) (d r why gath : Nat) : Tray :=
  let x := t.dist d
  if x.stalled.isSome && decide (x.why = why) && decide (x.ring = some r) then t
  else
    let t := t.unstall d
    let t := t.setDist d { t.dist d with stalled := some t.u.clk.tb1, ring := some r, why := why, noted := false }
    if why = 1 then
      let t := t.blk (fun u => u.cause 0x26 0 2)
      if t.gNoted then t
      else ({ t with gNoted := true }).blk (fun u => u.report rkGathererFull .dflt (pay [fd 0x24 4 gath]))
    else t

/-- DISTRIBUTOR_STALLED: a distributor has waited on a stalled multicast for 2^20 consecutive core cycles (R200). -/
def Tray.longStall (t : Tray) (d : Nat) : Tray :=
  let x := t.dist d
  match x.stalled with
  | none => t
  | some s =>
    if x.noted || x.why ≠ 0 then t
    else
      let t := t.blk (fun u => u.toTb1 (s + BitVec.ofNat 64 (tb1Of (2 ^ 20))))
      (t.setDist d { x with noted := true }).blk (fun u => u.cause 0x22 0 0)

def Tray.ring (t : Tray) (r : Nat) : IRing := smGet t.rings r IRing.reset
def Tray.setRing (t : Tray) (r : Nat) (x : IRing) : Tray := { t with rings := smSet t.rings r x IRing.reset }

/-- Places of a leaf's ring are to be returned as credit (R84): a child's harvest ring has none. -/
def Tray.giveCredit (t : Tray) (r n : Nat) : Tray :=
  let x := t.ring r
  if n = 0 || t.qb (2048 + r) 30 then t
  else t.setRing r { x with freed := x.freed + n, freedAt := if x.freed = 0 then t.u.clk.ival else x.freedAt }

/-- A ring's oldest frame leaves it: its places wait to be returned as credit (R84). -/
def Tray.ringPop (t : Tray) (r : Nat) : Tray :=
  let x := t.ring r
  match x.items with
  | [] => t
  | i :: rest => (t.setRing r { x with items := rest }).giveCredit r i.count

/-- From when the changes of a commit act on frames (R222). -/
def Point.since (p : Point) : Since :=
  match p with
  | .immediate => .order
  | .podTime x => .time x
  | .stamp _ i a => .step i a

/-- A frame waits for a decided transaction (R222): one that will bind or unbind a model of its slot, or define a pan set on it, at a point that the frame's
stamp or start time has reached and the T build has not. -/
def Tray.awaits (t : Tray) (h : FHdr) : Bool :=
  match t.slotOfJob h.job with
  | none => false
  | some s => t.due.any (fun d => d.point.since.holds h.step h.angle h.start &&
      d.members.any (fun m => (cOp m = 0x12 || cOp m = 0x13 || cOp m = 0x20) && cSlot m = s))

/-- The oldest item of a ring may be distributed. -/
def Tray.ringReady (t : Tray) (r : Nat) : Bool :=
  match (t.ring r).items with
  | [] => false
  | x :: _ => t.qb (2048 + r) 30 || !t.awaits (FHdr.read (t.frameBytes r x))

/-- The ring that a distributor takes next (R199, R200): the one it waits with, else round robin among its enabled rings that hold a frame to
distribute. -/
def Tray.pickRing (t : Tray) (d : Nat) : Option Nat :=
  let rs := (t.rings.map (·.1)).filter (fun r => r % 64 = d && t.qb (2048 + r) 31 && t.ringReady r)
  match (t.dist d).ring.filter (fun r => rs.contains r) with
  | some r => some r
  | none =>
  match rs.find? (fun r => (t.dist d).last < r) with
  | some r => some r
  | none => rs.head?

/-- The words of a frame's features as they are distributed: a poisoned word is missing (R386), and one at or above nfeat (R258). -/
def frameWord (b : List Byte) (nfeat : Nat) (bad : List Nat) (f : Nat) : W32 :=
  if nfeat ≤ f || bad.contains f then missingWord else bv (numAt b (0x40 + 4 * f) 4)

/-- The frame bytes in poisoned words of a ring item. -/
def Tray.poisonedBytes (t : Tray) (r : Nat) (x : RingItem) : Tray × List Nat :=
  let rd := (List.range x.count).foldl (fun (v : Tray) k => (v.readBytes 2 (t.ringBase r + 8192 * ((x.place + k) % t.ringPlaces r)) 8192).1) t
  let bad := (rd.tier.bad.filter (fun e => badKey 2 0 ≤ e.1 && e.1 < badKey 3 0 && e.2 = flawPoison)).map (fun e => e.1 - badKey 2 0)
  if bad.isEmpty then (rd, []) else (rd, (List.range x.len).filter (fun i => bad.contains (t.frameAddr r x i / 8)))

/-- The key of a stream span: a handle and the first core entry of the span. -/
def spanKey (handle : Nat) (g : Grp) : Nat := handle * 2 ^ 20 + g.coreAt

/-- An idle span begins to load the next ready group, in group-table order from the one after that it ran last. -/
def Tray.spanNext (t : Tray) (handle : Nat) (p : Pkg) (key : Nat) : Tray :=
  let sp := smGet t.spans key Span.reset
  if sp.loading.isSome || sp.walking.isSome then t
  else
    let ready := (p.gs.filter (fun e => e.1.streamed && decide (spanKey handle e.1 = key) &&
      (t.batch (batchKey handle e.2)).ready.isSome)).map (·.2)
    match ready.find? (fun g => sp.next ≤ g) with
    | some g => { t with spans := smPut t.spans key { sp with loading := some g } }
    | none => match ready.head? with
      | some g => { t with spans := smPut t.spans key { sp with loading := some g } }
      | none => t

/-- A batch becomes ready and its span looks for work. -/
def Tray.batchGo (t : Tray) (handle g : Nat) (m : Model) (grp : Grp) : Tray :=
  let k := batchKey handle g
  let b := t.batch k
  (t.setBatch k { b with filling := [], ready := some b.filling, closed := false }).spanNext handle m.pkg (spanKey handle grp)

/-- A streamed group's other buffer is released. -/
def Batch.free (b : Batch) : Bool := b.ready.isNone && !b.running

/-- The filling buffer takes no projection more: it holds the `n` of a batch, or has become ready short. -/
def Batch.full (b : Batch) (n : Nat) : Bool := b.closed || decide (n ≤ b.filling.length)

/-- BATCH_READY: the filling buffer of a streamed group holds b projections, or became ready short, and the other is released. -/
def Tray.batchReady (t : Tray) (handle g : Nat) : Tray :=
  match smGet? t.models handle with
  | none => t
  | some m =>
    match m.pkg.groups[g]? with
    | none => t
    | some grp =>
      let b := t.batch (batchKey handle g)
      if grp.streamed && b.free && b.full m.pkg.batch then t.batchGo handle g m grp else t

/-- The full batches of a package whose other buffer is released become ready (R271). -/
def Tray.batchesReady (t : Tray) (handle : Nat) (p : Pkg) : Tray := p.gs.foldl (fun (v : Tray) e => v.batchReady handle e.2) t

/-- A brine frame is distributed (R199, R258). -/
def Tray.sendFrame (t : Tray) (d r : Nat) (x : RingItem) (badBytes : List Nat) : Tray :=
  let b := t.frameBytes r x
  let h := FHdr.read b
  let badF := badBytes.map (fun i => (i - 0x40) / 4)
  let word := frameWord b h.nfeat badF
  let t := if badBytes.isEmpty then t else t.blk (fun u => u.bumpBy R.ING_FPOIS ((List.range h.nfeat).filter (fun f => badF.contains f)).length)
  let slot := t.slotOfJob h.job
  let handle := slot.bind (fun s => t.handleFor s h)
  let model := handle.bind (fun k => (smGet? t.models k).map (fun m => (k, m.pkg)))
  let t := match model with | some (k, p) => t.batchesReady k p | none => t
  let gath := match model with | some (_, p) => h.leaf.toNat % max 1 p.gaths.length | none => 0
  let full := match model with | some (k, _) => decide (512 ≤ t.gathUse k gath) | none => false
  let bufFull := match model with
    | some (k, p) => p.gs.any (fun e => e.1.streamed && (t.batch (batchKey k e.2)).full p.batch)
    | none => false
  let dests := (match model with | some (_, p) => t.dests p | none => []) ++ t.panDests x.judged
  if full then t.stall d r 1 gath
  else if bufFull then t.stall d r 2 0
  else if dests.any t.coreStalled then t.stall d r 0 0
  else
    let t := t.unstall d
    let j := t.judgeFrame h x.judged
    let t := j.1
    let sets := (j.2.filter Judged.inTime).filterMap (fun k => (t.pset k.pset).bind (fun s => if s.gen = k.gen then
      (pMemberOf s.desc h.leaf).map (fun m => (k.pset, s, m)) else none))
    let g := match model with
      | some (k, p) =>
        let ent : ScoreEnt := ⟨t.scoreIds, k, gath, h.leaf, h.flags % 2, slot.getD 0, h.seq, h.step, h.point, h.epoch, x.at0,
          (List.range p.bases.length).map (fun e => ((p.groups.filter (fun g => g.ens = e)).map Grp.span).sum), p.bases,
          p.bases.map (fun _ => false), sets.map (fun q => (q.1, q.2.2))⟩
        let v := { t with scores := t.scores ++ [ent], scoreIds := t.scoreIds + 1 }
        let v := v.blk (fun u => u.peak (inst R.SCO_GPEAK gath) (v.gathUse k gath))
        v.sendGroups k ent.id p h word
      | none => (t, 0)
    let s := sets.foldl (fun (acc : Tray × Nat) q =>
      let v := acc.1.healthVals q.1 q.2.1.slot q.2.2 h.step h.epoch h.point ((List.range h.nfeat).map (fun f => (f, word f)))
      let y := v.sendPans q.1 q.2.1 q.2.2 (model.map (·.1)) h word
      (y.1, acc.2 + y.2)) g
    let t := s.1.ringPop r
    t.setDist d { t.dist d with last := r, flits := (t.dist d).flits + s.2 }

/-- A child's harvest is distributed (R249). -/
def Tray.sendHarvest (t : Tray) (d r : Nat) (x : RingItem) : Tray :=
  let b := t.frameBytes r x
  if (t.panDests x.judged).any t.dataStalled then t.stall d r 0 0
  else
    let t := t.unstall d
    let j := t.judgeHarvest b x.judged
    let t := j.1
    let node : W32 := bv (numAt b 0x14 4)
    let s := (j.2.filter Judged.inTime).foldl (fun (acc : Tray × Nat) k =>
      match acc.1.pset k.pset with
      | none => acc
      | some s =>
        if s.gen ≠ k.gen then acc
        else match pMemberOf s.desc node with
          | none => acc
          | some m => let y := acc.1.sendMerge k.pset s m b; (y.1.contribSent k.pset m (harvestContrib b), acc.2 + y.2)) (t, 0)
    let t := s.1.ringPop r
    t.setDist d { t.dist d with last := r, flits := (t.dist d).flits + s.2 }

/-- An item of a ring is discarded unfolded: the contributions to cuts that it was in time for are taken back. -/
def Tray.uncount (t : Tray) (r : Nat) (x : RingItem) : Tray :=
  let b := t.frameBytes r x
  let id : W32 := if t.qf (2048 + r) 30 1 = 0 then (FHdr.read b).leaf else bv (numAt b 0x14 4)
  x.judged.foldl (fun (v : Tray) j =>
    if !j.inTime then v
    else match (v.pset j.pset).bind (fun s => if s.gen = j.gen then pMemberOf s.desc id else none) with
      | some m => v.modUnitCut j.pset j.step j.point j.epoch (fun c => { c with shares := smDel c.shares m })
      | none => v) t

/-- DISTRIBUTE_FRAME: a distributor takes the next frame or harvest of its rings and sends its projections, or waits. -/
def Tray.distribute (t : Tray) (d : Nat) : Tray :=
  match t.pickRing d with
  | none => t.unstall d
  | some r =>
    match (t.ring r).items with
    | [] => t
    | x :: _ =>
      let p := t.poisonedBytes r x
      let t := p.1
      let kind := t.qf (2048 + r) 30 1
      if p.2.any (fun i => i < 64) then
        ((t.blk (fun u => u.bump R.ING_FPOIS)).uncount r x).ringPop r
      else if kind = 0 then t.sendFrame d r x p.2
      else t.sendHarvest d r x

/-! ### Work units (R215, R270) -/

/-- The trees of a unit's image; 1 for a pan unit. -/
def Tray.unitTrees (t : Tray) (w : WUnit) : Nat :=
  match w.work with
  | .tree h g p _ => match smGet? t.models h with
    | some m => ((m.pkg.groups.getD g ⟨0, false, [], 0, 0, 0, [], 0, [], 0⟩).imgs.getD p ⟨0, 0, 0, 0⟩).ntree
    | none => 1
  | _ => 1

/-- A pan unit whose cut has no bank yet waits in its work queue (R239). -/
def Tray.unitWaits (t : Tray) (w : WUnit) : Bool :=
  let noBank := fun (p : Nat) => match t.pset p with
    | some s => match s.cut? (cutKey s.desc w.step w.point) w.epoch with | some c => c.bank.isNone | none => false
    | none => false
  match w.work with
  | .tree _ _ _ _ => false
  | .fold p _ _ _ => noBank p
  | .score p _ _ _ => noBank p
  | .merge p _ _ _ _ _ => noBank p
  | .tally p _ _ => noBank p

def WUnit.isTree (w : WUnit) : Bool := match w.work with | .tree _ _ _ _ => true | _ => false

/-- A unit's cut has closed and is not published. -/
def Tray.unitClosed (t : Tray) (w : WUnit) : Bool :=
  let closed := fun (p : Nat) => match t.pset p with
    | some s => match s.cut? (cutKey s.desc w.step w.point) w.epoch with | some c => c.closed.isSome | none => false
    | none => false
  match w.work with
  | .tree _ _ _ _ => false
  | .fold p _ _ _ => closed p
  | .score p _ _ _ => closed p
  | .merge p _ _ _ _ _ => closed p
  | .tally p _ _ => closed p

/-- A core holds a CUSUM or EWMA pan, and begins its pan units in arrival order (R237). -/
def Tray.inOrder (t : Tray) (c : Nat) : Bool :=
  t.psets.any (fun e => (pPans e.2.desc).any (fun x => (x.2.type = 6 || x.2.type = 7) && (panFirsts e.2.desc x.2.core).contains c))

/-- A core's engines begin units (R215, R270): tree units in arrival order, with at most 4 traversals of one unit and 16 of all in flight; pan units one
at a time, a unit whose cut waits for a bank (R239) letting those behind it pass, but on a core that begins them in arrival order only those
whose cut has closed: the bank is free once they have ended (DESIGN CHOICE, log 110). -/
def Tray.begin (t : Tray) (c : Nat) : Tray :=
  let l := t.core c
  let run := l.filter WUnit.begun
  let flight := ((run.filter WUnit.isTree).map (fun w => min 4 (t.unitTrees w))).sum
  let strict := t.inOrder c
  let r := l.foldl (fun (acc : List WUnit × Nat × Bool × Bool) w =>
    if w.begun || w.goes.isSome then (acc.1 ++ [w], acc.2)
    else if w.isTree then
      if acc.2.1 < 16 then (acc.1 ++ [{ w with begun := true }], acc.2.1 + min 4 (t.unitTrees w), acc.2.2) else (acc.1 ++ [w], acc.2)
    else if acc.2.2.1 then (acc.1 ++ [w], acc.2)
    else if t.unitWaits w then (acc.1 ++ [w], acc.2.1, false, true)
    else if strict && acc.2.2.2 && !t.unitClosed w then (acc.1 ++ [w], acc.2)
    else (acc.1 ++ [{ w with begun := true }], acc.2.1, true, acc.2.2.2)) ([], flight, run.any (fun w => !w.isTree), false)
  if r.1 = l then t else t.setCore c r.1

/-- The places in a core's work queue whose units have begun. -/
def Tray.begunUnits (t : Tray) (c : Nat) : List Nat :=
  (List.range (t.core c).length).filter (fun i => match (t.core c)[i]? with | some w => w.begun | none => false)

/-- What the cores do by themselves after a command: their engines begin units, and their ports give or withhold credit. -/
def Tray.coreWork (t : Tray) : Tray := ((t.cores.map (·.1)).foldl (fun (v : Tray) c => v.begin c) t).creditCheck

/-- The pending units of a core: not begun and not on their way to a thief. -/
def Tray.pendingUnits (t : Tray) (c : Nat) : List Nat :=
  let b := t.begunUnits c
  (List.range (t.core c).length).filter (fun i => !b.contains i && (match (t.core c)[i]? with | some w => w.goes.isNone | none => false))

/-- A pan unit's fold (R232, R237, R249). -/
def Tray.foldUnit (t : Tray) (w : WUnit) (p pc rep mem : Nat) (score : Bool) : Tray :=
  match t.pset p with
  | none => t
  | some s =>
    let d := s.desc
    let k := cutKey d w.step w.point
    match s.cut? k w.epoch with
    | none => t
    | some c =>
      match c.bank with
      | none => t
      | some b =>
        let feats := coreFeats d pc score
        let t := (corePans d pc).foldl (fun (t : Tray) e =>
          if decide (0x2000 ≤ e.2.feature) == score then
            let mu := if e.2.type = 6 && Nat.testBit e.2.flags 0 then
                (smGet? c.refs (refKey e.2.feature e.2.s)).map (fun x => x.2)
              else none
            let a : FoldAt := ⟨p, d, rep, b, mem, w.leaf, (w.step - c.step).toNat, w.point, (s.hseqOf c).toNat, mu⟩
            (List.range e.2.w).foldl (fun (t : Tray) i =>
              t.foldValue a e.1 (w.words.getD ((feats.findIdx? (fun f => f = e.2.feature + i)).getD 0) missingWord)) t
          else t) t
        t.modUnitCut p w.step w.point w.epoch (fun x => { x with pend := x.pend - 1 })

/-- A child's top-k entry in its parent's block (R236): the step offset counts from the start of the parent's cut, `off` steps before the child's. -/
def topkRebase (off : Nat) (e : Line) : Line :=
  if fld e 64 32 = 0xFFFFFFFF then e else (e.extractLsb' 104 24 ++ (e.extractLsb' 96 8 + BitVec.ofNat 8 off)) ++ e.extractLsb' 0 96

/-- A merge unit (R249): its lines are folded into the pan's bank; the HIST readout line is skipped. A member whose last fine cut is folded with it
settles (R241). -/
def Tray.mergeUnit (t : Tray) (w : WUnit) (p rep mem pan part : Nat) : Tray :=
  match t.pset p with
  | none => t
  | some s =>
    match s.cut? (cutKey s.desc w.step w.point) w.epoch with
    | none => t
    | some c =>
      match c.bank with
      | none => t
      | some b =>
        let line := fun (i : Nat) => BitVec.ofNat 128 (((List.range 4).map (fun k => (w.words.getD (4 * i + k) 0).toNat * 2 ^ (32 * k))).sum)
        let off := (w.step - c.step).toNat
        let own := fun (i : Nat) => if (pPan s.desc pan).type = 5 && 16 * part + i ≠ 0 then topkRebase off (line i) else line i
        let t := (List.range (w.words.length / 4)).foldl (fun (t : Tray) i => t.mergeLine s.desc rep b pan (16 * part + i) (own i)) t
        (t.modUnitCut p w.step w.point w.epoch (fun x => x.mergeDone mem)).closeComplete p 64

/-- A tree unit (R264): its partial goes to the gatherer of its score-table entry. -/
def Tray.treeUnit (t : Tray) (c : Nat) (w : WUnit) (handle g pos entry : Nat) : Tray :=
  match smGet? t.models handle with
  | none => t
  | some m =>
    let grp := m.pkg.groups.getD g ⟨0, false, [], 0, 0, 0, [], 0, [], 0⟩
    let r := t.walkImage c (grp.imgs.getD pos ⟨0, 0, 0, 0⟩) w.words
    let inj := r.1.u.armed 0x26 0 1 && decide (r.1.u.rf R.ERR_IADDR_L 0 17 = c)
    let t := if inj then r.1.blk (fun u => u.fire 0x26 0 1 false) else r.1
    let p : Partial := ⟨entry, handle, grp.ens, r.2.1, r.2.2.isSome || inj, c, (r.2.2.getD 0) / 2, w.leaf⟩
    let t := { t with partials := t.partials ++ [p] }
    if grp.streamed then
      let k := batchKey handle g
      t.setBatch k { t.batch k with left := (t.batch k).left - 1 }
    else t

/-- WORK_UNIT_END: the `i`-th of a core's begun units ends, sends what it computes and frees its window place. -/
def Tray.unitEnd (t : Tray) (c i : Nat) : Tray :=
  let t := t.begin c
  match (t.begunUnits c)[i]? with
  | none => t
  | some n =>
    match (t.core c)[n]? with
    | none => t
    | some w =>
      let t := t.setCore c ((t.core c).eraseIdx n)
      match w.work with
      | .tree h g p e => t.treeUnit c w h g p e
      | .fold p pc r m => t.foldUnit w p pc r m false
      | .score p pc r m => t.foldUnit w p pc r m true
      | .merge p _ r m pan part => t.mergeUnit w p r m pan part
      | .tally p _ m => (t.modUnitCut p w.step w.point w.epoch (fun x => x.mergeDone m)).closeComplete p 64

/-! ### Stealing (R216, R217) -/

/-- The sets of cores that hold what a core holds (R216): of each pinned group that names it, those at its span position in every replica; of each pan
core that it is a replica of, the replicas, unless that holds a CUSUM or EWMA pan (R237); of a streamed group, itself alone. -/
def Tray.domains (t : Tray) (c : Nat) : List (List Nat) :=
  t.models.flatMap (fun e => e.2.pkg.groups.filterMap (fun g =>
    (g.cores.findIdx? (fun x => x = c)).map (fun i =>
      if g.streamed then [c] else (List.range g.nrep).map (fun r => g.cores.getD (r * g.span + i % max 1 g.span) 0)))) ++
  t.psets.flatMap (fun e => (List.range (pNcore e.2.desc)).filterMap (fun pc =>
    if !(panFirsts e.2.desc pc).contains c then none
    else if (corePans e.2.desc pc).any (fun x => x.2.type = 6 || x.2.type = 7) then some [c]
    else some (panFirsts e.2.desc pc)))

/-- The steal domain of a core (R216): the cores that hold what it holds and nothing else, so that every core is in one domain. -/
def Tray.domain (t : Tray) (c : Nat) : List Nat :=
  match t.domains c with
  | [] => [c]
  | l :: ls => l.filter (fun x => ls.all (fun m => m.contains x) && (t.domains x).all (fun m => m.contains c))

/-- Mesh distance of two cores in hops (R186). -/
def hops (a b : Nat) : Nat :=
  let x := fun (c : Nat) => c / 16 % 80
  let y := fun (c : Nat) => c / 16 / 80
  (max (x a) (x b) - min (x a) (x b)) + (max (y a) (y b) - min (y a) (y b))

/-- Insert a core by distance from `c`, ties by the lower number. -/
def byDistance (c a : Nat) : List Nat → List Nat
  | [] => [a]
  | x :: r => if hops c a < hops c x || (hops c a = hops c x && a < x) then a :: x :: r else x :: byDistance c a r

/-- The victims of a core in order. -/
def Tray.victims (t : Tray) (c : Nat) : List Nat := ((t.domain c).filter (fun x => x ≠ c)).foldl (fun l a => byDistance c a l) []

def Tray.thief (t : Tray) (c : Nat) : Thief := smGet t.thieves c Thief.reset
def Tray.setThief (t : Tray) (c : Nat) (x : Thief) : Tray := { t with thieves := smSet t.thieves c x Thief.reset }

/-- A core with no pending unit, no request under way and no backoff sends a steal request to its next victim (R217). -/
def Tray.askVictim (t : Tray) (c : Nat) : Tray :=
  let th := t.thief c
  let vs := t.victims c
  if !(t.pendingUnits c).isEmpty || th.asked.isSome || th.waitTo.isSome || vs.isEmpty then t
  else
    let next := match th.last.bind (fun l => vs.findIdx? (fun v => v = l)) with | some i => (i + 1) % vs.length | none => 0
    let v := vs.getD next 0
    let room := min 16 (t.freePlaces c)
    (t.setThief c { th with asked := some v, last := some v, room := room, refused := false, moving := 0 }).blk (fun u =>
      (u.bump R.STL_REQ).emit (.core 0 c v room))

/-- THIEF_IDLE: where stealing is on, an idle core begins what it holds and asks a victim. -/
def Tray.thiefIdle (t : Tray) (c : Nat) : Tray := if t.u.rb R.STL_CTL 31 then (t.begin c).askVictim c else t

/-- STEAL_REQUEST: the victim of a thief's request grants half its pending units, its newest that were never stolen, or refuses. -/
def Tray.stealRequest (t : Tray) (thief : Nat) : Tray :=
  let th := t.thief thief
  match th.asked with
  | none => t
  | some v =>
    if th.refused || th.moving ≠ 0 then t
    else
      let t := t.begin v
      let p := t.pendingUnits v
      let ok := p.filter (fun i => match (t.core v)[i]? with | some w => !w.stolen | none => false)
      let n := min (min (p.length / 2) th.room) ok.length
      if p.length < 2 || n = 0 then (t.setThief thief { th with refused := true }).blk (fun u => (u.bump R.STL_REFUSE).emit (.core 1 v thief 0))
      else
        let give := ok.drop (ok.length - n)
        let l := ((t.core v).zipIdx 0).map (fun e => if give.contains e.2 then { e.1 with goes := some thief } else e.1)
        ((t.setCore v l).setThief thief { th with moving := n }).blk (fun u => (u.bump R.STL_GRANT).emit (.core 2 v thief n))

/-- `STL.BACKOFF` in core cycles: 0 acts as 1. -/
def Tray.backoff (t : Tray) : Nat := max 1 (t.u.rf R.STL_BACKOFF 0 16)

/-- STEAL_REFUSED: a thief that is refused waits before its next victim, and rests after a full round of its domain. -/
def Tray.stealRefused (t : Tray) (thief : Nat) : Tray :=
  let th := t.thief thief
  if th.asked.isSome && th.refused then
    let round := decide ((t.victims thief).length ≤ th.tried + 1)
    let wait := if round then 16 * t.backoff else t.backoff
    t.setThief thief { th with asked := none, refused := false, tried := if round then 0 else th.tried + 1,
                               waitTo := some (t.u.clk.tb1 + BitVec.ofNat 64 (tb1Of wait)) }
  else t

/-- STEAL_BACKOFF_EXPIRY: a thief's wait or rest ends. -/
def Tray.backoffExpiry (t : Tray) (thief : Nat) : Tray :=
  let th := t.thief thief
  match th.waitTo with
  | none => t
  | some x => (t.blk (fun u => u.toTb1 x)).setThief thief { th with waitTo := none }

/-- The replica of a pan core that a core is. -/
def Tray.replicaOf (t : Tray) (p pc c : Nat) : Nat :=
  match t.pset p with
  | some s => ((panFirsts s.desc pc).findIdx? (fun x => x = c)).getD 0
  | none => 0

/-- A stolen unit works on the thief's replica. -/
def Tray.moved (t : Tray) (w : WUnit) (thief : Nat) : WUnit :=
  { w with
    stolen := true
    goes := none
    work := match w.work with
      | .fold p c _ m => .fold p c (t.replicaOf p c thief) m
      | .score p c _ m => .score p c (t.replicaOf p c thief) m
      | .merge p c _ m pan part => .merge p c (t.replicaOf p c thief) m pan part
      | .tally p _ m => .tally p (t.replicaOf p 0 thief) m
      | x => x }

/-- STEAL_TRANSFER_DONE: one granted projection's copy completes into the thief's window, and the victim's place frees. While the window has no free
place the copy waits in the router (R188). -/
def Tray.transferDone (t : Tray) (thief : Nat) : Tray :=
  let th := t.thief thief
  match th.asked with
  | none => t
  | some v =>
    match (t.core v).findIdx? (fun w => w.goes = some thief) with
    | none => t
    | some i =>
      match (t.core v)[i]? with
      | none => t
      | some w =>
        if t.freePlaces thief = 0 then t
        else
        let t := t.setCore v ((t.core v).eraseIdx i)
        let t := t.setCore thief (t.core thief ++ [t.moved w thief])
        (t.setThief thief { th with moving := th.moving - 1, asked := if th.moving ≤ 1 then none else th.asked, tried := 0 }).blk
          (fun u => u.bump R.STL_MOVED)

/-! ### Scores (R264 to R269) -/

/-- The score feature of an ensemble (R266). -/
def scoreWord (x : Int) : W32 := if 0 ≤ x then ratToF32 x.toNat (2 ^ 24) else ratToF32 (-x).toNat (2 ^ 24) ||| 0x80000000#32

def rkScoreExpired : RecKind := rk 0x26 0x0001 2 .bySeverity
def rkScorePoisoned : RecKind := rk 0x26 0x0002 3 .always

def Tray.modScore (t : Tray) (id : Nat) (f : ScoreEnt → ScoreEnt) : Tray :=
  { t with scores := t.scores.map (fun e => if e.id = id then f e else e) }

/-- PARTIAL_RECEIVE: the gatherer adds the oldest partial on its way to it (R264, R268). -/
def Tray.partialReceive (t : Tray) (handle gath : Nat) : Tray :=
  let here := fun (p : Partial) => p.handle = handle && (match t.scores.find? (fun e => e.id = p.ent) with
    | some e => decide (e.gath = gath) | none => true)
  match t.partials.findIdx? here with
  | none => t
  | some i =>
    match t.partials[i]? with
    | none => t
    | some p =>
      let t := { t with partials := t.partials.eraseIdx i }
      let t := match t.scores.find? (fun e => e.id = p.ent) with
        | none => t.blk (fun u => u.bump R.SCO_LATEP)
        | some e =>
          if e.miss.getD p.ens true then t.blk (fun u => u.bump R.SCO_LATEP)
          else
            let t := t.modScore e.id (fun e => { e with need := e.need.set p.ens (e.need.getD p.ens 0 - 1),
                                                        sum := e.sum.set p.ens (e.sum.getD p.ens 0 + p.val),
                                                        miss := if p.bad then e.miss.set p.ens true else e.miss })
            if p.bad then t.blk (fun u => ((u.bump R.SCO_POISON).cause 0x26 0 1).report rkScorePoisoned .dflt
              (pay [fd 0x24 4 p.core, fd 0x28 4 p.line, fd 0x2C 4 p.leaf.toNat])) else t
      t.unloadCheck handle

/-- Ensembles of an entry that are neither complete nor missing. -/
def ScoreEnt.open (e : ScoreEnt) : List Nat :=
  (List.range e.need.length).filter (fun i => decide (e.need.getD i 0 ≠ 0) && !e.miss.getD i false)

/-- `SCO.SWAIT`: 0 acts as 1. -/
def Tray.swait (t : Tray) : Nat := usIv (max 1 (t.u.rf R.SCO_SWAIT 0 20))

/-- The incomplete score of a gatherer whose frame was written first. -/
def Tray.oldestOpen (t : Tray) (handle gath : Nat) : Option ScoreEnt :=
  let l := t.scores.filter (fun e => e.handle = handle && e.gath = gath && !e.open.isEmpty)
  l.find? (fun e => l.all (fun x => decide (e.ringAt ≤ x.ringAt)))

/-- SCORE_EXPIRED: the oldest incomplete score of a gatherer reaches `SWAIT` after its frame's ring write (R268). -/
def Tray.scoreExpired (t : Tray) (handle gath : Nat) : Tray :=
  match t.oldestOpen handle gath with
  | none => t
  | some e =>
    let t := t.blk (fun u => u.toIv (e.ringAt + t.swait))
    let l := e.open
    let t := t.modScore e.id (fun e => { e with miss := l.foldl (fun m i => m.set i true) e.miss })
    t.blk (fun u => ((u.bumpBy R.SCO_EXPIRED l.length).cause 0x26 0 0).report rkScoreExpired .dflt
      (pay [fd 0x24 4 e.leaf.toNat, fd 0x28 4 e.seq.toNat, fd 0x2C 4 ((l.map (fun i => 2 ^ i)).sum)]))

/-- The word of a score feature of an entry: missing where its score is, or its ensemble is not in the package. -/
def ScoreEnt.word (e : ScoreEnt) (f : Nat) : W32 :=
  let i := f - 0x2000
  if e.sum.length ≤ i || e.miss.getD i true then missingWord else scoreWord (e.sum.getD i 0)

/-- SCORE_SEND: the gatherer sends the first frame whose scores are all complete or missing and behind no earlier frame of its leaf and slot
(R267). -/
def Tray.scoreSend (t : Tray) (handle gath : Nat) : Tray :=
  let first := fun (e : ScoreEnt) => !t.scores.any (fun x => x.id < e.id && decide (x.leaf = e.leaf) && decide (x.lslot = e.lslot))
  match t.scores.find? (fun e => e.handle = handle && e.gath = gath && e.open.isEmpty && first e) with
  | none => t
  | some e =>
    let late := fun (f : Nat) => e.miss.getD (f - 0x2000) false
    let t := e.psets.foldl (fun (t : Tray) q =>
      match t.pset q.1 with
      | none => t
      | some s =>
        let d := s.desc
        let t := t.healthVals q.1 s.slot q.2 e.step e.epoch e.point ((List.range e.sum.length).map (fun i => (0x2000 + i, e.word (0x2000 + i))))
        (List.range (pNcore d)).foldl (fun (t : Tray) c =>
          let sf := coreFeats d c true
          if sf.isEmpty then t
          else
            let r := t.bestReplica (panFirsts d c)
            let t := t.sendMulticast (t.mcCores false q.1 c r) (fun _ => mkUnit (.score q.1 c r q.2) e.leaf e.seq e.step e.point e.epoch (sf.map e.word))
            if sf.any late then t.modUnitCut q.1 e.step e.point e.epoch (fun x => { x with scoreLate := true }) else t) t) t
    let t := { t with scores := t.scores.filter (fun x => x.id ≠ e.id) }
    (t.blk (fun u => u.count R.SCO_SCORES 1)).unloadCheck handle

/-- Scores of a gatherer are sent as long as one can be; `n` bounds them. -/
def Tray.scoreSendN (t : Tray) (handle gath : Nat) : Nat → Tray
  | 0 => t
  | n + 1 => (t.scoreSend handle gath).scoreSendN handle gath n

/-- The MUNLOAD that waits for a package's work is forced (R351): its tree units and partials are gone, and its scores go out as missing where they are not
complete. -/
def Tray.forceUnload (t : Tray) (handle : Nat) : Tray :=
  match (smGet? t.models handle).bind Model.unloading with
  | none => t
  | some d =>
    let drop := fun (l : List WUnit) => l.filter (fun w => match w.work with | .tree h _ _ _ => h ≠ handle | _ => true)
    let t := { t with cores := smMap drop t.cores, transit := smMap drop t.transit, partials := t.partials.filter (fun p => p.handle ≠ handle),
                      scores := t.scores.map (fun e => if e.handle = handle then { e with miss := e.open.foldl (fun m i => m.set i true) e.miss } else e),
                      models := smMod t.models handle (fun (m : Model) => { m with unloading := none }) }
    let t := (List.range 64).foldl (fun (v : Tray) g => v.scoreSendN handle g 512) t
    ((t.dropModel handle).blk (fun u => (u.bumpSeq 0x25 0).report rkModelUnloaded .dflt (pay [fd 0x24 2 handle]))).endCmd d

/-! ### Streaming (R271, R272) -/

def rkShortBatch : RecKind := rk 0x25 0x0005 1 .bySeverity

/-- SHORT_BATCH: the oldest projection of a batch that does not hold b has waited `BWAIT`. -/
def Tray.shortBatch (t : Tray) (handle g : Nat) : Tray :=
  match smGet? t.models handle with
  | none => t
  | some m =>
    match m.pkg.groups[g]? with
    | none => t
    | some grp =>
      let b := t.batch (batchKey handle g)
      if grp.streamed && !b.full m.pkg.batch && !b.filling.isEmpty then
        let t := t.blk (fun u => u.toIv (b.oldest + usIv (max 1 (u.rf R.MDL_BWAIT 0 16))))
        let t := t.blk (fun u => ((u.bump R.MDL_SHORTB).cause 0x25 0 1).report rkShortBatch .dflt
          (pay [fd 0x24 2 handle, fd 0x26 2 g, fd 0x28 4 b.filling.length]))
        (t.setBatch (batchKey handle g) { t.batch (batchKey handle g) with closed := true }).batchReady handle g
      else t

/-- STREAM_LOAD_DONE: a span's images have been loaded, and the batch's projections are walked as work units. `waited` is how many cycles the span's
cores waited for the data. -/
def Tray.streamLoaded (t : Tray) (handle g waited : Nat) : Tray :=
  match smGet? t.models handle with
  | none => t
  | some m =>
    match m.pkg.groups[g]? with
    | none => t
    | some grp =>
      let key := spanKey handle grp
      let sp := smGet t.spans key Span.reset
      let k := batchKey handle g
      match (t.batch k).ready with
      | none => t
      | some ws =>
        if sp.loading ≠ some g then t
        else
          let t := t.loadGroup grp
          let t := { t with spans := smPut t.spans key { sp with loading := none, walking := some g } }
          let t := t.setBatch k { t.batch k with ready := none, running := true, left := ws.length * grp.span }
          let t := ws.foldl (fun (v : Tray) w => (List.range grp.span).foldl (fun (v : Tray) pos =>
            let e := match w.work with | .tree _ _ _ e => e | _ => 0
            v.sendUnit (grp.cores.getD pos 0) { w with work := .tree handle g pos e }) v) t
          t.blk (fun u => (u.count R.MDL_BATCHES 1).bumpBy R.MDL_SSTALL waited)

/-- STREAM_BATCH_DONE: a span has walked its batch, releases the buffer, and takes the next ready batch. -/
def Tray.streamDone (t : Tray) (handle g : Nat) : Tray :=
  match smGet? t.models handle with
  | none => t
  | some m =>
    match m.pkg.groups[g]? with
    | none => t
    | some grp =>
      let key := spanKey handle grp
      let sp := smGet t.spans key Span.reset
      let k := batchKey handle g
      if sp.walking = some g && (t.batch k).left = 0 then
        let t := t.setBatch k { t.batch k with running := false }
        let t := { t with spans := smPut t.spans key { sp with walking := none, next := g + 1 } }
        (if (t.batch k).closed then t.batchReady handle g else t).spanNext handle m.pkg key
      else t

/-! ### The memory tier's events and the current throttle (R193, R202) -/

/-- "power throttled" with the issue fraction (R202): the spec names the record without its code. The first fall below 16/16 raises the page's cause. -/
def Tray.powerThrottled (t : Tray) (first : Bool) : Tray :=
  (if first then t.blk (fun u => u.cause 0x14 0 4) else t).blk (fun u => u.reportOpen 0x14 1 .dflt [t.thr.n])

/-- What the supply warning and the thermal limit bound the issue fraction by (R370, R435). -/
def Tray.issueCap (t : Tray) : Nat := if t.u.pw.thermCap || t.u.pw.warning.isSome then 8 else 16

/-- A supply warning or the thermal limit takes the issue fraction down at once, which is a reduction as any other; it rises again as R202 has it. -/
def Tray.holdIssue (t : Tray) : Tray :=
  if t.thr.n ≤ t.issueCap then t
  else ({ t with thr := { t.thr with n := t.issueCap } }).powerThrottled (decide (t.thr.n = 16))

/-- CURRENT_INTERVAL: a 10 µs interval ends with a mean core-rail current in 1/64 A (R202). -/
def Tray.currentInterval (t : Tray) (mean : Nat) : Tray :=
  let t := t.blk (fun u => u.toIv (u.clk.ival + usIv 10))
  let cap := 64 * min 340 (t.u.rf R.PWR_ICAP 0 9)
  let x := t.thr
  let total := if x.n < 16 then satAdd x.total 10 0xFFFFFFFF else x.total
  let t := (t.blk (fun u => u.setN R.PWR_IMEAN mean))
  if cap < mean then
    let t := { t with thr := { x with n := max 4 (x.n - 1), calm := 0, total := total } }
    if t.thr.n < x.n then
      t.powerThrottled (decide (x.n = 16))
    else t
  else
    let calm := if 100 * mean ≤ 95 * cap then x.calm + 1 else 0
    if 10 ≤ calm then { t with thr := { x with n := min t.issueCap (x.n + 1), calm := calm, total := total } }
    else { t with thr := { x with calm := calm, total := total } }

/-- `PWR.ISSUE` (R202, R370, R435). -/
def Tray.issue (t : Tray) : Nat := min t.issueCap t.thr.n

end Sys2Proof.Machine
end

