-- ==== Sys2Proof/Machine/JobDesc.lean ====
section
/-!
DEFINITION. The continuity descriptor that START reads (spec/16_job_continuity.md, R338).
-/

namespace Sys2Proof.Machine

/-! ### The descriptor (R338) -/

def dType (d : List Byte) : Nat := numAt d 1 1
def dMode (d : List Byte) : Nat := numAt d 2 1
def dQuorumPolicy (d : List Byte) : Bool := Nat.testBit (numAt d 3 1) 0
def dJob (d : List Byte) : W32 := bv (numAt d 4 4)
def dTxid (d : List Byte) : W32 := bv (numAt d 8 4)
def dWindow (d : List Byte) : Nat := if numAt d 0xC 4 = 0 then 10000 else numAt d 0xC 4
def dPoint (d : List Byte) : W64 := bv (numAt d 0x10 8)
def dQuorum (d : List Byte) : Nat := numAt d 0x18 4
def dDeadline (d : List Byte) : Nat := numAt d 0x1C 4
def dNleaf (d : List Byte) : Nat := numAt d 0x20 4
def dNmem (d : List Byte) : Nat := numAt d 0x24 2
def dLslot (d : List Byte) : Nat := numAt d 0x26 1
def dEpoch (d : List Byte) : Byte := bv (numAt d 0x27 1)
def dStep (d : List Byte) : W32 := bv (numAt d 0x28 4)
def dSpare (d : List Byte) : W32 := bv (numAt d 0x2C 4)
def dHbuf (d : List Byte) : Nat := numAt d 0x30 8
def dHlen (d : List Byte) : Nat := numAt d 0x38 8
def dCreg (d : List Byte) : Nat := numAt d 0x40 8
def dClen (d : List Byte) : Nat := numAt d 0x48 8
def dOld (d : List Byte) : W32 := bv (numAt d 0x50 4)
def dNchunk (d : List Byte) : Nat := numAt d 0x54 4

/-- The member commands. -/
def dMembers (d : List Byte) : List (List Byte) := (List.range (dNmem d)).map (fun i => bytesAt d (128 + 64 * i) 64)

/-- A leaf entry: leaf number, parent, alternate parent, replica group and rank. -/
structure LeafRow where
  leaf : W32
  parent : W32
  alt : W32
  group : Nat
  rank : Nat
deriving DecidableEq, Repr

def dLeaf (d : List Byte) (i : Nat) : LeafRow :=
  let o := 128 + 64 * dNmem d + 16 * i
  let g := numAt d (o + 12) 4
  ⟨bv (numAt d o 4), bv (numAt d (o + 4) 4), bv (numAt d (o + 8) 4), g / 256, g % 256⟩

def dLeaves (d : List Byte) : List LeafRow := (List.range (dNleaf d)).map (dLeaf d)

/-- Members of the leaf table grouped: a leaf without a group is a group of one, whose number is taken from its place in the table. -/
def LeafRow.groupKey (e : LeafRow × Nat) : Nat := if e.1.group = 0xFFFFFF then 2 ^ 24 + e.2 else e.1.group

/-- The groups of a descriptor: each with its members' places in the leaf table. -/
def dGroups (d : List Byte) : SMap (List Nat) :=
  ((dLeaves d).zipIdx 0).foldl (fun (m : SMap (List Nat)) e => smUpd m (LeafRow.groupKey e) [] (fun l => l ++ [e.2])) []

/-- Every group has at most 64 members and each rank once. -/
def groupsOk (d : List Byte) : Bool :=
  (dGroups d).all (fun g =>
    let rs := g.2.map (fun i => (dLeaf d i).rank)
    g.1 ≥ 2 ^ 24 || (decide (g.2.length ≤ 64) && rs.all (fun r => decide (r < 64)) && decide (rs.dedup.length = rs.length)))

/-- A descriptor is valid (R338); `hopm` is `ENG.HOPM` in µs, which V must exceed twice, as in TXCLOSE. -/
def descValid (d : List Byte) (hopm : Nat) : Bool :=
  let ty := dType d
  let vote := decide (ty = 0) || decide (ty = 4)
  decide (128 ≤ d.length) && decide (d.length ≤ 2072640) && decide (numAt d 0 1 = 1) && decide (ty ≤ 4) && decide (numAt d 3 1 < 2) &&
  (!vote || (decide (dMode d ≤ 2) && decide (dTxid d ≠ 0) && decide (2 * hopm < dWindow d))) &&
  (!(ty = 0 || ty = 2) || (decide (1 ≤ dDeadline d) && decide (dDeadline d ≤ 3600000))) &&
  decide (dNmem d ≤ 256) && decide (d.length = 128 + 64 * dNmem d + 16 * dNleaf d) && decide (dLslot d ≤ 1) && (ty ≠ 3 || decide (dStep d = 0)) &&
  (!(ty = 2 || ty = 3) || decide (dHbuf d % 4096 = 0)) &&
  (ty ≠ 2 || (decide (dCreg d % 65536 = 0) && decide (1 ≤ dNchunk d) && decide (dNchunk d ≤ 1048576))) &&
  decide (numAt d 0x58 36 = 0) && decide (numAt d 0x7C 4 = (crc32c (overlay d 0x7C [0, 0, 0, 0])).toNat) && groupsOk d

end Sys2Proof.Machine
end

