-- ==== Sys2Proof/Machine/TrayCmd.lean ====
section
/-!
DEFINITION. What the commands of the tray build's queues check and do: table commands, COPY and MSEND (spec/10_command_queues_transactions.md, R209 to
R212, R218, R222; spec/11_pans_reduction.md, R227 to R231 and R242; spec/12_tree_ensembles.md, R253 to R256).
-/

namespace Sys2Proof.Machine

/-- A failure: status and reason. -/
abbrev Fail : Type := Nat × Nat

/-- A slot that a command names and that is attached. -/
def Tray.slotOn (t : Tray) (s : Nat) : Bool := decide (s < 64) && (t.u.step s).en

/-! ### PDEFINE (R227 to R231) -/

/-- Every pan's cells lie in its core's bank and no two overlap. -/
def cellsOk (d : List Byte) : Bool :=
  (List.range (pNcore d)).all (fun c =>
    let ps := corePans d c
    ps.all (fun e => decide (e.2.cell + bankLines (pNmem d) e.2 ≤ coreBank d c) &&
      ps.all (fun f => f.1 = e.1 || decide (e.2.cell + bankLines (pNmem d) e.2 ≤ f.2.cell) ||
        decide (f.2.cell + bankLines (pNmem d) f.2 ≤ e.2.cell))))

/-- A pan entry's fields lie in their ranges (R230, R233). -/
def panOk (d : List Byte) (i : Nat) : Bool :=
  let p := pPan d i
  let o := 128 + 8 * pNmem d + 8 * pNcore d * pNrep d + 48 * i
  let lvl1 := decide (pLevel d = 1)
  decide (p.type ≤ 7) && (if lvl1 then decide (p.ftype ≤ 1) else decide (p.ftype = 0)) && decide (-32 ≤ p.s) && decide (p.s ≤ 47) &&
  decide (1 ≤ p.w) && decide (p.w ≤ 64) && (lvl1 || decide (p.w = 1)) && decide (p.core < pNcore d) && decide (p.flags < 4) &&
  decide (numAt d (o + 0x0C) 4 = 0) && decide (numAt d (o + 0x28) 8 = 0) &&
  (if lvl1 then decide (p.feature + p.w ≤ 0x2000) || (decide (0x2000 ≤ p.feature) && decide (p.feature + p.w ≤ 0x2008) && decide (p.ftype = 0))
   else decide (p.feature < 1024)) &&
  (match p.type with
   | 4 => decide (p.param ≤ 46) && decide (p.p1.toNat < 2 ^ 32)
   | 5 => decide (1 ≤ p.param) && decide (p.param ≤ 32)
   | 7 => decide (1 ≤ p.param) && decide (p.param ≤ 16)
   | 6 => decide (p.param = 0) && decide (0 ≤ p.p2.toInt) && decide (p.p2.toInt ≤ 2 ^ 47 - 1) && decide (1 ≤ p.p3.toInt) &&
       decide (p.p3.toInt ≤ 2 ^ 62)
   | _ => decide (p.param = 0))

/-- The declared points' angles ascend. -/
def anglesAscend (d : List Byte) : List Nat → Bool
  | [] => true
  | [_] => true
  | a :: b :: r => decide (pAngle d a < pAngle d b) && anglesAscend d (b :: r)

/-- Reason 0x0203 does not hold of a descriptor (R228 to R231). -/
def descOk (d : List Byte) (role : Nat) : Bool :=
  let maxMem := if pLevel d = 1 then 192 else if pLevel d = 2 then 64 else 32
  decide (128 ≤ d.length) && decide (numAt d 0 1 = 1) && decide (pLevel d = role) && decide (numAt d 2 1 < 8) && decide (pGrain d ≤ 5) &&
  decide (pMask d ≠ 0) && decide (2 ≤ pNbank d) && decide (pNbank d ≤ 8) && decide (pHring d < 64) && decide (1 ≤ pNmem d) &&
  decide (pNmem d ≤ maxMem) && decide (1 ≤ pNpan d) && decide (pNpan d ≤ 1024) && decide (1 ≤ pNcore d) && decide (pNcore d ≤ 4096) &&
  decide (1 ≤ pNrep d) && decide (pNrep d ≤ 8) && decide (numAt d 0x13 1 = 0) && decide (1 ≤ pDns d) && decide (pDns d ≤ 1000000) &&
  decide (numAt d 0x20 28 = 0) && decide (d.length = 128 + 8 * pNmem d + 8 * pNcore d * pNrep d + 48 * pNpan d) &&
  decide (numAt d 0x3C 4 = (crc32c (overlay d 0x3C [0, 0, 0, 0])).toNat) && anglesAscend d (pPoints d) &&
  (List.range (pNmem d)).all (fun j => pLevel d ≠ 1 || (decide ((pMember d j).2.1 = 1) && decide ((pMember d j).2.2 = 0))) &&
  (List.range (pNpan d)).all (panOk d) &&
  (List.range (pNrep d)).all (fun r => (List.range (pNcore d)).all (fun c =>
    let e := pCore d r c
    decide (e.1 < 81920) &&
      decide (e.2.2 = pNbank d * coreBank d c + ((corePans d c).map (fun x => keepLines (pNmem d) x.2)).sum))) &&
  decide (pHmax d = harvestLen d)

/-- Reason 0x0208 (R231). -/
def perLeafBad (d : List Byte) : Bool :=
  (pPans d).any (fun e => (e.2.type = 6 || e.2.type = 7) &&
    (pLevel d ≠ 1 || pGrain d ≠ 0 || pNrep d ≠ 1 || pFlag d 1 || e.2.w ≠ 1))

/-- The regions of a descriptor do not meet one another. -/
def regionsApart : List (Nat × Nat × Nat) → Bool
  | [] => true
  | a :: r => !r.any (regionsMeet a) && regionsApart r

/-- The first reason that a descriptor is refused for (R231). -/
def Tray.pdefineRefusal (t : Tray) (d : List Byte) (slot : Nat) : Option Nat :=
  let regs := panRegions d
  if 128 ≤ d.length && 2 ^ 22 < pHmax d then some 0x0202
  else if !descOk d t.u.idn.role then some 0x0203
  else if perLeafBad d then some 0x0208
  else if (List.range (pNcore d)).any (fun c => 64 < (coreFeats d c false).length + (coreFeats d c true).length) then some 0x0207
  else if regs.any (fun r => !t.coreOk r.1) then some 0x0205
  else if !cellsOk d || regs.any (fun r => 4096 < r.2.1 + r.2.2) || !regionsApart regs || regs.any (fun r => t.regions.any (regionsMeet r)) then
    some 0x0204
  else if 1024 ≤ t.psets.length then some 0x0209
  else if 4096 < t.mcUsed + panGroups d then some 0x0206
  else if pJob d ≠ (t.u.step slot).job then some 0x020A
  else none

/-! ### Checks of table commands (R209, R210) -/

/-- A stream-area operand: a multiple of 4, inside the area behind the handle table. -/
def Tray.streamRange (t : Tray) (a n from0 : Nat) : Option Fail :=
  if a % 4 ≠ 0 || n % 4 ≠ 0 then some (4, 0) else if a < from0 || t.strLen < a + n then some (3, 0) else none

/-- Commands that may not be members: data commands and waits (R220). -/
def notMember (op : Nat) : Bool := [1, 2, 3, 4, 0x30, 0x40, 0x41, 0x50].contains op

/-- The descriptor that a PDEFINE or START acts on: the one that was validated, where the journal staged it with the command (R227), else what stands in
LPDDR5X. -/
def Tray.cmdDesc (t : Tray) (b : List Byte) : List Byte :=
  if 64 < b.length then b.drop 64
  else t.lpBytes (numAt b 0x10 8) (numAt b 0x18 4)

/-- The slot's health pan set. -/
def Tray.hpset (t : Tray) (s : Nat) : Nat := t.u.rf (inst R.HLT_SCFG s) 0 10

/-- The member of the slot's health pan set that a leaf is. -/
def Tray.hmember (t : Tray) (s : Nat) (leaf : W32) : Option Nat := (t.pset (t.hpset s)).bind (fun p => pMemberOf p.desc leaf)

/-- CONTAIN's operands are out of their ranges (R292). -/
def containBad (b : List Byte) : Bool :=
  let kind := numAt b 0x14 1
  let arg := numAt b 0x16 2
  3 < kind || (kind = 1 && (arg = 0 || 255 < arg)) || (kind = 2 && arg ≠ 0)

/-- What a table command fails with in a state, if it does. -/
def Tray.checkCmd (t : Tray) (b : List Byte) : Option Fail :=
  let n := fun (o k : Nat) => numAt b o k
  let slot := cSlot b
  let handle := n 0x20 2
  let pset := n 0x1C 2
  if !cmdClean b then some (2, 0)
  else match cOp b with
  | 0x10 =>
    if 63 < handle then some (2, 0)
    else if t.u.idn.role ≠ 1 then some (7, 0x030A)
    else match t.streamRange (n 0x10 8) (n 0x18 8) 65536 with
      | some f => some f
      | none =>
        if (smGet? t.models handle).isSome then some (6, 0)
        else (t.pkgCheck (n 0x10 8) (n 0x18 8) true).map (fun r => (7, r.reason))
  | 0x11 =>
    match smGet? t.models handle with
    | none => some (5, 0)
    | some m => if m.unloading.isSome then some (5, 0) else if t.boundSlots handle ≠ [] then some (6, 0) else none
  | 0x12 =>
    if !t.slotOn slot then some (5, 0)
    else match smGet? t.models handle with
      | none => some (5, 0)
      | some m => if m.unloading.isSome then some (5, 0)
                  else if t.binds.any (fun x => x.slot = slot && x.upto.isNone) then some (6, 0) else none
  | 0x13 =>
    if !t.slotOn slot || !t.binds.any (fun x => x.slot = slot && x.handle = handle && x.upto.isNone) then some (5, 0) else none
  | 0x20 =>
    if 1023 < pset then some (2, 0)
    else if !t.slotOn slot then some (5, 0)
    else match t.streamRange (n 0x10 8) (n 0x18 4) 0 with
      | some f => some f
      | none =>
        if (t.pset pset).isSome then some (6, 0)
        else if b.length ≤ 64 && (t.readBytes 0 (n 0x10 8) (n 0x18 4)).2 then some (8, 0)
        else (t.pdefineRefusal (t.cmdDesc b) slot).map (fun r => (7, r))
  | 0x21 =>
    match t.pset pset with
    | none => some (5, 0)
    | some s => if s.freeing.isSome then some (5, 0) else none
  | 0x22 =>
    if !t.slotOn slot then some (5, 0)
    else match t.pset pset with
      | none => some (5, 0)
      | some s =>
        let k := cutKey s.desc (bv (n 0x20 4)) (n 0x24 1)
        if s.slot ≠ slot || s.freeing.isSome || (pGrain s.desc = 0 && !(pPoints s.desc).contains k.2) then some (5, 0) else none
  | 0x51 =>
    if n 0x10 8 % 4 ≠ 0 || n 0x18 4 % 4 ≠ 0 then some (4, 0)
    else if t.lpUsable < n 0x10 8 + n 0x18 4 then some (3, 0)
    else if b.length ≤ 64 && (t.readBytes 0 (n 0x10 8) (n 0x18 4)).2 then some (8, 0)
    else if !descValid (t.cmdDesc b) (t.u.rf R.ENG_HOPM 0 16) then some (7, 0x0602)
    else none
  | 0x52 =>
    if containBad b then some (2, 0)
    else if t.u.idn.role ≠ 1 then some (7, 0x0401)
    else if !t.slotOn slot || (t.hmember slot (bv (n 0x10 4))).isNone then some (5, 0)
    else none
  | 0x60 =>
    if 63 < slot then some (5, 0)
    else if (t.u.step slot).en then (if (List.range 64).all t.slotOn then some (7, 0x0201) else some (6, 0))
    else none
  | 0x61 =>
    if !t.slotOn slot then some (5, 0)
    else if t.binds.any (fun x => x.slot = slot && x.upto.isNone) || t.psets.any (fun e => e.2.slot = slot) then some (6, 0) else none
  | 0x62 => if !t.slotOn slot then some (5, 0) else none
  | _ => none

/-- The words of LPDDR5X that a command's check reads pass their error correction (R194, R384): those of the descriptor or package that it names, once
the checks before them pass. -/
def Tray.checkReads (t : Tray) (b : List Byte) (r : Option Fail) : Tray :=
  let reached := match r with
    | none => true
    | some e => e.1 = 7 || e.1 = 8
  let len := match cOp b with
    | 0x10 => numAt b 0x18 8
    | 0x20 => numAt b 0x18 4
    | 0x51 => numAt b 0x18 4
    | _ => 0
  if reached && b.length ≤ 64 && cmdClean b then (t.readBytes 0 (numAt b 0x10 8) len).1 else t

/-! ### Effects of table commands -/

/-- A pan set's cells and persistent lines are set to their PDEFINE state (R233, R237). -/
def Tray.initCells (t : Tray) (d : List Byte) : Tray :=
  let t := (List.range (pNbank d)).foldl (fun (v : Tray) b => v.clearBank d b) t
  (pPans d).foldl (fun (v : Tray) e =>
    (List.range (keepLines (pNmem d) e.2)).foldl (fun (v : Tray) j =>
      let k := panKeep d e.1 j
      v.setLine k.1 k.2 (keepEmpty e.2)) v) t

/-- PDEFINE takes effect (R227, R239, R246). -/
def Tray.define (t : Tray) (p slot : Nat) (d : List Byte) (since : Since) : Tray :=
  let gen := (smGet t.gens p 0 + 1) % 65536
  let t := { (t.initCells d).mcFill false p (panMcGroups p d) with gens := smPut t.gens p gen }
  t.setPset p { desc := d, slot := slot, since := since, gen := gen, hseq := 0, cuts := [], members := [], next := t.seriesStart d slot,
                fresh := !t.hasBase slot, freeing := none, late := 0, lateTot := 0, oow := 0, stale := 0, clipped := 0, published := 0 }

/-- A freed pan set's harvests are all acknowledged: the oldest PFREE_RELEASE condition (R242). -/
def Tray.psetQuiet (t : Tray) (p : Nat) : Bool :=
  (match t.pset p with | some s => s.cuts.isEmpty | none => true) && !t.staged.any (fun h => h.pset = p && !h.acked)

/-- PFREE_RELEASE: a freeing pan set's last harvest is acknowledged, its resources are released, and the PFREE ends. -/
def Tray.freeCheck (t : Tray) (p : Nat) : Tray :=
  match t.pset p with
  | none => t
  | some s =>
    match s.freeing with
    | none => t
    | some d => if t.psetQuiet p then (({ t.mcFree false p with psets := smDel t.psets p }).blk (fun u => u.bumpSeq 0x24 0)).endCmd d else t

/-- SEPOCH's effect on a slot (R242, R318): its epoch changes and the cuts of the old epoch close. -/
def Tray.setEpoch (t : Tray) (slot : Nat) (e : Byte) : Tray :=
  if (t.u.step slot).epoch = e then t
  else
    let ps := (t.psets.filter (fun x => x.2.slot = slot)).map (·.1)
    let t := ps.foldl (fun (v : Tray) p => v.closeAll p 7) t
    let t := t.blk (fun u => u.setStep slot { u.step slot with epoch := e, notice := true })
    ps.foldl (fun (v : Tray) p => match v.pset p with
      | none => v
      | some s => v.setPset p { s with next := v.seriesStart s.desc slot, fresh := true,
                                       members := smMap (fun (m : Member) => { m with came := [] }) s.members }) t

/-- A job slot is attached (R209). -/
def Tray.sattach (t : Tray) (slot : Nat) (b : List Byte) : Tray :=
  let seed := numAt b 0x20 8 % 2 ^ 48
  let t := t.blk (fun u => u.setStep slot { u.step slot with
    en := true, job := bv (numAt b 0x10 4), epoch := bv (numAt b 0x14 1), epochNext := none, srcP := bv (numAt b 0x18 4),
    srcS := bv (numAt b 0x1C 4), onSecondary := false, primaryAt := u.clk.ival, per := BitVec.ofNat 48 seed,
    estValid := decide (seed ≠ 0), haveMark := false, overrun := false, notice := false })
  { t with hlt := smMod t.hlt slot HSlot.kept }

/-- A job slot is detached: what the health unit keeps of it is discarded. -/
def Tray.sdetach (t : Tray) (slot : Nat) : Tray :=
  let t := t.blk (fun u => (u.setStep slot { u.step slot with en := false }).setRb (inst R.HLT_SCFG slot) 31 false)
  { t with hlt := smMod t.hlt slot HSlot.kept, binds := t.binds.filter (fun x => x.slot ≠ slot) }

/-- A model's binding to a slot ends for frames from `since` on (R222). -/
def Tray.unbind (t : Tray) (slot handle : Nat) (since : Since) : Tray :=
  match since with
  | .order => { t with binds := t.binds.filter (fun x => !(x.slot = slot && x.handle = handle && x.upto.isNone)) }
  | s => { t with binds := t.binds.map (fun x => if x.slot = slot && x.handle = handle && x.upto.isNone then { x with upto := some s } else x) }

/-- Harvests that cuts closed and not published yet will make. -/
def Tray.closedCuts (t : Tray) (p : Nat) : Nat := match t.pset p with | some s => (s.cuts.filter (fun c => c.closed.isSome)).length | none => 0

/-- A command as the journal stages it: a PDEFINE or START with the descriptor that was validated, which it acts on later (R227). -/
def Tray.withDesc (t : Tray) (b : List Byte) : List Byte :=
  if (cOp b = 0x20 || cOp b = 0x51) && b.length ≤ 64 then b ++ t.cmdDesc b else b

/-- The effect of a table command that was checked (R218), with its result; a PFREE or MUNLOAD leaves `d` to end later, and the answer is then
none. -/
def Tray.applyCmd (t : Tray) (b : List Byte) (since : Since) (d : Done) : Tray × Option Nat :=
  let n := fun (o k : Nat) => numAt b o k
  let slot := cSlot b
  let handle := n 0x20 2
  let pset := n 0x1C 2
  match cOp b with
  | 0x10 =>
    let t := t.loadModel handle (n 0x10 8) (n 0x18 8)
    let p := t.pkg (n 0x10 8)
    (t.blk (fun u => u.report rkModelLoaded .dflt (pay [fd 0x24 2 handle, fd 0x28 8 p.nbytes, fd 0x30 4 p.bcut])), some p.bcut)
  | 0x11 =>
    let t := { t with models := smMod t.models handle (fun (m : Model) => { m with unloading := some d }) }
    (t.unloadCheck handle, none)
  | 0x12 => ({ t with binds := t.binds ++ [⟨slot, handle, since, none⟩] }, some 0)
  | 0x13 => (t.unbind slot handle since, some 0)
  | 0x20 => (t.define pset slot (t.cmdDesc b) since, some 0)
  | 0x21 =>
    let t := t.closeAll pset 6
    let t := { t with psets := smMod t.psets pset (fun (s : Pset) => { s with freeing := some d }) }
    (t.freeCheck pset, none)
  | 0x22 =>
    match t.pset pset with
    | none => (t, some 0)
    | some s =>
      let k := cutKey s.desc (bv (n 0x20 4)) (n 0x24 1)
      if keyBefore k s.next && !s.fresh then (t, some 0)
      else
        let was := t.closedCuts pset
        let t := t.closeCut pset k 5
        (t, some (t.closedCuts pset - was))
  | 0x60 => (t.sattach slot b, some 0)
  | 0x61 => (t.sdetach slot, some 0)
  | 0x62 => (t.setEpoch slot (bv (n 0x14 1)), some 0)
  | _ => (t, some 0)

/-- The page whose configuration a table command changes as it takes effect (R445): PFREE and MUNLOAD change theirs as they end. -/
def cfgPage (op : Nat) : Option Nat :=
  if op = 0x10 || op = 0x12 || op = 0x13 then some 0x25
  else if op = 0x20 then some 0x24
  else if op = 0x60 || op = 0x61 || op = 0x62 then some 0x02
  else none

/-- Table commands take effect in one cycle: each page whose configuration they change counts it once (R445). -/
def Tray.countCfg (t : Tray) (ms : List (List Byte)) : Tray :=
  ((ms.filterMap (fun m => cfgPage (cOp m))).dedup).foldl (fun (v : Tray) p => v.blk (fun u => u.bumpSeq p 0)) t

/-- A load that a check of R254 refuses leaves its record: `v` is the state that the check looked at. -/
def Tray.noteRefusal (t v : Tray) (b : List Byte) (e : Fail) : Tray :=
  if cOp b = 0x10 && e.1 = 7 then
    match v.pkgCheck (numAt b 0x10 8) (numAt b 0x18 8) true with
    | some r => t.reportRefused (numAt b 0x20 2) r
    | none => t
  else t

/-! ### Data commands: COPY (R209) -/

/-- Bytes that a space has. -/
def Tray.spaceLen (t : Tray) (space : Nat) : Nat :=
  if space = 0 then t.lpUsable else if space = 1 then 2 ^ 64 else if space = 2 then 2 ^ 30 else 81920 * 65536

/-- Bytes of a space as they stand (R209): LPDDR5X with its areas, host memory, the brine store, and the slices. -/
def Tray.spaceBytes (t : Tray) (space a n : Nat) : List Byte :=
  if space = 0 then (List.range n).map (fun i => t.lpByte (a + i))
  else if space = 1 then t.u.hostRead a n
  else if space = 2 then (List.range n).map (fun i => t.brineAt (a + i))
  else t.sliceBytes a n

/-- The check of a COPY, ZCOMP or ZDECOMP (R209, R210). -/
def Tray.checkCopy (t : Tray) (b : List Byte) : Option Fail :=
  let n := fun (o k : Nat) => numAt b o k
  let src := n 0x28 1 / 16
  let dst := n 0x28 1 % 16
  let len := n 0x20 8
  if !cmdClean b || 3 < src || 1 < dst || len < 4 || 2 ^ 40 < len then some (2, 0)
  else if n 0x10 8 % 4 ≠ 0 || n 0x18 8 % 4 ≠ 0 || len % 4 ≠ 0 then some (4, 0)
  else if t.spaceLen src < n 0x10 8 + len || t.spaceLen dst < n 0x18 8 + (if cOp b = 0x30 then len else 0) then some (3, 0)
  else none

/-- A write to a destination space. -/
def Tray.spaceWrite (t : Tray) (space a : Nat) (l : List Byte) : Tray :=
  if space = 1 then t.blk (fun u => u.hostWrite a l) else t.lpWrite a l

/-- A transfer of host memory waits while the function is not bus master (R372). -/
def Tray.canMaster (t : Tray) (b : List Byte) : Bool := t.u.pw.busMaster || (numAt b 0x28 1 / 16 ≠ 1 && numAt b 0x28 1 % 16 ≠ 1)

/-- The byte of a source at which the first poisoned word begins, if one lies in it. -/
def Tray.firstPoison (t : Tray) (space a n : Nat) : Tray × Option Nat :=
  if space = 1 then
    (t, ((t.u.poison.filter (fun e => decide (a < 8 * e.1 + 8) && decide (8 * e.1 < a + n))).map (fun e => max a (8 * e.1) - a)).min?)
  else
    let r := t.readBytes space a n
    if r.2 then
      let w := wordsOf a n
      let bad := (r.1.flawed space w.1 w.2).filter (fun x => r.1.flaw space x = flawPoison)
      (r.1, some (max a (8 * bad.headD 0) - a))
    else (r.1, none)

/-- A COPY finishes (R209, R384): a poisoned source word is written on in the poisoned form, to host memory as a Poisoned TLP, and the copy ends there with
status 8. -/
def Tray.copyDone (t : Tray) (q : Nat) (b : List Byte) : Tray :=
  let n := fun (o k : Nat) => numAt b o k
  let src := n 0x28 1 / 16
  let dst := n 0x28 1 % 16
  let r := t.firstPoison src (n 0x10 8) (n 0x20 8)
  let len := match r.2 with | some x => x | none => n 0x20 8
  let t := r.1.spaceWrite dst (n 0x18 8) (r.1.spaceBytes src (n 0x10 8) len)
  match r.2 with
  | some _ =>
    let t := if dst = 0 then t.setFlaw 0 ((n 0x18 8 + len) / 8) flawPoison else t.blk (fun u => u.hostPoison (n 0x18 8 + len))
    t.finish q 8 0 len false
  | none => t.finish q 0 0 len false

/-! ### MSEND -/

/-- The link of an MSEND's neighbour (R209): child 0 to 191, or the parent, where the tree table has a valid entry. -/
def Tray.neighbour (t : Tray) (x : Nat) : Option Nat :=
  if x = 0xFFFF then (if bit (t.u.treeAt t.u.parentLink).attr 31 then some t.u.parentLink else none)
  else if x < 192 && bit (t.u.treeAt (x + 2)).attr 31 then some (x + 2)
  else none

/-- The check of an MSEND. -/
def Tray.checkSend (t : Tray) (b : List Byte) : Option Fail :=
  let n := fun (o k : Nat) => numAt b o k
  if !cmdClean b || n 0x12 2 = 9 || n 0x14 2 < 4 || 8192 < n 0x14 2 || 3 < n 0x28 1 then some (2, 0)
  else if n 0x18 8 % 4 ≠ 0 || n 0x14 2 % 4 ≠ 0 then some (4, 0)
  else if t.spaceLen (n 0x28 1) < n 0x18 8 + (n 0x14 2 - 4) then some (3, 0)
  else if (t.neighbour (n 0x10 2)).isNone then some (5, 0)
  else none

/-- MSEND sends its control message and waits for link release (R166, R212): `tag` names the message. -/
def Tray.msendGo (t : Tray) (q : Nat) (f : Flight) : Tray :=
  let n := fun (o k : Nat) => numAt f.body o k
  match t.neighbour (n 0x10 2) with
  | none => t.finish q 5 0 0 false
  | some l =>
    let r := t.firstPoison (n 0x28 1) (n 0x18 8) (n 0x14 2 - 4)
    if r.2.isSome then r.1.finish q 8 0 0 false
    else
      let t := r.1
      let body := ctlBody (n 0x12 2) (t.spaceBytes (n 0x28 1) (n 0x18 8) (n 0x14 2 - 4))
      let u := (t.u.enqueue (t.u.linkPort l) 1 { mkMsg 4 l body with tag := BitVec.ofNat 32 (q + 1) }).modLink l
        (fun x => { x with keepAt := t.u.clk.ival })
      { t with u := u, flights := smPut t.flights q { f with phase := .waiting, aux := l, since := u.clk.ival } }

/-- An MSEND whose message its link has released ends. -/
def Tray.msendCheck (t : Tray) : Tray :=
  t.flights.foldl (fun (v : Tray) e =>
    if cOp e.2.body = 0x50 && e.2.phase == .waiting then
      let tag := BitVec.ofNat 32 (e.1 + 1)
      let kept := (v.u.link e.2.aux).retained.any (fun m => m.tag = tag)
      if kept || v.u.tagged (v.u.linkPort e.2.aux) 4 tag then v else v.finish e.1 0 0 0 false
    else v) t

end Sys2Proof.Machine
end

