-- ==== Sys2Proof/Machine/TrayIngest.lean ====
section
/-!
DEFINITION. Ingest of the tray build: reassembly of frames and harvests, ingest rings, and the credit that goes back to leaves
(spec/08_frames_links_scheduling.md, R179 and R180; spec/03_counters_sampler.md, R84; spec/10_command_queues_transactions.md, R205; spec/11_pans_reduction.md, R245).
-/

namespace Sys2Proof.Machine

/-- "frame CRC failed" and "frame incomplete" (R394). -/
def rkFrameCrc : RecKind := rk 0x21 0x0002 2 .bySeverity
def rkFrameIncomplete : RecKind := rk 0x21 0x0003 2 .bySeverity

def Tray.asmAt (t : Tray) (k : Nat) : Asm := smGet t.asm k Asm.reset
def Tray.setAsm (t : Tray) (k : Nat) (a : Asm) : Tray := { t with asm := smSet t.asm k a Asm.reset }

/-- The reassembly of a child's harvests of a pan set; that of a leaf slot's frames has its ring's number. -/
def harvestAsm (child pset : Nat) : Nat := 2048 + child * 1024 + pset

/-! ### Rings (R205) -/

/-- An enabled ring other than `r` meets this ring, or binds the same source. -/
def Tray.ringClash (t : Tray) (r : Nat) (w : W32) : Bool :=
  let base := fld w 8 14
  let size := fld w 22 7
  (t.rings.map (·.1)).any (fun o => o ≠ r && t.qb (2048 + o) 31 &&
    (decide (base < t.qf (2048 + o) 8 14 + t.qf (2048 + o) 22 7 ∧ t.qf (2048 + o) 8 14 < base + size) ||
      (decide (t.qf (2048 + o) 30 1 = fld w 30 1) && (t.ring o).bound = (t.ring r).bound && (bit w 30 || decide (t.qf (2048 + o) 29 1 = fld w 29 1)))))

/-- INGEST_RING_ENABLE: a write of RCFG (R205). Setting en on a ring that does not fit is refused; a ring that is taken out of use loses what it
holds, and cuts that are complete with its member active or inactive close (R241, R242). -/
def Tray.ringCfg (t : Tray) (r : Nat) (w : W32) : Tray :=
  let k := qcfgKey (2048 + r)
  let was := t.u.rb k 31
  let size := fld w 22 7
  let bad := decide (size = 0) || decide (64 < size) || decide (12288 < fld w 8 14 + size) || t.ringClash r w
  if bit w 31 && !was && bad then t.blk (fun u => (u.setReg k ((setBit w 31 false) &&& 0x7FFFFF80#32)).cause 0x21 0 1)
  else
    let t := t.blk (fun u => u.setReg k (w &&& 0xFFFFFF80#32))
    if bit w 31 = was then t
    else
      let t := (t.ring r).items.foldl (fun (v : Tray) i => v.uncount r i) t
      let x := { IRing.reset with bound := (t.ring r).bound }
      let t := { t with rings := if bit w 31 then smPut t.rings r x else smSet t.rings r x IRing.reset }
      let t := { t with asm := t.asm.filter (fun e => e.1 ≠ r && (!bit w 30 || decide ((e.1 - 2048) / 1024 ≠ x.bound.toNat) || decide (e.1 < 2048))) }
      t.recheckCuts

/-- The bound leaf number or child is written while the ring is not enabled. -/
def Tray.ringBind (t : Tray) (r : Nat) (v : W32) : Tray :=
  if t.qb (2048 + r) 31 then t else t.setRing r { t.ring r with bound := v }

/-- Places occupied: frames written and segments of the frame being assembled. -/
def Tray.ringFill (t : Tray) (r : Nat) : Nat := (t.ring r).used + (t.asmAt r).got

/-- A frame or harvest that no ring takes (R205): "no ingest ring" has no code in the spec. -/
def Tray.noRing (t : Tray) (src : Nat) : Tray :=
  t.blk (fun u => ((u.bump R.ING_NORING).cause 0x21 0 0).reportOpen 0x21 1 .dflt [src])

/-- A frame or harvest under assembly is discarded as incomplete (R179, R180). -/
def Tray.incomplete (t : Tray) (k r : Nat) : Tray :=
  let a := t.asmAt k
  if !a.isOpen then t
  else
    let t := t.setAsm k Asm.reset
    let t := t.blk (fun u => ((u.bump R.ING_INCOMP).cause 0x21 0 3).report rkFrameIncomplete .dflt (pay [fd 0x24 2 (2048 + r), fd 0x28 4 a.seq.toNat]))
    let x := t.ring r
    (t.setRing r { x with gone := if k < 2048 then x.gone ++ [a.seq] else x.gone }).giveCredit r (if k < 2048 then a.count else 0)

/-- A complete frame or harvest that fails its CRC. -/
def Tray.crcFailed (t : Tray) (k r : Nat) (a : Asm) : Tray :=
  let t := t.setAsm k Asm.reset
  let t := t.blk (fun u => ((u.bump R.ING_CRCERR).cause 0x21 0 2).report rkFrameCrc .dflt (pay [fd 0x24 2 (2048 + r), fd 0x28 4 a.seq.toNat]))
  let x := t.ring r
  (t.setRing r { x with gone := if k < 2048 then x.gone ++ [a.seq] else x.gone }).giveCredit r (if k < 2048 then a.count else 0)

/-- The frame at the head of a reassembly is good: its length and its CRC (R76, R246); an armed injection inverts the CRC of the next one (R388). -/
def crcGood (b : List Byte) (harvest : Bool) : Bool :=
  decide (64 ≤ b.length) && (harvest || decide (b.length = 64 + 4 * numAt b 2 2)) &&
  decide (numAt b 0x3C 4 = (crc32c (overlay b 0x3C [0, 0, 0, 0])).toNat)

/-- Write a frame or harvest to its ring: each place holds a segment header and up to 8,176 bytes. -/
def Tray.ringPut (t : Tray) (r : Nat) (b : List Byte) (seq : W32) : Tray :=
  let x := t.ring r
  let np := max 1 (t.ringPlaces r)
  let n := ceilDiv b.length 8176
  let slot := t.qf (2048 + r) 29 1
  let t := (List.range n).foldl (fun (v : Tray) i =>
    let part := (b.drop (8176 * i)).take 8176
    v.brineWrite (v.ringBase r + 8192 * ((x.next + i) % np))
      (layout 16 [fd 0 1 1, fd 1 1 (16 * i + n), fd 2 2 part.length, fd 4 4 seq.toNat, fd 8 4 (8176 * i), fd 0xC 1 slot] ++ part)) t
  let x := t.ring r
  t.setRing r { x with items := x.items ++ [⟨x.next, n, b.length, seq, t.u.clk.ival, []⟩], next := (x.next + n) % np, written := x.written + 1 }

/-- What the pan sets made of the newest item of a ring. -/
def Tray.setJudged (t : Tray) (r : Nat) (js : List Judged) : Tray :=
  let x := t.ring r
  t.setRing r { x with items := mapLast (fun (i : RingItem) => { i with judged := js }) x.items }

/-- Sequence numbers from `a` up to and without `b`, of which `n` at most. -/
def seqsTo (b : W32) : Nat → W32 → List W32
  | 0, _ => []
  | n + 1, a => if a = b then [] else a :: seqsTo b n (a + 1)

/-- A complete frame of a leaf (R179, R180, R240): a duplicate is discarded; the frames missing before it return their credit. -/
def Tray.frameDone (t : Tray) (r : Nat) (a : Asm) : Tray :=
  let inj := t.u.armed 0x21 0 2 && decide (t.u.injParam 0x21 0 % 2048 = r)
  let t := if inj then t.blk (fun u => u.fire 0x21 0 2 false) else t
  if inj || !crcGood a.bytes false then t.crcFailed r r a
  else
    let t := t.setAsm r Asm.reset
    let x := t.ring r
    let dup := match x.lastSeq with | some l => !stepAfter a.seq l | none => false
    if dup then t.blk (fun u => u.bump R.ING_DUP)
    else if t.ringPlaces r < (t.ring r).used + a.count then
      t.setAsm r { a with isOpen := true } |>.incomplete r r
    else
      let missing := match x.lastSeq with
        | some l => ((seqsTo a.seq (min (a.seq - l - 1).toNat 65536) (l + 1)).filter (fun s => !x.gone.contains s)).length
        | none => 0
      let t := (t.setRing r { x with gone := [], lastSeq := some a.seq }).giveCredit r (missing * a.count)
      let h := FHdr.read a.bytes
      let t := t.ringPut r a.bytes a.seq
      let t := t.setRing r { t.ring r with slot := match t.slotOfJob h.job with | some s => some s | none => (t.ring r).slot }
      let j := t.judgeFrame h []
      (j.1.setJudged r j.2).addIngest a.bytes.length

/-- A frame segment is valid (R79, R179). -/
def segOk (b : List Byte) : Bool :=
  let idx := numAt b 1 1 / 16
  let count := numAt b 1 1 % 16
  let len := numAt b 2 2
  decide (idx < count) && decide (count ≤ 5) && decide (numAt b 8 4 = 8176 * idx) && decide (b.length = 16 + len) && decide (1 ≤ len) &&
    decide (len ≤ 8176) && (decide (idx + 1 = count) || decide (len = 8176))

/-- A brine segment of a leaf: it opens or continues the frame of its slot, or makes it incomplete. -/
def Tray.brineSegment (t : Tray) (leaf : W32) (b : List Byte) : Tray :=
  let idx := numAt b 1 1 / 16
  let count := numAt b 1 1 % 16
  let seq : W32 := bv (numAt b 4 4)
  match t.ringOf 0 (numAt b 0xC 1 % 2) leaf with
  | none => if idx = 0 then t.noRing leaf.toNat else t
  | some r =>
    if idx = 1 && t.u.armed 0x21 0 3 && decide (t.u.injParam 0x21 0 % 2048 = r) then t.blk (fun u => u.fire 0x21 0 3 false)
    else
      let ok := segOk b
      let a := t.asmAt r
      if ok && idx = 0 then
        let t := t.incomplete r r
        let a : Asm := ⟨seq, count, 1, b.drop 16, t.u.clk.ival, true⟩
        if count = 1 then (t.setAsm r a).frameDone r a else t.setAsm r a
      else if ok && a.isOpen && a.seq = seq && a.got = idx && a.count = count then
        let a := { a with got := idx + 1, bytes := a.bytes ++ b.drop 16, lastAt := t.u.clk.ival }
        if idx + 1 = count then (t.setAsm r a).frameDone r a else t.setAsm r a
      else t.incomplete r r

/-- A complete harvest of a child (R245): duplicates are discarded; the pan sets it supplies judge it at its ring write (R240). -/
def Tray.harvestDone (t : Tray) (k r pset : Nat) (a : Asm) : Tray :=
  let inj := t.u.armed 0x21 0 2 && decide (t.u.injParam 0x21 0 % 2048 = r)
  let t := if inj then t.blk (fun u => u.fire 0x21 0 2 false) else t
  if inj || !crcGood a.bytes true then t.crcFailed k r a
  else
    let t := t.setAsm k Asm.reset
    let x := t.ring r
    let dup := match smGet? x.hseqs pset with | some l => !stepAfter a.seq l | none => false
    if dup then t.blk (fun u => u.bump R.ING_DUP)
    else if t.ringPlaces r < x.used + ceilDiv a.bytes.length 8176 then t.setAsm k { a with isOpen := true } |>.incomplete k r
    else
      let t := (t.setRing r { x with hseqs := smPut x.hseqs pset a.seq }).ringPut r a.bytes a.seq
      let j := t.judgeHarvest a.bytes []
      (j.1.setJudged r j.2).addIngest a.bytes.length

/-- HARVEST_SEGMENT_RECEIVE: a harvest segment of a child (R245). -/
def Tray.harvestSegment (t : Tray) (child : Nat) (b : List Byte) : Tray :=
  let len := numAt b 2 2
  let seq : W32 := bv (numAt b 4 4)
  let pset := numAt b 0xC 2 % 1024
  let segno := numAt b 0xE 2
  let first := Nat.testBit (numAt b 1 1) 7
  let last := Nat.testBit (numAt b 1 1) 6
  match t.ringOf 1 0 (BitVec.ofNat 32 child) with
  | none => if segno = 0 then t.noRing child else t
  | some r =>
    if segno = 1 && t.u.armed 0x21 0 3 && decide (t.u.injParam 0x21 0 % 2048 = r) then t.blk (fun u => u.fire 0x21 0 3 false)
    else
      let k := harvestAsm child pset
      let ok := decide (numAt b 8 4 = 8176 * segno) && decide (b.length = 16 + len) && decide (1 ≤ len) && decide (len ≤ 8176) &&
        (last || decide (len = 8176)) && (first == decide (segno = 0))
      let a := t.asmAt k
      if ok && segno = 0 then
        let t := t.incomplete k r
        let a : Asm := ⟨seq, 0, 1, b.drop 16, t.u.clk.ival, true⟩
        if last then (t.setAsm k a).harvestDone k r pset a else t.setAsm k a
      else if ok && a.isOpen && a.seq = seq && a.got = segno then
        let a := { a with got := segno + 1, bytes := a.bytes ++ b.drop 16, lastAt := t.u.clk.ival }
        if last then (t.setAsm k a).harvestDone k r pset a else t.setAsm k a
      else t.incomplete k r

/-- The ring that a reassembly fills. -/
def Tray.asmRing (t : Tray) (k : Nat) : Nat :=
  if k < 2048 then k else (t.ringOf 1 0 (BitVec.ofNat 32 ((k - 2048) / 1024))).getD 0

/-- REASSEMBLY_TIMEOUT: `ING.RTO` passes after the last segment of an open reassembly (R179). -/
def Tray.asmTimeout (t : Tray) (k : Nat) : Tray :=
  let a := t.asmAt k
  if a.isOpen then (t.blk (fun u => u.toIv (a.lastAt + usIv (u.rf R.ING_RTO 0 16)))).incomplete k (t.asmRing k) else t

/-! ### Credit (R84) -/

/-- The link of a leaf. -/
def Tray.leafLink (t : Tray) (leaf : W32) : Option Nat :=
  (t.u.tree.find? (fun e => 2 ≤ e.1 && bit e.2.attr 31 && bit e.2.attr 29 && decide (e.2.node = leaf))).map (·.1)

/-- A ring is filled to a percentage. -/
def Tray.filledTo (t : Tray) (r pct : Nat) : Bool := decide (pct * t.ringPlaces r ≤ 100 * t.ringFill r)

/-- A change of a leaf's level: "leaf decimated" has no code in the spec. -/
def Tray.setLevel (t : Tray) (r level : Nat) : Tray :=
  let x := t.ring r
  if level = x.level then t
  else (t.setRing r { x with level := level, changes := x.changes + 1 }).blk (fun u =>
    u.reportOpen 0x21 2 (match x.slot with | some s => .slot s | none => .dflt) [x.bound.toNat, (t.qf (2048 + r) 29 1), level])

/-- The level a credit message takes: one more where the ring is filled, at most once a step; one less after enough quiet steps.
DESIGN CHOICE (log entry 97): a `DEC_HOLD` of 0 acts as 1, and the count of quiet steps starts again after each fall. -/
def Tray.nextLevel (t : Tray) (r : Nat) : Tray :=
  let x := t.ring r
  let s := x.slot.getD 0
  let idx := (t.u.step s).idx
  if t.filledTo r (t.u.rf R.ING_DEC_HI 0 7) then
    if x.level < 3 && x.raisedIn ≠ some idx then (t.setRing r { x with raisedIn := some idx }).setLevel r (x.level + 1) else t
  else if max 1 (t.u.rf R.ING_DEC_HOLD 0 16) ≤ x.lowFor && t.u.rf (inst R.ING_DEC_MIN s) 0 2 < x.level then
    (t.setRing r { x with lowFor := 0 }).setLevel r (x.level - 1)
  else t

/-- A credit message to the leaf of a ring (R83). -/
def Tray.sendCredit (t : Tray) (r grant : Nat) : Tray :=
  let x := t.ring r
  match t.leafLink x.bound with
  | none => t
  | some l => t.blk (fun u => u.sendCtl l 2 (leBytes 1 (t.qf (2048 + r) 29 1) ++ leBytes 1 x.level ++ leBytes 2 (min grant 65535)))

/-- CREDIT_RETURN: 16 places wait to be returned, or a millisecond has passed since the first. -/
def Tray.creditReturn (t : Tray) (r : Nat) : Tray :=
  let x := t.ring r
  if x.freed = 0 then t
  else
    let t := if 16 ≤ x.freed then t else t.blk (fun u => u.toIv (x.freedAt + msIv 1))
    let t := (t.nextLevel r).sendCredit r x.freed
    t.setRing r { t.ring r with freed := 0 }

/-- A step notice of a slot: rings at or below `DEC_LO` count it (R84). -/
def Tray.quietStep (t : Tray) (slot : Nat) : Tray :=
  t.rings.foldl (fun (v : Tray) e =>
    let x := v.ring e.1
    if x.slot = some slot && v.qb (2048 + e.1) 31 && v.qf (2048 + e.1) 30 1 = 0 then
      let low := decide (100 * v.ringFill e.1 ≤ v.u.rf R.ING_DEC_LO 0 7 * v.ringPlaces e.1)
      v.setRing e.1 { x with lowFor := if low then x.lowFor + 1 else 0 }
    else v) t

end Sys2Proof.Machine
end

