-- ==== Sys2Proof/Machine/TxTypes.lean ====
section
/-!
DEFINITION. Transaction messages as data (spec/10_command_queues_transactions.md, R223).
-/

namespace Sys2Proof.Machine

/-- A transaction message, control code 0x0009; `members` holds the bytes of its member commands. -/
structure TxMsg where
  sub : Byte
  flags : Byte
  vote : Byte
  txid : W32
  job : W32
  deadline : W64
  point : W64
  count : W32
  part : Byte
  parts : Byte
  nmem : W16
  members : List Byte
deriving DecidableEq, Repr

/-- The body of a transaction message after code and length. -/
def TxMsg.rest (m : TxMsg) : List Byte :=
  layout 60 [fd 0 1 m.sub.toNat, fd 1 1 m.flags.toNat, fd 2 1 m.vote.toNat, fd 4 4 m.txid.toNat, fd 8 4 m.job.toNat, fd 0xC 8 m.deadline.toNat,
    fd 0x14 8 m.point.toNat, fd 0x1C 4 m.count.toNat, fd 0x20 1 m.part.toNat, fd 0x21 1 m.parts.toNat, fd 0x22 2 m.nmem.toNat] ++ m.members

/-- A transaction message read from a control body. -/
def TxMsg.read (l : List Byte) : TxMsg :=
  ⟨bv (numAt l 4 1), bv (numAt l 5 1), bv (numAt l 6 1), bv (numAt l 8 4), bv (numAt l 0xC 4), bv (numAt l 0x10 8), bv (numAt l 0x18 8),
    bv (numAt l 0x20 4), bv (numAt l 0x24 1), bv (numAt l 0x25 1), bv (numAt l 0x26 2), l.drop 0x40⟩

/-- The member commands of a message's bytes. -/
def TxMsg.cmds (m : TxMsg) : List (List Byte) := (List.range (m.members.length / 64)).map (fun i => bytesAt m.members (64 * i) 64)

/-- A message of a sub with nothing else but its key. -/
def TxMsg.plain (sub : Nat) (job txid : W32) : TxMsg := ⟨bv sub, 0, 0, txid, job, 0, 0, 0, 0, 0, 0, []⟩

end Sys2Proof.Machine
end

