-- ==== Sys2Proof/Machine/TrayTx.lean ====
section
/-!
DEFINITION. How a queue's command begins: on its own, as a transaction member, or against an open transaction; waits; stopping, flushing and the unit reset
of a class (spec/10_command_queues_transactions.md, R209 to R214, R218 to R221).
-/

namespace Sys2Proof.Machine

/-! ### Members and reservations (R220) -/

/-- A member acts at a level (R208): 0 names every level. -/
def levelIn (b : List Byte) (role : Nat) : Bool := decide (numAt b 3 1 = 0) || Nat.testBit (numAt b 3 1) (role - 1)

/-- Opcodes whose members reserve what they need: MLOAD, MBIND, PDEFINE, SATTACH. -/
def reserves (op : Nat) : Bool := [0x10, 0x12, 0x20, 0x60].contains op

/-- The state that members would leave, for validation alone. -/
def Tray.stageOn (t : Tray) (ms : List (List Byte)) : Tray :=
  ms.foldl (fun (v : Tray) m => (v.applyCmd m .order ⟨noQueue, m, 0, 0, 0, false, false, false⟩).1) t

/-- The members of a node's level. -/
def Tray.ofLevel (t : Tray) (ms : List (List Byte)) : List (List Byte) := ms.filter (fun m => levelIn m t.u.idn.role)

/-- What transactions without an outcome, and those that wait for their commit point, have reserved, and what deferred members of starts claim (R349);
`q` and `key` name one left out. -/
def Tray.reserved (t : Tray) (q : Option Nat) (key : Option (W32 × W32)) : List (List Byte) :=
  let open' := (t.txs.filter (fun e => q ≠ some e.1)).map (fun e => e.2.members)
  let due := t.due.map DueTx.members
  let nodes := (t.nodes.filter (fun n => n.stages && n.own && key ≠ some (n.job, n.txid))).map TxNode.members
  let claims := (t.descs.filter Desc.applied).map Desc.deferred
  (t.ofLevel (open' ++ due ++ nodes ++ claims).flatten).filter (fun m => reserves (cOp m))

/-- The state that a member of queue `q`'s transaction is validated against (R220). -/
def Tray.viewOf (t : Tray) (q : Nat) : Tray :=
  let own := match smGet? t.txs q with | some x => x.members | none => []
  (t.stageOn (t.reserved (some q) none)).stageOn (t.ofLevel own)

/-- The first failure among members that are validated in order. -/
def Tray.checkAll (t : Tray) : List (List Byte) → Option Fail
  | [] => none
  | m :: r => if notMember (cOp m) then some (13, 0)
      else match t.checkCmd m with
        | some f => some f
        | none => (t.stageOn [m]).checkAll r

/-- Transactions between first member and outcome: at most 64 (R220). -/
def Tray.txOpen (t : Tray) : Nat := (t.txs.filter (fun e => !e.2.doomed)).length + (t.nodes.filter (fun n => n.decided.isNone)).length

/-- A transaction ended: first members that wait in their queues for one of the 64 places begin again. -/
def Tray.txFreed (t : Tray) : Tray :=
  { t with flights := smMap (fun (f : Flight) => if f.phase == .waiting && cMember f.body && f.member.isNone then { f with phase := .started } else f) t.flights }

/-- A transaction of a queue is doomed (R220): its reservations go and its staged members end with status 10. -/
def Tray.doom (t : Tray) (q : Nat) : Tray :=
  match smGet? t.txs q with
  | none => t
  | some x =>
    if x.doomed then t
    else
      let t := { t with txs := smPut t.txs q { x with members := [], doomed := true } }
      (x.members.foldl (fun (v : Tray) m => v.endMember q m 10 0 false) t).txFreed

/-- A transaction of a queue is over. -/
def Tray.dropTx (t : Tray) (q : Nat) : Tray := ({ t with txs := smDel t.txs q }).txFreed

/-- A command of queue `q` fails as it is dispatched: the transaction of the queue is doomed, and one that it was to begin is doomed from the start. -/
def Tray.failsIn (t : Tray) (q : Nat) (b : List Byte) : Tray :=
  if (smGet? t.txs q).isNone && cMember b then { t with txs := smPut t.txs q ⟨cTxid b, [], true⟩ } else t.doom q

/-- COMMAND_DISPATCH: the class's dispatcher takes the next command of a ready queue, and the journal records it as started. A poisoned
command (R386), or an opcode that the class does not have, ends at once, and with it the transaction that it is a member of or comes in is doomed
(R220). -/
def Tray.dispatch (t : Tray) (cls : Nat) : Tray :=
  if t.inFlight cls < t.classLimit cls && t.u.rb (R.ENG_CCTL + 16 * cls) 31 then
    match t.pickQueue cls with
    | none => t
    | some q =>
      let b := t.nextBody q
      let c := t.queue q
      let rd := t.readBytes 2 (ringByte q (c.ci % 1024)) 64
      let t := rd.1.setQueue q { c with ci := (c.ci + 1) % 65536, full := false }
      let prio := t.qf q 20 2
      let t := { t with served := smPut t.served (4 * cls + prio) q,
                        flights := smPut t.flights q ⟨cls, b, .started, false, t.u.clk.ival, 0, none, none⟩ }
      let t := t.blk (fun u => u.count (R.ENG_CDISP + 16 * cls) 1)
      if rd.2 then (t.failsIn q b).finish q 8 0 0 false
      else if opInClass (cOp b) cls then t
      else (t.failsIn q b).finish q 1 0 0 false
  else t

/-- A member is dispatched (R220): it is validated and staged, or it dooms its transaction. -/
def Tray.member (t : Tray) (q : Nat) (f : Flight) : Tray :=
  let m := f.body
  let x? := smGet? t.txs q
  if x?.isNone && decide (64 ≤ t.txOpen) then { t with flights := smPut t.flights q { f with phase := .waiting } }
  else
    let x := match x? with | some x => x | none => ⟨cTxid m, [], false⟩
    let t := { t with txs := smPut t.txs q x }
    let fail := fun (s r : Nat) => (t.doom q).finish q s r 0 false
    if cTxid m ≠ x.txid then fail 2 0
    else if x.doomed then t.finish q 10 0 0 false
    else if 256 ≤ x.members.length then fail 2 0
    else if notMember (cOp m) then fail 13 0
    else
      let view := t.viewOf q
      let mine := levelIn m t.u.idn.role
      let bad := if mine then view.checkCmd m else if cmdClean m then none else some (2, 0)
      let t := if mine then t.checkReads m bad else t
      match bad with
      | some r => ((t.noteRefusal view m r).doom q).finish q r.1 r.2 0 false
      | none => { t with txs := smPut t.txs q { x with members := x.members ++ [if mine then t.withDesc m else m] }, flights := smDel t.flights q }

/-- A command of an opcode begins: answered is the command where it is to run on its own. A member is staged; a command without the member flag
that comes before the close of an open transaction dooms it and ends with status 2 (R220). -/
def Tray.take (t : Tray) (q op : Nat) : Tray × Option Flight :=
  match t.begun q op with
  | none => (t, none)
  | some f =>
    if f.member.isSome then (t, some f)
    else if cMember f.body then (t.member q f, none)
    else if (smGet? t.txs q).isSome then ((t.doom q).finish q 2 0 0 false, none)
    else (t, some f)

/-- The phase of a queue's command changes. -/
def Tray.setPhase (t : Tray) (q : Nat) (p : Phase) : Tray := { t with flights := smMod t.flights q (fun f => { f with phase := p }) }

/-- What a table command fails with, and the state that its check looked at: the state as it is, or, where it takes what transactions without an
outcome reserve, the state that they would leave (R220). -/
def Tray.checkFree (t : Tray) (b : List Byte) : Tray × Option Fail :=
  match t.checkCmd b with
  | some e => (t, some e)
  | none => if reserves (cOp b) then let v := t.stageOn (t.reserved none none); (v, v.checkCmd b) else (t, none)

/-- A table command runs (R218): it fails with no effect, or takes effect in one cycle and ends, but for a PFREE or MUNLOAD that waits. -/
def Tray.runTable (t : Tray) (q op : Nat) : Tray :=
  let r := t.take q op
  match r.2 with
  | none => r.1
  | some f =>
    let c := r.1.checkFree f.body
    let t := r.1.checkReads f.body c.2
    match c.2 with
    | some e => (t.noteRefusal c.1 f.body e).finish q e.1 e.2 0 false
    | none =>
      let a := (t.countCfg [f.body]).applyCmd f.body .order ⟨q, f.body, 0, 0, 0, false, f.jrn, true⟩
      match a.2 with
      | some v => a.1.finish q 0 0 v false
      | none => if (a.1.begun q op).isSome then a.1.setPhase q (if op = 0x21 then .waiting else .running) else a.1

/-! ### Waits (R212) -/

/-- WAITQ's condition. -/
def Tray.waitqMet (t : Tray) (b : List Byte) : Bool := decide (0 ≤ ((t.queue (numAt b 0x10 2)).done - (bv (numAt b 0x14 4) : W32)).toInt)

/-- The point that a WAITAT, TXCLOSE or descriptor names: mode 0, 1 or 2, and its time or stamp (R209, R338). -/
def pointOf (mode : Nat) (v : W64) (slot : Nat) : Point :=
  if mode = 1 then .podTime v else if mode = 2 then .stamp slot (v.extractLsb' 0 32) (v.extractLsb' 32 32) else .immediate

/-- A point is reached (R212, R221): pod time never while TB0 is not valid. -/
def Tray.pointReached (t : Tray) (p : Point) : Bool :=
  match p with
  | .immediate => true
  | .podTime x => t.u.clk.valid && reached64 t.u.clk.ns x
  | .stamp s i a => t.u.stampReached s i a

/-- Time moves to a point, where the clocks can tell it. -/
def Tray.toPoint (t : Tray) (p : Point) : Tray :=
  match p with
  | .immediate => t
  | .podTime x => if t.u.clk.valid then t.blk (fun u => u.toNs x) else t
  | .stamp s i a => t.blk (fun u => u.toStamp s i a)

/-- WAITQ. -/
def Tray.waitq (t : Tray) (q : Nat) : Tray :=
  let r := t.take q 1
  match r.2 with
  | none => r.1
  | some f =>
    if !cmdClean f.body || 1536 ≤ numAt f.body 0x10 2 then r.1.finish q 2 0 0 false
    else if r.1.waitqMet f.body then r.1.finish q 0 0 0 false
    else { r.1 with flights := smPut r.1.flights q { f with phase := .waiting, since := r.1.u.clk.ival } }

/-- WAITAT. A time or stamp already reached ends it at once, late. -/
def Tray.waitat (t : Tray) (q : Nat) : Tray :=
  let r := t.take q 2
  match r.2 with
  | none => r.1
  | some f =>
    let mode := numAt f.body 0x10 1
    if !cmdClean f.body || (mode ≠ 1 && mode ≠ 2) then r.1.finish q 2 0 0 false
    else if mode = 2 && !r.1.slotOn (cSlot f.body) then r.1.finish q 5 0 0 false
    else if r.1.pointReached (pointOf mode (bv (numAt f.body 0x18 8)) (cSlot f.body)) then r.1.finish q 0 0 1 true
    else { r.1 with flights := smPut r.1.flights q { f with phase := .waiting, since := r.1.u.clk.ival } }

/-- The waiting command of a queue, where it is of an opcode. -/
def Tray.waits (t : Tray) (q op : Nat) : Option Flight :=
  match smGet? t.flights q with
  | some f => if f.phase == .waiting && decide (cOp f.body = op) && (!cMember f.body || f.member.isSome) then some f else none
  | none => none

/-- WAIT_SATISFIED: the condition of a waiting WAITQ or WAITAT is met. -/
def Tray.waitMet (t : Tray) (q : Nat) : Tray :=
  match t.waits q 1, t.waits q 2 with
  | some f, _ => if t.waitqMet f.body then t.finish q 0 0 0 false else t
  | none, some f =>
    let p := pointOf (numAt f.body 0x10 1) (bv (numAt f.body 0x18 8)) (cSlot f.body)
    let t := t.toPoint p
    if t.pointReached p then t.finish q 0 0 0 false else t
  | none, none => t

/-- WAITQ_TIMEOUT. -/
def Tray.waitqTimeout (t : Tray) (q : Nat) : Tray :=
  match t.waits q 1 with
  | none => t
  | some f =>
    let us := numAt f.body 0x18 4
    if us = 0 || t.waitqMet f.body then t else (t.blk (fun u => u.toIv (f.since + usIv us))).finish q 9 0 0 false

/-! ### Data commands -/

/-- COPY begins. -/
def Tray.copyGo (t : Tray) (q : Nat) : Tray :=
  let r := t.take q 0x30
  match r.2 with
  | none => r.1
  | some f => match r.1.checkCopy f.body with
    | some e => r.1.finish q e.1 e.2 0 false
    | none => r.1.setPhase q .running

/-- ZCOMP and ZDECOMP are checked (R328, R329, R331) and begin. -/
def Tray.checkZip (t : Tray) (b : List Byte) : Option Fail :=
  let n := fun (o k : Nat) => numAt b o k
  let dec := decide (cOp b = 0x41)
  let lim := n 0x2C 4
  match t.checkCopy b with
  | some e => some e
  | none =>
    if 2 ^ 32 ≤ n 0x20 8 || lim = 0 || (dec && n 0x29 1 ≠ 0) || 2 < n 0x29 1 then some (2, 0)
    else if lim % 4 ≠ 0 then some (4, 0)
    else if t.spaceLen (n 0x28 1 % 16) < n 0x18 8 + lim then some (3, 0)
    else if (List.range 32).all (fun i => t.u.rb R.CMPT_EFAIL i) then some (7, 0x0509)
    else none

/-- The engines that a compression command may be given to: in service, and with no command (R333). -/
def Tray.freeEngines (t : Tray) : List Nat :=
  (List.range 32).filter (fun i => !t.u.rb R.CMPT_EFAIL i && !t.flights.any (fun e => e.2.engine = some i && e.2.phase == .running))

/-- A compression command is given to one engine and runs on it to its end (R333): the lowest free one (DESIGN CHOICE, log 124). -/
def Tray.zipGo (t : Tray) (q op : Nat) : Tray :=
  let r := t.take q op
  match r.2 with
  | none => r.1
  | some f => match r.1.checkZip f.body with
    | some e => r.1.finish q e.1 e.2 0 false
    | none => { r.1 with flights := smPut r.1.flights q { f with phase := .running, engine := r.1.freeEngines.head? } }

/-- "compression verify failed" (R337). -/
def rkVerifyFailedT : RecKind := rk 0x0F 0x0001 3 .always

/-- An engine's verification failed (R329): it is out of service. -/
def Tray.verifyFailed (t : Tray) (engine blk set : Nat) : Tray :=
  t.blk (fun u => (((u.setRb R.CMPT_EFAIL engine true).bump R.CMPT_VFAIL).cause 0x0F 0 0).report rkVerifyFailedT .dflt
    (pay [fd 0x24 1 engine, fd 0x28 4 blk, fd 0x2C 1 set]))

/-- A ZCOMP or ZDECOMP ends on an engine (R326 to R333). -/
def Tray.zipDone (t : Tray) (q engine : Nat) (b : List Byte) : Tray :=
  let n := fun (o k : Nat) => numAt b o k
  let dec := decide (cOp b = 0x41)
  let lim := n 0x2C 4
  let src := n 0x28 1 / 16
  let r := t.firstPoison src (n 0x10 8) (n 0x20 8)
  let t := r.1
  let input := t.spaceBytes src (n 0x10 8) (n 0x20 8)
  let inj := !dec && t.u.armed 0x0F 0 0 && decide (t.u.injParam 0x0F 0 % 32 = engine)
  let t := if inj then t.blk (fun u => u.fire 0x0F 0 0 false) else t
  let z := if dec then zDecompress lim (8 * 2 ^ 20) (match r.2 with | some p => input.take p | none => input)
    else zCompress (n 0x29 1) lim r.2 (if inj then some 0 else none) input
  let poisoned := dec && r.2.isSome && (z.status = 0 && !z.stopped || decide (z.reason = 0x0506))
  let t := (t.spaceWrite (n 0x28 1 % 16) (n 0x18 8) (z.bytes t.u.fresh)).blk Blk.freshen
  let t := t.blk (fun u =>
    let u := (u.count64 R.CMPT_IN_L R.CMPT_IN_H z.consumed).count64 R.CMPT_OUT_L R.CMPT_OUT_H z.out.length
    let u := if z.stopped && z.status ≠ 8 then u.bump R.CMPT_STOPS else u
    if z.status = 7 && decide (0x0501 ≤ z.reason) && decide (z.reason ≤ 0x0506) && !poisoned then (u.bump R.CMPT_FMTERR).cause 0x0F 0 1 else u)
  let t := match z.vfail with | some k => t.verifyFailed engine k (n 0x29 1) | none => t
  let res := if z.vfail.isSome then 0 else z.consumed * 2 ^ 32 + z.out.length
  if poisoned then t.finish q 8 0 res false else t.finish q z.status (if z.status = 7 then z.reason else 0) res false

/-- DATA_COMMAND_COMPLETE: the data command that runs on a queue's engine ends; `engine` names the compression engine, and one that does not run the
queue's command ends nothing (R333). A transfer of host memory waits while the function is not bus master (R372). -/
def Tray.dataDone (t : Tray) (q engine : Nat) : Tray :=
  match smGet? t.flights q with
  | none => t
  | some f =>
    if !(f.phase == .running) || !t.canMaster f.body then t
    else match cOp f.body with
      | 0x30 => t.copyDone q f.body
      | 0x40 => if f.engine = some (engine % 32) then t.zipDone q (engine % 32) f.body else t
      | 0x41 => if f.engine = some (engine % 32) then t.zipDone q (engine % 32) f.body else t
      | _ => t

/-- MSEND. -/
def Tray.msend (t : Tray) (q : Nat) : Tray :=
  let r := t.take q 0x50
  match r.2 with
  | none => r.1
  | some f => match r.1.checkSend f.body with
    | some e => r.1.finish q e.1 e.2 0 false
    | none => r.1.msendGo q f

/-! ### Stopped queues (R214) -/

/-- QUEUE_RESUME. -/
def Tray.queueResume (t : Tray) (q : Nat) : Tray := if (t.queue q).stopped then t.setQueue q { t.queue q with stopped := false } else t

/-- Flush: the commands that the ring holds end one after another with status 11; `n` bounds them. -/
def Tray.flushN (t : Tray) (q : Nat) : Nat → Tray
  | 0 => t
  | n + 1 =>
    let c := t.queue q
    if c.held = 0 then t
    else
      let b := t.nextBody q
      let t := t.setQueue q { c with ci := (c.ci + 1) % 65536, full := false }
      let closes := match smGet? t.txs q with
        | some x => (cOp b = 3 || cOp b = 4) && decide (cTxid b = x.txid)
        | none => false
      let t := if closes then t.dropTx q else t
      (t.endCmd ⟨q, b, 11, 0, 0, false, false, false⟩).flushN q n

/-- QUEUE_FLUSH: the commands that a stopped queue holds end with status 11, a transaction they reach aborts, and the queue continues. -/
def Tray.queueFlush (t : Tray) (q : Nat) : Tray :=
  if (t.queue q).stopped then
    let t := (t.doom q).flushN q 1024
    t.setQueue q { t.queue q with stopped := false }
  else t

/-- A write of QCFG of a command queue: one whose class or source changes while it holds commands stops (R213, R214). -/
def Tray.queueCfg (t : Tray) (q : Nat) (w : W32) : Tray :=
  let k := qcfgKey q
  let old := t.u.reg k
  let t := t.blk (fun u => u.setReg k (w &&& 0xF73001FF#32))
  let t := { t with queues := smPut t.queues q (t.queue q) }
  if (fld old 24 3 ≠ fld w 24 3 || fld old 28 2 ≠ fld w 28 2) && (t.queue q).held ≠ 0 then t.stopQueue q else t

/-! ### Unit reset of a class (R219) -/

/-- A completion record that waits for its place, of the class: the command in flight on its queue, or a member of a transaction (R219). -/
def Tray.waitsIn (t : Tray) (cls : Nat) (d : Done) : Bool :=
  if d.main then (match smGet? t.flights d.q with | some f => decide (f.cls = cls) | none => false) else decide (t.qClass d.q = cls)

/-- The completion records of a class that wait for a place. -/
def Tray.waitingOf (t : Tray) (cls : Nat) : Nat :=
  (t.evqs.map (fun e => (e.2.waiting.filter (fun h => match h with | .completion d => t.waitsIn cls d | _ => false)).length)).sum

/-- They are written with from journal set (R219). -/
def Tray.fromJournal (t : Tray) (cls : Nat) : Tray :=
  { t with evqs := smMap (fun (e : EvQ) => { e with waiting := e.waiting.map (fun (h : HeldRec) => match h with
      | .completion d => if t.waitsIn cls d then .completion { d with jrn := true } else h
      | x => x) }) t.evqs }

/-- What journal processing does with one command of the class in flight (R219): counted are those that complete from the journal, a data command that
runs again among them, and those that end with status 12, as one does whose journal entry has a poisoned word (R386). -/
def Tray.journalOne (acc : Tray × Nat × Nat) (q : Nat) : Tray × Nat × Nat :=
  let rd := acc.1.readBytes 2 (journalAddr q) 256
  let t := rd.1
  match smGet? t.flights q with
  | none => (t, acc.2)
  | some f =>
    let op := cOp f.body
    let data := [0x30, 0x40, 0x41, 0x50].contains op
    let ends := (t.finish q 12 0 0 false, acc.2.1, acc.2.2 + 1)
    if f.phase == .ended then (t, acc.2)
    else if rd.2 then ends
    else if data then
      if f.jrn then ends
      else ({ t with flights := smPut t.flights q { f with jrn := true, phase := if op = 0x50 then .started else f.phase } }, acc.2.1 + 1, acc.2.2)
    else if f.phase == .started && op ≠ 1 && op ≠ 2 then ends
    else if op = 0x11 && f.phase == .running then
      let t := { t with models := smMod t.models (numAt f.body 0x20 2) (fun (m : Model) => { m with unloading := none }) }
      (t.finish q 12 0 0 false, acc.2.1, acc.2.2 + 1)
    else (t, acc.2)

/-- The event queues that the command queues of a class are bound to (R219). -/
def Tray.boundTo (t : Tray) (cls : Nat) : List Nat :=
  (((List.range 1536).filter (fun q => t.qClass q = cls)).map (fun q => t.qf q 0 9)).dedup

/-- CLASS_UNIT_RESET: the class's journal is processed, the packages of the handle table are checked and loaded again (R257), and every event queue that a queue
of the class is bound to receives a recovery marker (R315), whose `last` is of before the reset. `pass` tells which compression engines pass their self-test
(R329). -/
def Tray.classReset (t : Tray) (cls : Nat) (pass : W32) : Tray :=
  let t := t.relayZero.blk (fun u => (u.cause 0x20 0 1).setN R.BLK_RSTCAUSE (2 ^ 31))
  let js := (t.boundTo cls).map (fun j => (j, (t.evq j).last))
  let fromj := t.waitingOf cls
  let qs := (t.flights.filter (fun e => e.2.cls = cls)).map (·.1)
  let r := qs.foldl Tray.journalOne (t.fromJournal cls, fromj, 0)
  let t := r.1
  let t := if cls = 3 then t.blk (fun u => (u.modReg R.CMPT_EFAIL (fun v => v &&& ~~~pass)).disarmPage 0x0F 0) else t
  let t := js.foldl (fun (v : Tray) j => v.held j.1 (.marker (markerPay 2 cls 0 r.2.1 r.2.2 j.2))) t
  t.restoreModels

end Sys2Proof.Machine
end

