-- ==== Sys2Proof/Machine/TrayStart.lean ====
section
/-!
DEFINITION. Continuity descriptors, what a start does when it commits, and deferred members (spec/16_job_continuity.md, R338 to R350, R362).
-/

namespace Sys2Proof.Machine

/-! ### Descriptors at a node -/

/-- The parts of a descriptor (R342). -/
def dParts (d : List Byte) : List (List Byte) :=
  (List.range (ceilDiv d.length 8128)).map (fun i => (d.drop (8128 * i)).take 8128)

def Tray.desc (t : Tray) (job bseq : W32) : Option Desc := t.descs.find? (fun x => x.job = job && decide (x.bseq = bseq))
def Tray.modDesc (t : Tray) (job bseq : W32) (f : Desc → Desc) : Tray :=
  { t with descs := t.descs.map (fun (x : Desc) => if x.job = job && decide (x.bseq = bseq) then f x else x) }

/-- The start or replay descriptor of a transaction. -/
def Tray.startDesc (t : Tray) (job txid : W32) : Option Desc :=
  t.descs.find? (fun x => x.job = job && decide (x.txid = txid) && (x.kind = 0 || x.kind = 4) && x.complete)

def Tray.jslot (t : Tray) (s : Nat) : JSlot := smGet t.job s JSlot.reset
def Tray.setJslot (t : Tray) (s : Nat) (j : JSlot) : Tray := { t with job := smSet t.job s j JSlot.reset }

/-! ### The tree below a node -/

/-- The links of child T builds the tree table has. -/
def Tray.childTrays (t : Tray) : List Nat :=
  (t.u.tree.filter (fun e => 2 ≤ e.1 && bit e.2.attr 31 && !bit e.2.attr 29)).map (·.1)

def Tray.node (t : Tray) : W32 := t.u.reg R.PAN_NODE

/-- A T build is involved in a start (R342): the leaf table names it, or a child of it. -/
def Tray.involved (t : Tray) (d : List Byte) : Bool :=
  let names := (dLeaves d).flatMap (fun e => [e.parent, e.alt])
  names.contains t.node || t.childTrays.any (fun l => names.contains (t.u.treeAt l).node)

/-! ### Validation with deferral (R341, R349) -/

/-- Failures for which a member is deferred (R349). -/
def deferrable (f : Fail) : Bool := f.1 = 7 && [0x0204, 0x0306, 0x0206, 0x0302, 0x0209].contains f.2

/-- A member acts on what a deferred one makes: the package of an MLOAD, the pan set of a PDEFINE, or the binding of an MBIND that is deferred with its
MLOAD. It is deferred with it (DEDUCED, log 126). -/
def needsDeferred (ds : List (List Byte)) (m : List Byte) : Bool :=
  ds.any (fun d =>
    (((cOp d = 0x10 && [0x11, 0x12, 0x13].contains (cOp m)) || (cOp d = 0x12 && cOp m = 0x13)) && numAt d 0x20 2 = numAt m 0x20 2) ||
      (cOp d = 0x20 && [0x21, 0x22].contains (cOp m) && numAt d 0x1C 2 = numAt m 0x1C 2))

/-- The state once committed teardowns have released what they are releasing. -/
def Tray.released (t : Tray) : Tray :=
  let ps := t.psets.filter (fun e => e.2.freeing.isNone)
  let ms := t.models.filter (fun e => e.2.unloading.isNone)
  { t with psets := ps, models := ms,
           mct := t.mct.filter (fun e => if e.2.model then (smGet? ms e.2.id).isSome else (smGet? ps e.2.id).isSome) }

/-- Validate members in order: `v` is the state that the earlier ones leave, `w` the same once releases are done; answered are the failure, if any, and
the members deferred. A member that needs a deferred one is deferred with it. -/
def checkDefer (role : Nat) (v w : Tray) : List (List Byte) → List (List Byte) → Option Fail × List (List Byte)
  | [], ds => (none, ds)
  | m :: r, ds =>
    if notMember (cOp m) then (some (13, 0), [])
    else match v.checkCmd m with
      | none => checkDefer role (v.stageOn [m]) (w.stageOn [m]) r ds
      | some f =>
        if (role = 1 || role = 2) && (deferrable f || (f.1 = 5 && needsDeferred ds m)) && (w.checkCmd m).isNone then checkDefer role v (w.stageOn [m]) r (ds ++ [m])
        else (some f, [])

/-- A member SEPOCH for a slot, first of a replay's members (R362). -/
def epochMember (slot : Nat) (e : Byte) : List Byte := layout 64 [fd 0 1 0x62, fd 2 1 slot, fd 0x14 1 e.toNat]

/-- The members that a node applies for a start or replay: those of its level, behind SEPOCH in a replay. -/
def Tray.startMembers (t : Tray) (d : List Byte) : List (List Byte) :=
  let ms := t.ofLevel (dMembers d)
  match dType d, t.slotOfJob (dJob d) with
  | 4, some s => epochMember s (dEpoch d) :: ms
  | _, _ => ms

/-- A level-1 node has an enabled ingest ring for each leaf that names it (R341). -/
def Tray.ringsOk (t : Tray) (d : List Byte) : Bool :=
  t.u.idn.role ≠ 1 || (dLeaves d).all (fun e => e.parent ≠ t.node || (t.ringOf 0 (dLslot d) e.leaf).isSome)

/-- A node attaches a leaf of a descriptor as the alternate that has admitted it (R346). -/
def Tray.adopts (t : Tray) (e : LeafRow) : Bool :=
  e.parent ≠ t.node && decide (e.alt = t.node) && (match t.leafLink e.leaf with | some l => (t.u.link l).admitted | none => false)

/-- A node attaches a leaf of a descriptor: as its parent, or as the alternate that has admitted it. -/
def Tray.attaches (t : Tray) (e : LeafRow) : Bool := decide (e.parent = t.node) || t.adopts e

/-- Leaf slots of a leaf of this node that starts and replays of other jobs hold (R27, R339, R362). -/
def Tray.leafSlotsHeld (t : Tray) (job leaf : W32) : List Nat :=
  ((t.descs.filter (fun x => (x.kind = 0 || x.kind = 4) && x.applied && decide (x.job ≠ job) &&
    (dLeaves x.bytes).any (fun e => decide (e.leaf = leaf) && t.attaches e))).map (fun x => dLslot x.bytes)).dedup

/-- No leaf of this node would need a third slot (R27). -/
def Tray.leafSlotsOk (t : Tray) (d : List Byte) : Bool :=
  t.u.idn.role ≠ 1 || (dLeaves d).all (fun e => !t.attaches e || decide ((t.leafSlotsHeld (dJob d) e.leaf).length < 2))

/-- Validate a start at a node: whether its own members pass, and the deferred ones. A third slot in a leaf is refused as "no job slot" (R27). -/
def Tray.validateStart (t : Tray) (d : List Byte) : Option Fail × List (List Byte) :=
  let v := t.stageOn (t.reserved none none)
  if !t.ringsOk d then (some (7, 0x0601), [])
  else if !t.leafSlotsOk d then (some (7, 0x0201), [])
  else if dMode d = 2 && (t.slotOfJob (dJob d)).isNone then (some (5, 0), [])
  else checkDefer t.u.idn.role v v.released (t.startMembers d) []

/-! ### Attaching leaves (R340, R346, R362) -/

/-- A start message of a sub that names a leaf. -/
def leafMsg (sub flags : Nat) (x : Desc) (d : List Byte) (leaf : W32) : StartMsg :=
  ⟨bv sub, bv flags, 0, 0, x.job, x.bseq, x.txid, bv (dLslot d), dEpoch d, 0, leaf, if sub = 5 then dStep d else 0, []⟩

/-- A leaf was a member of the job before: an earlier start or replay of it that applied here lists it. -/
def Tray.wasMember (t : Tray) (x : Desc) (leaf : W32) : Bool :=
  t.descs.any (fun y => y.job = x.job && y.bseq ≠ x.bseq && y.applied && (y.kind = 0 || y.kind = 4) && (dLeaves y.bytes).any (fun e => e.leaf = leaf))

/-- Leaf attach and the first credit to one leaf, or a replay arm to a member that stays. `cached` tells that it comes from the alternate's start
cache. A leaf without a link cannot acknowledge. -/
def Tray.attachLeaf (t : Tray) (x : Desc) (leaf : W32) (cached : Bool) : Tray :=
  let d := x.bytes
  let waits := fun (v : Tray) => v.modDesc x.job x.bseq (fun y => { y with leaves := smPut y.leaves leaf.toNat ⟨v.u.clk.ival, none, false⟩ })
  match t.leafLink leaf with
  | none => waits t
  | some l =>
    let f := if cached then 2 else 0
    if x.kind = 4 && t.wasMember x leaf then t.blk (fun u => u.sendCtl l 6 (leafMsg 5 f x d leaf).rest)
    else
      let slot := (t.slotOfJob x.job).getD 0
      let c := t.u.step slot
      let notice := decide (c.srcP = leaf) || decide (c.srcS = leaf)
      let t := t.blk (fun u => u.sendCtl l 6 (leafMsg 2 (f + 8 * notice.toNat) x d leaf).rest)
      let t := waits t
      match t.ringOf 0 (dLslot d) leaf with
      | none => t
      | some r =>
        let t := t.setRing r { t.ring r with lastSeq := none, gone := [], freed := 0, lowFor := 0, slot := some slot,
                                             level := t.u.rf (inst R.ING_DEC_MIN slot) 0 2 }
        t.sendCredit r (t.ringPlaces r)

/-- The leaves that a level-1 node attaches: those that name it as parent, and adopted ones that name it as alternate and are admitted. -/
def Tray.attachAll (t : Tray) (x : Desc) : Tray :=
  if t.u.idn.role ≠ 1 then t
  else (dLeaves x.bytes).foldl (fun (v : Tray) e =>
    if e.parent = v.node then v.attachLeaf x e.leaf false
    else if v.adopts e then v.attachLeaf x e.leaf true
    else v) t

/-! ### Applying members -/

/-- A START or CONTAIN that is a member begins as its transaction applies (R320): it runs as a command in flight under a key of its own, and ends for the
queue of its transaction. -/
def Tray.beginMember (t : Tray) (q : Nat) (m : List Byte) : Tray :=
  let k := max memberKey0 ((t.flights.map (fun e => e.1 + 1)).foldl max 0)
  { t with flights := smPut t.flights k ⟨4, m, .started, false, t.u.clk.ival, 0, some q, none⟩ }

/-- Members take effect in order in one cycle (R221): each ends with its result, or ends later where it waits. Those of other levels have no
effect here. -/
def Tray.applyMembers (t : Tray) (q : Nat) (ms : List (List Byte)) (since : Since) (late levels : Bool) : Tray :=
  ms.foldl (fun (v : Tray) m =>
    if levels && !levelIn m v.u.idn.role then v.endMember q m 0 0 late
    else if cOp m = 0x51 || cOp m = 0x52 then v.beginMember q m
    else
      let r := v.applyCmd m since ⟨q, m, 0, 0, 0, late, false, false⟩
      match r.2 with
      | some x => r.1.endMember q m 0 x late
      | none => r.1) (t.countCfg (ms.filter (fun m => !levels || levelIn m t.u.idn.role)))

/-- The members of a replayed commit that are not in effect yet: those that validate, in order (R226). -/
def Tray.stillDue (t : Tray) : List (List Byte) → List (List Byte)
  | [] => []
  | m :: r => if levelIn m t.u.idn.role && (notMember (cOp m) || (t.checkCmd m).isSome) then t.stillDue r else m :: (t.stageOn [m]).stillDue r

/-- A start or replay applies at a node: its members but the deferred ones, the leaves, and the release deadline (R339 to R342, R350, R351). `held` has the
members with what was validated of them (R227); of a start that is committed again, `again`, only those apply that are not in effect (R226). -/
def Tray.applyStart (t : Tray) (x : Desc) (held : List (List Byte)) (again : Bool) (since : Since) (late : Bool) : Tray :=
  let d := x.bytes
  let ms := ((t.startMembers d).filter (fun m => !x.deferred.contains m)).map (fun m => (held.find? (fun h => h.take 64 = m)).getD m)
  let ms := if again then t.stillDue ms else ms
  let t := t.applyMembers noQueue ms since late false
  let due := if x.kind = 0 && !x.deferred.isEmpty then some (t.u.clk.ival + msIv (dDeadline d)) else none
  let t := t.modDesc x.job x.bseq (fun y => { y with applied := true, relAt := due })
  let t := match t.slotOfJob x.job with
    | some s => t.setJslot s { t.jslot s with bseq := x.bseq }
    | none => t
  match t.desc x.job x.bseq with
  | some y => t.attachAll y
  | none => t

/-- "deferred members applied" (R364). -/
def rkDeferredApplied : RecKind := rk 0x2B 0x0005 1 .bySeverity

/-- The deferred members of a slot's start apply at its first step mark after the last claimed resource is released (R350). -/
def Tray.applyDeferred (t : Tray) (slot : Nat) : Tray :=
  t.descs.foldl (fun (v : Tray) x =>
    if x.kind ≠ 1 && x.applied && !x.deferred.isEmpty && v.slotOfJob x.job = some slot && (v.checkAll x.deferred).isNone then
      let k := (v.u.step slot).idx
      let v := v.applyMembers noQueue x.deferred (.step k 0) false false
      let v := v.modDesc x.job x.bseq (fun y => { y with deferred := [], relAt := none })
      v.blk (fun u => u.report rkDeferredApplied (.slot slot) (pay [fd 0x24 4 x.job.toNat, fd 0x28 4 k.toNat]))
    else v) t

/-- "release forced" (R364). -/
def rkReleaseForced : RecKind := rk 0x2B 0x0006 2 .always

/-- Harvests of a pan set that are not acknowledged, those that its closed cuts will make among them. -/
def Tray.unackedOf (t : Tray) (p : Nat) : Nat :=
  (match t.pset p with | some s => s.cuts.length | none => 0) + (t.staged.filter (fun h => h.pset = p && !h.acked)).length

/-- The resources that the deferred members of a start still wait for: what they fail with, and the slice regions of those that lack space. -/
def Tray.claims (t : Tray) (ds : List (List Byte)) : List Nat × List (Nat × Nat × Nat) :=
  let fs := ds.filterMap (fun m => (t.checkCmd m).map (fun f => (f.2, m)))
  (fs.map (·.1), fs.flatMap (fun e =>
    if e.1 = 0x0204 then panRegions (t.cmdDesc e.2)
    else if e.1 = 0x0306 then
      let p := t.pkg (numAt e.2 0x10 8)
      p.regions ++ p.gaths.map (fun (c : Nat) => (c, 0, 4096))
    else []))

/-- What is being released is claimed (R349): it takes slice lines that a deferred member needs, or holds multicast groups or a pan set while one lacks
those. -/
def claimed (c : List Nat × List (Nat × Nat × Nat)) (pset : Bool) (mine : List (Nat × Nat × Nat)) : Bool :=
  mine.any (fun r => c.2.any (regionsMeet r)) || c.1.contains 0x0206 || c.1.contains 0x0302 || (pset && c.1.contains 0x0209)

/-- RELEASE_DEADLINE: the deadline of a start passes with a claimed resource still held: the PFREEs that hold one end with their harvests discarded, and so
do the MUNLOADs (R351). -/
def Tray.releaseDeadline (t : Tray) (job : W32) : Tray :=
  match t.descs.find? (fun x => x.job = job && x.relAt.isSome) with
  | none => t
  | some x =>
    let t := t.blk (fun u => u.toIv (x.relAt.getD 0))
    let t := t.modDesc x.job x.bseq (fun y => { y with relAt := none, forced := true })
    if (t.checkAll x.deferred).isNone then t
    else
      let c := t.claims x.deferred
      let free := (t.psets.filter (fun e => e.2.freeing.isSome && claimed c true (panRegions e.2.desc))).map (·.1)
      let gone := (t.models.filter (fun e => e.2.unloading.isSome &&
        claimed c false (e.2.pkg.regions ++ e.2.pkg.gaths.map (fun (c : Nat) => (c, 0, 4096))))).map (·.1)
      let t := gone.foldl (fun (v : Tray) h => v.forceUnload h) t
      let slots := (free.filterMap (fun p => (t.pset p).map Pset.slot)).dedup
      let t := match t.slotOfJob job with
        | some s => t.setJslot s { t.jslot s with forced := true }
        | none => t
      slots.foldl (fun (v : Tray) s =>
        let ps := free.filter (fun p => (v.pset p).map Pset.slot = some s)
        let old := match ps.head?.bind v.pset with | some y => pJob y.desc | none => 0
        let n := (ps.map v.unackedOf).sum
        let v := ps.foldl (fun (v : Tray) p =>
          let v := { v with staged := v.staged.filter (fun h => h.pset ≠ p), psets := smMod v.psets p (fun (y : Pset) => { y with cuts := [] }) }
          v.freeCheck p) v
        v.blk (fun u => (u.cause 0x2B 0 1).report rkReleaseForced .dflt (pay [fd 0x24 4 old.toNat, fd 0x28 4 n]))) t

end Sys2Proof.Machine
end

