-- ==== Sys2Proof/Machine/TxPod.lean ====
section
/-!
DEFINITION. Closing transactions, commit points, and pod-wide transactions (spec/10_command_queues_transactions.md, R220 to R226; spec/16_job_continuity.md, R346,
R347).
-/

namespace Sys2Proof.Machine

/-! ### Nodes of pod-wide transactions -/

def Tray.txNode (t : Tray) (job txid : W32) : Option TxNode := t.nodes.find? (fun n => n.job = job && decide (n.txid = txid))
def Tray.modNode (t : Tray) (job txid : W32) (f : TxNode → TxNode) : Tray :=
  { t with nodes := t.nodes.map (fun (n : TxNode) => if n.job = job && decide (n.txid = txid) then f n else n) }
def Tray.dropNode (t : Tray) (job txid : W32) : Tray :=
  ({ t with nodes := t.nodes.filter (fun n => !(n.job = job && decide (n.txid = txid))) }).txFreed

/-- A node that is done with a transaction forgets it: it has applied, or aborted, and every child it told to commit has acknowledged (R225). -/
def Tray.nodeCheck (t : Tray) (job txid : W32) : Tray :=
  match t.txNode job txid with
  | some n => if n.decided = some true && n.applied && n.unacked.isEmpty then t.dropNode job txid else t
  | none => t

/-- A transaction message on a link (R223). -/
def Tray.sendTx (t : Tray) (link : Nat) (m : TxMsg) : Tray := t.blk (fun u => u.sendCtl link 9 m.rest)

/-! ### Commit points (R221, R222) -/

/-- "start committed" and "start aborted" (R364). -/
def rkStartCommitted : RecKind := rk 0x2B 0x0001 1 .always
def rkStartAborted : RecKind := rk 0x2B 0x0002 2 .always

/-- A decided transaction takes effect: every member in one cycle, then its close ends, or the node acknowledges its commit. -/
def Tray.applyDue (t : Tray) (d : DueTx) (late : Bool) : Tray :=
  let since := d.point.since
  let again := (d.key.bind (fun k => t.txNode k.1 k.2)).any TxNode.replay
  let t := match d.key.bind (fun k => t.startDesc k.1 k.2) with
    | some x => t.applyStart x d.members again since late
    | none => t.applyMembers (d.queue.getD noQueue) (if again then t.stillDue d.members else d.members) since late d.levels
  match d.key with
  | none => match d.queue with | some q => t.finish q 0 0 1 late | none => t
  | some (job, txid) =>
    let n := t.txNode job txid
    let count := match n with | some n => n.count | none => 0
    let t := t.modNode job txid (fun n => { n with applied := true })
    let t := match d.queue with | some q => t.finish q 0 0 count late | none => t
    let t := match n with
      | some n => if n.queue.isNone then t.sendTx n.parent (TxMsg.plain 4 job txid) else t
      | none => t
    t.nodeCheck job txid

/-- A commit point lies before another of the same time base (R316). -/
def Point.before (a b : Point) : Bool :=
  match a, b with
  | .podTime x, .podTime y => x ≠ y && reached64 y x
  | .stamp s i x, .stamp r j y => s = r && stampBefore (i, x) (j, y)
  | _, _ => false

/-- The transaction due that applies next: one whose commit point is reached, and none before it on its time base; of those, the one decided first. -/
def Tray.nextDue (t : Tray) : Option Nat :=
  let reached := t.due.filter (fun d => t.pointReached d.point)
  match t.due.findIdx? (fun d => reached.contains d && !reached.any (fun e => e.point.before d.point)) with
  | some i => some i
  | none => t.due.findIdx? (fun d => t.pointReached d.point)

/-- The transactions due whose commit points are reached apply, in the order of their points (P6); `n` bounds them. Transactions due in one cycle apply in the
order of their decision (R221). -/
def Tray.runDueN (t : Tray) : Nat → Tray
  | 0 => t
  | n + 1 =>
    match t.nextDue with
    | none => t
    | some i =>
      match t.due[i]? with
      | none => t
      | some d => (({ t with due := t.due.eraseIdx i }).applyDue d false).runDueN n

/-- COMMIT_POINT: time moves to the commit point of the `i`-th transaction due, and every transaction whose point is reached applies. -/
def Tray.commitPoint (t : Tray) (i : Nat) : Tray :=
  match t.due[i]? with
  | none => t
  | some d => (t.toPoint d.point).runDueN t.due.length

/-- A pending action on TB0 of the T build (R38): one that software queued, a WAITAT of pod time, or a commit at a pod time. -/
inductive Pending where
  | action (a : TimedAction)
  | wait (q : Nat)
  | commit (d : DueTx)
deriving DecidableEq, Repr

/-- Put the actions in timestamp order, equal times as they stand (R37, R38). -/
def byTime (l : List (W64 × Pending)) : List (W64 × Pending) := l.mergeSort (fun a b => reached64 b.1 a.1)

/-- The pending TB0 actions that a step or load of TB0 has passed, in timestamp order: it was before them in `old` and has reached them (R38). -/
def Tray.passed (t old : Tray) : List (W64 × Pending) :=
  let new := fun (x : W64) => t.pointReached (.podTime x) && !old.pointReached (.podTime x)
  byTime (t.u.passedActions.map (fun a => (a.time, .action a)) ++
    (t.flights.filterMap (fun e => (t.waits e.1 2).bind (fun f =>
      let x : W64 := bv (numAt f.body 0x18 8)
      if numAt f.body 0x10 1 = 1 && new x then some (x, .wait e.1) else none))) ++
    (t.due.filterMap (fun d => match d.point with | .podTime x => if new x then some (x, .commit d) else none | _ => none)))

/-- A passed action fires, late (R38). -/
def Tray.fireLate (t : Tray) : Pending → Tray
  | .action a => t.blk (fun u => u.firePassed a)
  | .wait q => t.finish q 0 0 1 true
  | .commit d => ({ t with due := t.due.erase d }).applyDue d true

/-! ### Step stamps that a slot's clock has passed (R51) -/

/-- What waits for a stamp of a slot's clock: a commit, a WAITAT, or the angle deadline of a pan set's next declared cut. -/
inductive StampAct where
  | commit (d : DueTx)
  | wait (q : Nat)
  | cut (p : Nat)
deriving DecidableEq, Repr

/-- What the clock of slot `s` has reached and what has not fired yet, by stamp. -/
def Tray.stampActs (t : Tray) (s : Nat) : List (Stamp × StampAct) :=
  (t.due.filterMap (fun d => match d.point with
    | .stamp x i a => if x = s && t.u.stampReached s i a then some ((i, a), StampAct.commit d) else none
    | _ => none)) ++
  (t.flights.filterMap (fun e => (t.waits e.1 2).bind (fun f =>
    match pointOf (numAt f.body 0x10 1) (bv (numAt f.body 0x18 8)) (cSlot f.body) with
    | .stamp x i a => if x = s && t.u.stampReached s i a then some ((i, a), StampAct.wait e.1) else none
    | _ => none))) ++
  (t.psets.filterMap (fun e =>
    if e.2.slot = s && (t.u.step s).haveMark && !e.2.fresh then
      let p := t.skipJump e.2
      let k := cutStamp p.desc p.next
      if t.u.stampReached s k.1 k.2 then some (k, StampAct.cut e.1) else none
    else none))

def Tray.fireStamp (t : Tray) : StampAct → Tray
  | .commit d => ({ t with due := t.due.erase d }).applyDue d false
  | .wait q => t.finish q 0 0 0 false
  | .cut p => t.angleDeadline p

/-- What slot `s` has passed fires in the order of steps and angles (R51); at one stamp, commits, then waits, then cuts (DESIGN CHOICE, log 107). `n`
bounds how much fires. -/
def Tray.fireStamps (t : Tray) (s : Nat) : Nat → Tray
  | 0 => t
  | n + 1 =>
    match t.stampActs s with
    | [] => t
    | e :: es => (t.fireStamp (es.foldl (fun (b : Stamp × StampAct) x => if stampBefore x.1 b.1 then x else b) e).2).fireStamps s n

/-- Far more than can be passed at once. -/
def stampBound : Nat := 65536

/-- TB0 takes a new value (R32, R38): what it passed fires in timestamp order, launch times are late and the gates follow; a step stamp that the slot
clocks' angle has reached with it is reached in that cycle. -/
def Tray.setTb0 (t : Tray) (v : W96) : Tray :=
  let n := t.blk (fun u => u.moveTb0 v)
  let n := (n.passed t).foldl (fun (x : Tray) e => x.fireLate e.2) n
  let n := n.blk (fun u => u.egressAfterJump t.u.clk.ns)
  (List.range 64).foldl (fun (x : Tray) s => x.fireStamps s stampBound) n

/-- A transaction is decided: it applies now where its point is reached already, late unless it is immediate, or it waits. -/
def Tray.enact (t : Tray) (d : DueTx) : Tray :=
  if t.pointReached d.point then t.applyDue d (!(d.point == .immediate)) else { t with due := t.due ++ [d] }

/-! ### Closing (R220, R221) -/

/-- A close fails: its transaction aborts. -/
def Tray.closeFails (t : Tray) (q status : Nat) : Tray := ((t.doom q).dropTx q).finish q status 0 0 false

/-- The children of a node in a transaction: every child T build, but those that a start has orphaned. -/
def Tray.txKids (t : Tray) (job txid : W32) : List Nat :=
  match t.startDesc job txid with
  | some x => t.childTrays.filter (fun l => match smGet? x.hops l with | some h => !h.orphan | none => true)
  | none => t.childTrays

/-- The prepare parts of a transaction: at most 127 members a part. -/
def prepareParts (n : TxNode) (replay : Bool) : List TxMsg :=
  let ms := n.members.map (fun m => m.take 64)
  let np := max 1 (ceilDiv ms.length 127)
  (List.range np).map (fun i =>
    let part := (ms.drop (127 * i)).take 127
    ⟨0, bv (replay.toNat + 2 * n.mode + 8 * n.quorum.toNat), 0, n.txid, n.job, n.dead, n.point, bv n.need, bv i, bv np, bv part.length, part.flatten⟩)

/-- A node of a transaction with nothing received yet. -/
def newNode (job txid : W32) (mode : Nat) (quorum : Bool) (need : Nat) (dead point : W64) (parent parts : Nat) : TxNode :=
  { job := job, txid := txid, queue := none, parent := parent, parts := parts, got := [], mode := mode, quorum := quorum, need := need, dead := dead,
    point := point, votes := [], own := false, inv := false, slot := none, voted := false, yes := false, count := 0, decided := none,
    copyWait := false, applied := false, unacked := [], doubt := false, replay := false, start := false }

/-- TXCLOSE: it fixes the commit point of its queue's transaction, which is decided at once where it is local, and prepared over the tree where it is
pod-wide (R221, R224). -/
def Tray.txclose (t : Tray) (q : Nat) : Tray :=
  match t.begun q 3 with
  | none => t
  | some f =>
    let b := f.body
    match smGet? t.txs q with
    | none => if cmdClean b then t.finish q 5 0 0 false else t.finish q 2 0 0 false
    | some x =>
      let mode := numAt b 0x10 1
      let scope := numAt b 0x11 1
      let v := if numAt b 0x14 4 = 0 then 10000 else numAt b 0x14 4
      let slot := cSlot b
      if cMember b then (t.doom q).finish q 13 0 0 false
      else if cTxid b ≠ x.txid then (t.doom q).finish q 2 0 0 false
      else if x.doomed then (t.dropTx q).finish q 10 0 0 false
      else if !cmdClean b || 2 < mode || 1 < scope || 1 < numAt b 0x12 1 || numAt b 0x24 2 ≠ x.members.length then t.closeFails q 2
      else if v ≤ 2 * t.u.rf R.ENG_HOPM 0 16 then t.closeFails q 2
      else if scope = 0 && x.members.any (fun m => numAt m 3 1 ≠ 0) then t.closeFails q 2
      else if (mode = 2 || scope = 1) && !t.slotOn slot then t.closeFails q 5
      else
        let point : W64 := bv (numAt b 0x18 8)
        let t := t.setPhase q .waiting
        let t := ({ t with txs := smDel t.txs q }).txFreed
        if scope = 0 then t.enact ⟨x.members, pointOf mode point slot, some q, none, x.txid, false⟩
        else
          let job := (t.u.step slot).job
          if (t.txNode job x.txid).isSome then (x.members.foldl (fun (w : Tray) m => w.endMember q m 10 0 false) t).finish q 10 0 0 false
          else
            let dead := t.u.clk.ns + BitVec.ofNat 64 (v * 1000)
            let n := { newNode job x.txid mode (numAt b 0x12 1 = 1) (numAt b 0x20 4) dead point 0xFFFF 1 with
              queue := some q, got := [(0, x.members)], own := true, inv := true, slot := some slot }
            let t := { t with nodes := t.nodes ++ [n] }
            t.childTrays.foldl (fun (w : Tray) l => (prepareParts n false).foldl (fun (w : Tray) m => w.sendTx l m) w) t

/-! ### Votes (R224, R346) -/

/-- The time a node votes by: D − 2M at level 1, D − M at level 2; the coordinator decides at D. -/
def Tray.voteAt (t : Tray) (n : TxNode) : W64 :=
  let m := t.u.rf R.ENG_HOPM 0 16 * 1000
  if n.queue.isSome then n.dead
  else n.dead - BitVec.ofNat 64 (if t.u.idn.role = 1 then 2 * m else if t.u.idn.role = 2 then m else 0)

/-- An orphaned child of a start that is not involved: the leaf table does not name it, and no T build stands below it (DEDUCED, log 126: a level-3 node does
not know what stands below its children, which count as involved). -/
def Tray.outside (t : Tray) (x : Desc) (l : Nat) : Bool :=
  t.u.idn.role = 2 && (dLeaves x.bytes).all (fun e => e.parent ≠ (t.u.treeAt l).node && e.alt ≠ (t.u.treeAt l).node)

/-- What a child of a transaction has voted: an orphan of a start as the alternate that covers it; one that none covers has not voted, and one that is not
involved votes so (R342, R346). -/
def Tray.voteOf (t : Tray) (n : TxNode) (l : Nat) : Option Vote :=
  match t.startDesc n.job n.txid with
  | none => smGet? n.votes l
  | some x =>
    match smGet? x.hops l with
    | some h =>
      if h.orphan then (match h.covered with | some a => smGet? n.votes a | none => if t.outside x l then some ⟨2, 0⟩ else none) else smGet? n.votes l
    | none => smGet? n.votes l

/-- The orphans that are covered by an alternate whose vote is yes: each adds 1 to the count under quorum (R346). -/
def Tray.coveredYes (t : Tray) (n : TxNode) : Nat :=
  match t.startDesc n.job n.txid with
  | none => 0
  | some x => (x.hops.filter (fun e => e.2.orphan && (match e.2.covered with
      | some a => (smGet? n.votes a).map Vote.vote = some 1
      | none => false))).length

/-- Every child has voted. -/
def Tray.allVoted (t : Tray) (n : TxNode) : Bool := t.childTrays.all (fun l => (t.voteOf n l).isSome)

/-- Under all, every involved child voted yes; a vote that is missing counts as no. -/
def Tray.kidsYes (t : Tray) (n : TxNode) : Bool :=
  t.childTrays.all (fun l => match t.voteOf n l with | some v => v.vote = 1 || v.vote = 2 | none => false)

/-- The level-1 participants voting yes below a node, itself included at level 1. -/
def Tray.yesCount (t : Tray) (n : TxNode) (mine : Bool) : Nat :=
  let kids := (t.txKids n.job n.txid).map (fun l => match smGet? n.votes l with | some v => if v.vote = 1 then v.count else 0 | none => 0)
  (if t.u.idn.role = 1 then mine.toNat else 0) + kids.sum + (if n.quorum then t.coveredYes n else 0)

/-- A node votes: 2 where it is not involved. One whose TB0 is not valid votes no. -/
def Tray.castVote (t : Tray) (n : TxNode) : Tray :=
  if n.voted || n.queue.isSome || n.decided.isSome then t
  else
    let ok := n.own && t.u.clk.valid
    let yes := n.inv && ok && (n.quorum || t.kidsYes n)
    let count := t.yesCount n yes
    let vote := if !n.inv then 2 else yes.toNat
    let t := t.modNode n.job n.txid (fun x => { x with voted := true, yes := yes, count := count })
    t.sendTx n.parent { TxMsg.plain 1 n.job n.txid with vote := bv vote, count := bv count }

/-- The parts a node has received are complete. -/
def TxNode.whole (n : TxNode) : Bool := decide (n.got.length = n.parts)

/-- A node votes as soon as it knows its own answer and its children's. -/
def Tray.tryVote (t : Tray) (job txid : W32) : Tray :=
  match t.txNode job txid with
  | none => t
  | some n => if n.whole && (!n.inv || t.allVoted n) then t.castVote n else t

/-- VOTE_TIME: the vote time of a node arrives; children that have not voted count as no. A node whose prepare parts are not all here has validated
nothing: it is involved where it holds a slot of the job, and votes no. -/
def Tray.voteTime (t : Tray) (job txid : W32) : Tray :=
  match t.txNode job txid with
  | none => t
  | some n =>
    if n.voted || n.queue.isSome || n.decided.isSome then t
    else
      let t := if t.u.clk.valid then t.blk (fun u => u.toNs (t.voteAt n)) else t
      t.castVote (if n.whole then n else { n with inv := (t.slotOfJob job).isSome, own := false })

/-- TX_PREPARE: a prepare part is received (R223, R224): it is forwarded, and once every part is here the node's members are validated. A part of an
open key with other members is answered with a no vote. -/
def Tray.txPrepare (t : Tray) (link : Nat) (m : TxMsg) : Tray :=
  let fwd := fun (v : Tray) => v.childTrays.foldl (fun (w : Tray) l => w.sendTx l m) v
  let part := m.part.toNat
  let no := fun (v : Tray) => v.sendTx link { TxMsg.plain 1 m.job m.txid with vote := 0 }
  let cmds := m.cmds
  let same := fun (c : List (List Byte)) => decide (c.map (fun x => x.take 64) = cmds)
  let base := match t.txNode m.job m.txid with
    | some n => n
    | none => { newNode m.job m.txid (fld m.flags 1 2) (bit m.flags 3) m.count.toNat m.deadline m.point link m.parts.toNat with replay := bit m.flags 0 }
  let other := decide (base.parts ≠ m.parts.toNat) || (match smGet? base.got part with | some c => !same c | none => base.whole)
  if other then no t
  else if (smGet? base.got part).isSome then t
  else if (t.txNode m.job m.txid).isNone && decide (64 ≤ t.txOpen) then no (fwd t)
  else
    let n := { base with got := smPut base.got part cmds }
    let t := { t with nodes := t.nodes.filter (fun x => !(x.job = m.job && decide (x.txid = m.txid))) ++ [n] }
    let t := fwd t
    if !n.whole then t
    else
      let slot := t.slotOfJob m.job
      let v := t.stageOn (t.reserved none (some (m.job, m.txid)))
      let own := slot.isSome && (v.checkAll (t.ofLevel n.members)).isNone
      let t := (t.ofLevel n.members).foldl (fun (w : Tray) c => w.checkReads c (if own then none else some (2, 0))) t
      let held := fun (c : List Byte) => if own && levelIn c t.u.idn.role then t.withDesc c else c
      (t.modNode m.job m.txid (fun x => { x with own := own, inv := slot.isSome, slot := slot, got := smMap (fun l => l.map held) x.got })).tryVote m.job m.txid

/-- TX_VOTE: a child's vote; one that comes after the node's own vote, or its vote time, is too late. -/
def Tray.txVote (t : Tray) (link : Nat) (m : TxMsg) : Tray :=
  match t.txNode m.job m.txid with
  | none => t
  | some n =>
    if n.voted || n.decided.isSome || (t.u.clk.valid && reached64 t.u.clk.ns (t.voteAt n) && t.u.clk.ns ≠ t.voteAt n) then t
    else
      let t := t.modNode m.job m.txid (fun x => { x with votes := smPut x.votes link ⟨m.vote.toNat, m.count.toNat⟩ })
      if n.queue.isSome then t else t.tryVote m.job m.txid

/-! ### Decisions (R225) -/

/-- A node counts a child as yes. One that a replay made afresh holds no votes: the outcome is commit, and a child that has not voted otherwise since is told
so (DEDUCED, log 126). -/
def TxNode.countsYes (n : TxNode) (l : Nat) : Bool :=
  match smGet? n.votes l with
  | some v => v.vote = 1
  | none => n.replay

/-- Commit is sent to the children counted as yes, abort to every other. -/
def Tray.sendOutcome (t : Tray) (n : TxNode) : Tray :=
  let kids := t.txKids n.job n.txid
  let yes := kids.filter n.countsYes
  let t := kids.foldl (fun (v : Tray) l => v.sendTx l (TxMsg.plain (if yes.contains l then 2 else 3) n.job n.txid)) t
  t.modNode n.job n.txid (fun x => { x with unacked := yes })

/-- A node commits: it forwards the outcome, and its members wait for the commit point. -/
def Tray.commitNode (t : Tray) (n : TxNode) (own : Bool) : Tray :=
  let t := (t.modNode n.job n.txid (fun x => { x with decided := some true, copyWait := false })).sendOutcome n
  let slot := (t.slotOfJob n.job).getD (n.slot.getD 0)
  if own then t.enact ⟨n.members, pointOf n.mode n.point slot, n.queue, some (n.job, n.txid), n.txid, true⟩
  else
    let t := if n.replay then t.sendTx n.parent (TxMsg.plain 4 n.job n.txid) else t
    (t.modNode n.job n.txid (fun x => { x with applied := true })).nodeCheck n.job n.txid

/-- Orphans of a start that no alternate covers. -/
def Desc.orphans (x : Desc) : Nat := (x.hops.filter (fun e => e.2.orphan && e.2.covered.isNone)).length

/-- A transaction aborts at a node (R225): every child is told; at the coordinator members and close end with status 10, and an aborted start is reported
(R347). -/
def Tray.abortHere (t : Tray) (n : TxNode) : Tray :=
  let t := (t.txKids n.job n.txid).foldl (fun (v : Tray) l => v.sendTx l (TxMsg.plain 3 n.job n.txid)) t
  let x := t.startDesc n.job n.txid
  let count := t.yesCount n (n.own && t.u.clk.valid)
  let t := match x with
    | some y =>
      let t := if n.queue.isSome then
          t.blk (fun u => u.report rkStartAborted .dflt (pay [fd 0x24 4 n.job.toNat, fd 0x28 4 y.bseq.toNat, fd 0x2C 4 count]))
        else t
      t.modDesc n.job y.bseq (fun z => { z with deferred := [] })
    | none => t
  let t := t.dropNode n.job n.txid
  match n.queue with
  | none => t
  | some q =>
    let t := if n.start then t else n.members.foldl (fun (v : Tray) m => v.endMember q m 10 0 false) t
    t.finish q 10 0 0 false

/-- TX_DECISION: the coordinator decides, at D at the latest. A commit is copied to the alternate parent before it is sent; without one in the tree
table it is sent at once. -/
def Tray.txDecision (t : Tray) (job txid : W32) : Tray :=
  match t.txNode job txid with
  | none => t
  | some n =>
    if n.queue.isNone || n.decided.isSome then t
    else
      let early := t.allVoted n || !n.own || (!n.quorum && t.childTrays.any (fun l => (t.voteOf n l).map Vote.vote = some 0))
      let t := if early || !t.u.clk.valid then t else t.blk (fun u => u.toNs n.dead)
      let ok := n.own && t.u.clk.valid
      let count := t.yesCount n ok
      let commit := ok && (if n.quorum then decide (n.need ≤ count) else t.kidsYes n)
      if !commit then t.abortHere n
      else
        let t := t.modNode job txid (fun x => { x with decided := some true, yes := true, voted := true, count := count })
        let t := match t.startDesc job txid with
          | some y => t.blk (fun u => u.report rkStartCommitted .dflt
              (pay [fd 0x24 4 job.toNat, fd 0x28 4 y.bseq.toNat, fd 0x2C 4 count, fd 0x30 4 y.orphans]))
          | none => t
        let n := { n with count := count, decided := some true, yes := true, voted := true }
        if bit (t.u.treeAt 1).attr 31 then
          (t.modNode job txid (fun x => { x with copyWait := true })).sendTx 1 { TxMsg.plain 6 job txid with count := bv count }
        else t.commitNode n true

/-- TX_DECISION_COPY: a decision copy is stored and acknowledged with a commit acknowledgement. -/
def Tray.txCopy (t : Tray) (link : Nat) (m : TxMsg) : Tray :=
  let t := { t with copies := t.copies.filter (fun (c : TxCopy) => !(c.job = m.job && decide (c.txid = m.txid))) ++ [TxCopy.mk m.job m.txid true m.count.toNat] }
  t.sendTx link (TxMsg.plain 4 m.job m.txid)

/-- TX_DECISION_COPY_ACK: the copy is safe: commit and abort go out. -/
def Tray.txCopyAck (t : Tray) (job txid : W32) : Tray :=
  match t.txNode job txid with
  | none => t
  | some n => if n.copyWait then t.commitNode n true else t

/-- TX_COMMIT: commit is received, forwarded, and held for the commit point. One for a node that has applied is acknowledged again. A replayed commit is
applied whatever of it stands already (R226). -/
def Tray.txCommit (t : Tray) (link : Nat) (m : TxMsg) : Tray :=
  match t.txNode m.job m.txid with
  | none => t
  | some n =>
    if n.applied then t.sendTx link (TxMsg.plain 4 m.job m.txid)
    else if n.decided.isSome || n.queue.isSome then t
    else t.commitNode n (n.inv && (n.own || n.replay))

/-- TX_ABORT: abort is received and forwarded, also by a node that had no place for the transaction and forwarded its prepare parts; the reservations go. A
node that was told to commit does not abort. -/
def Tray.txAbort (t : Tray) (m : TxMsg) : Tray :=
  match t.txNode m.job m.txid with
  | none => t.childTrays.foldl (fun (v : Tray) l => v.sendTx l m) t
  | some n => if n.decided.isSome || n.queue.isSome then t else t.abortHere n

/-- TX_COMMIT_ACK: a child has applied: its outcome is forgotten. -/
def Tray.txCommitAck (t : Tray) (link : Nat) (m : TxMsg) : Tray :=
  (t.modNode m.job m.txid (fun n => { n with unacked := n.unacked.filter (fun l => l ≠ link) })).nodeCheck m.job m.txid

/-! ### In doubt (R226) -/

/-- "transaction in doubt". -/
def rkTxDoubt : RecKind := rk 0x20 0x0001 3 .bySeverity

/-- TRANSACTION_IN_DOUBT: a node that voted yes has no outcome by D + `ENG.OUTTO`; it asks its parent, and where the parent does not answer, another
`OUTTO` later its alternate parent. -/
def Tray.txDoubt (t : Tray) (job txid : W32) : Tray :=
  match t.txNode job txid with
  | none => t
  | some n =>
    if !n.yes || n.queue.isSome || n.decided.isSome || !t.u.clk.valid then t
    else
      let ms := t.u.rf R.ENG_OUTTO 0 16 * (if n.doubt then 2 else 1)
      let t := t.blk (fun u => u.toNs (n.dead + BitVec.ofNat 64 (ms * 1000000)))
      if n.doubt then t.sendTx 1 (TxMsg.plain 5 job txid)
      else
        let t := (t.modNode job txid (fun x => { x with doubt := true })).blk (fun u =>
          (u.cause 0x20 0 0).report rkTxDoubt .dflt (pay [fd 0x24 4 job.toNat, fd 0x28 4 txid.toNat]))
        t.sendTx n.parent (TxMsg.plain 5 job txid)

/-- TX_OUTCOME_QUERY: a node that holds the outcome, or a copy of the decision, answers: commit, but to a child that it did not count as yes and told to
abort (R225). A coordinator whose decision copy is not acknowledged yet does not answer. -/
def Tray.txQuery (t : Tray) (link : Nat) (m : TxMsg) : Tray :=
  let n := t.txNode m.job m.txid
  let told := fun (x : TxNode) => !(t.txKids m.job m.txid).contains link || x.countsYes link
  let commit := match n.bind (fun x => if x.copyWait then none else x.decided.map (fun b => b && told x)) with
    | some b => some b
    | none => (t.copies.find? (fun (c : TxCopy) => c.job = m.job && decide (c.txid = m.txid))).map TxCopy.commit
  match commit with
  | some b => t.sendTx link (TxMsg.plain (if b then 2 else 3) m.job m.txid)
  | none => t

/-- A child whose hello is admitted again has not acknowledged a commit (R226): the prepare parts and the commit are sent again with replay set. -/
def Tray.txReplay (t : Tray) (link : Nat) : Tray :=
  t.nodes.foldl (fun (v : Tray) n =>
    if n.unacked.contains link && !n.start then
      let v := (prepareParts n true).foldl (fun (w : Tray) m => w.sendTx link m) v
      v.sendTx link { TxMsg.plain 2 n.job n.txid with flags := 1 }
    else v) t

/-- A transaction message is received (R223). -/
def Tray.txMessage (t : Tray) (link : Nat) (m : TxMsg) : Tray :=
  match m.sub.toNat with
  | 0 => t.txPrepare link m
  | 1 => t.txVote link m
  | 2 => t.txCommit link m
  | 3 => t.txAbort m
  | 4 => if link = 1 then t.txCopyAck m.job m.txid else t.txCommitAck link m
  | 5 => t.txQuery link m
  | 6 => t.txCopy link m
  | _ => t.blk (fun u => u.unknownControl 9)

/-- TXABORT (R220, R221): it dooms the undecided transaction of its queue, or the coordinator's; one that is decided refuses it. -/
def Tray.txabort (t : Tray) (q : Nat) : Tray :=
  match t.begun q 4 with
  | none => t
  | some f =>
    let b := f.body
    let id := cTxid b
    if cMember b then t.member q f
    else if !cmdClean b then (t.doom q).finish q 2 0 0 false
    else match smGet? t.txs q with
      | some x => if x.txid = id then ((t.doom q).dropTx q).finish q 0 0 0 false else (t.doom q).finish q 2 0 0 false
      | none =>
        if t.due.any (fun d => d.txid = id && d.queue.isSome) || t.nodes.any (fun n => n.txid = id && n.queue.isSome && n.decided.isSome) then
          t.finish q 7 0x0101 0 false
        else match t.nodes.find? (fun n => n.txid = id && n.queue.isSome && n.decided.isNone) with
          | some n => (t.abortHere n).finish q 0 0 0 false
          | none => t.finish q 5 0 0 false

end Sys2Proof.Machine
end

