-- ==== Sys2Proof/Machine/TrayCensus.lean ====
section
/-!
DEFINITION. Checkpoint census, manifest and spares (spec/16_job_continuity.md, R352 to R361), and the fingerprint frames that feed it
(spec/07_snapshot_fingerprints.md, R154).
-/

namespace Sys2Proof.Machine

/-! ### Records (R364) -/

def rkCheckpointDone : RecKind := rk 0x2B 0x0008 1 .always
def rkCheckpointFailed : RecKind := rk 0x2B 0x0009 3 .always
def rkThinChunk : RecKind := rk 0x2B 0x000A 2 .always
def rkWriterReplaced : RecKind := rk 0x2B 0x000B 1 .bySeverity
def rkSparePlan : RecKind := rk 0x2B 0x000C 1 .always
def rkSpareSource : RecKind := rk 0x2B 0x000D 2 .always
def rkSpareReady : RecKind := rk 0x2B 0x000E 1 .always

/-! ### Members -/

/-- The key of a member's liveness at a node, as its parent sees it or its alternate (`alt`). -/
def liveKey (leaf : W32) (slot : Nat) (alt : Bool) : Nat := leaf.toNat * 128 + alt.toNat * 64 + slot

/-- A member's state as its parent or its alternate last reported it: 0 eligible, 1 live but not eligible, 2 not live. Without a report it is live at its
parent and nowhere else. -/
def Tray.seenBy (t : Tray) (slot : Nat) (leaf : W32) (alt : Bool) : Nat := smGet t.lives (liveKey leaf slot alt) (if alt then 2 else 0)
def Tray.setView (t : Tray) (slot : Nat) (leaf : W32) (alt : Bool) (state : Nat) : Tray :=
  { t with lives := smSet t.lives (liveKey leaf slot alt) state (if alt then 2 else 0) }

/-- A member's state (R353): live where its binding is enabled at its level-1 node or at an adopting alternate. -/
def Tray.liveOf (t : Tray) (slot : Nat) (leaf : W32) : Nat := min (t.seenBy slot leaf false) (t.seenBy slot leaf true)

def Census.leaf (c : Census) (i : Nat) : W32 := (dLeaf c.desc i).leaf
def Census.count (c : Census) : Nat := dNleaf c.desc
def Census.place (c : Census) (leaf : W32) : Option Nat := (List.range c.count).find? (fun i => c.leaf i = leaf)
def Census.report (c : Census) (i chunk : Nat) : Option (Nat × BitVec 256) := smGet? c.reports (i * 2 ^ 20 + chunk)

/-- The chunks of a member's snapshot. -/
def Census.chunks (c : Census) (i : Nat) : Nat :=
  match smGet? c.most i with | some n => n | none => min (dNchunk c.desc) (Config.snapshotChunks (c.leaf i) c.step)

/-- A member is absent from a chunk (R355). -/
def Tray.absentFrom (t : Tray) (slot : Nat) (c : Census) (i chunk : Nat) : Bool :=
  c.torn.contains i || c.absent.contains i || t.liveOf slot (c.leaf i) = 2 || ((c.report i chunk).isNone && decide (c.chunks i ≤ chunk))

/-- Members in ascending leaf number. -/
def Census.byLeaf (c : Census) (is : List Nat) : List Nat := is.mergeSort (fun a b => decide ((c.leaf a).toNat ≤ (c.leaf b).toNat))

/-- The holders of a version that are live and not excluded from the pair (R356). -/
def Tray.liveHolders (t : Tray) (slot : Nat) (c : Census) (v : Version) : List Nat :=
  c.byLeaf (v.holders.filter (fun i => !v.excluded.contains i && decide (t.liveOf slot (c.leaf i) ≠ 2)))

/-- A version's live holders have fallen from two or more to one: a version held by one member from the start is never thin (R356). -/
def Tray.thin (t : Tray) (slot : Nat) (c : Census) (v : Version) : Bool := decide (2 ≤ v.holders.length) && decide ((t.liveHolders slot c v).length = 1)

/-- The writer of a version (R355): its lowest-numbered eligible holder, or its lowest-numbered live one. -/
def Tray.writerOf (t : Tray) (slot : Nat) (c : Census) (v : Version) : Option Nat :=
  let ls := t.liveHolders slot c v
  match ls.find? (fun i => t.liveOf slot (c.leaf i) = 0) with
  | some i => some i
  | none => ls.head?

/-! ### Election notices (R155, R355) -/

/-- A decision for one chunk of a member. -/
abbrev Choice : Type := Nat × Nat × Nat

/-- Decisions of one member grouped into runs of consecutive chunks. -/
def runsOf : List Choice → List (Nat × Nat × List Nat)
  | [] => []
  | (i, c, k) :: r =>
    match runsOf r with
    | (j, f, ks) :: rest => if j = i && f = c + 1 && ks.length < 4096 then (i, c, k :: ks) :: rest else (i, c, [k]) :: (j, f, ks) :: rest
    | [] => [(i, c, [k])]

/-- 2-bit codes packed four to a byte. -/
def packCodes (ks : List Nat) : List Byte :=
  (List.range (ceilDiv ks.length 4)).map (fun i => BitVec.ofNat 8 (((List.range 4).map (fun j => ks.getD (4 * i + j) 0 * 4 ^ j)).sum))

/-- The rest of an election notice: on its way down it carries the leaf number; the leaf's own T build puts the snapshot identifier there. -/
def noticeRest (head : Nat) (first : Nat) (ks : List Nat) : List Byte :=
  leBytes 4 head ++ leBytes 4 first ++ leBytes 4 ks.length ++ packCodes ks

/-- A notice goes to a leaf of this node, or down every child T build. -/
def Tray.noticeDown (t : Tray) (leaf : W32) (first : Nat) (ks : List Nat) : Tray :=
  match t.leafLink leaf with
  | some l => t.blk (fun u => u.sendCtl l 3 (noticeRest (smGet t.snaps leaf.toNat 0).toNat first ks))
  | none => t.childTrays.foldl (fun (v : Tray) l => v.blk (fun u => u.sendCtl l 3 (noticeRest leaf.toNat first ks))) t

/-- An election notice from the parent is relayed toward its leaf (R21). -/
def Tray.noticeRelay (t : Tray) (body : List Byte) : Tray :=
  let n := numAt body 0x0C 4
  t.noticeDown (bv (numAt body 4 4)) (numAt body 8 4) ((List.range n).map (fun i => numAt body (0x10 + i / 4) 1 / 4 ^ (i % 4) % 4))

/-- Send decisions, those of consecutive chunks of one leaf in one notice. -/
def Tray.sendChoices (t : Tray) (c : Census) (ch : List Choice) : Tray :=
  let sorted := ch.mergeSort (fun a b => decide (a.1 < b.1 ∨ (a.1 = b.1 ∧ a.2.1 ≤ b.2.1)))
  (runsOf sorted).foldl (fun (v : Tray) r => v.noticeDown (c.leaf r.1) r.2.1 r.2.2) t

/-! ### Deciding pairs (R355) -/

/-- The versions of a pair: the distinct digests that members not absent reported, ordered by the lowest leaf number. -/
def Tray.versionsOf (t : Tray) (slot : Nat) (c : Census) (ms : List Nat) (chunk : Nat) : List Version :=
  (c.byLeaf (ms.filter (fun i => !t.absentFrom slot c i chunk))).foldl (fun (vs : List Version) i =>
    match c.report i chunk with
    | none => vs
    | some (len, d) =>
      if vs.any (fun v => v.digest = d) then vs.map (fun v => if v.digest = d then { v with holders := v.holders ++ [i] } else v)
      else vs ++ [⟨d, len, [i], none, [], none, []⟩]) []

/-- Chunks that a group is to decide. -/
def Tray.groupChunks (t : Tray) (slot : Nat) (c : Census) (ms : List Nat) : Nat :=
  ((ms.filter (fun i => !c.torn.contains i && !c.absent.contains i && t.liveOf slot (c.leaf i) ≠ 2)).map (fun i =>
    max (c.chunks i) (((c.reports.filter (fun e => e.1 / 2 ^ 20 = i)).map (fun e => e.1 % 2 ^ 20 + 1)).foldl max 0))).foldl max 0

/-- A pair is decided where every member reported the chunk or is absent (R355): its versions, writers, and the decisions to send. -/
def Tray.decidePair (t : Tray) (slot : Nat) (c : Census) (g : Nat × List Nat) (chunk : Nat) : Census × List Choice :=
  if c.pairs.any (fun p => p.group = g.1 && decide (p.chunk = chunk)) || !g.2.all (fun i => (c.report i chunk).isSome || t.absentFrom slot c i chunk) then
    (c, [])
  else
    let vs := (t.versionsOf slot c g.2 chunk).map (fun (v : Version) => { v with writer := t.writerOf slot c v })
    if vs.isEmpty then (c, [])
    else ({ c with pairs := c.pairs ++ [⟨g.1, chunk, vs⟩] },
      vs.flatMap (fun (v : Version) => v.holders.map (fun i => (i, chunk, if v.writer = some i then 1 else 2))))

/-- Every pair that can be decided is. -/
def Tray.decideAll (t : Tray) (slot : Nat) (c : Census) : Census × List Choice :=
  (dGroups c.desc).foldl (fun (acc : Census × List Choice) g =>
    (List.range (t.groupChunks slot c g.2)).foldl (fun (acc : Census × List Choice) k =>
      let r := t.decidePair slot acc.1 g k
      (r.1, acc.2 ++ r.2)) acc) (c, [])

/-- Pairs not decided yet. -/
def Tray.undecided (t : Tray) (slot : Nat) (c : Census) : Nat :=
  ((dGroups c.desc).map (fun g => ((List.range (t.groupChunks slot c g.2)).filter (fun k =>
    !c.pairs.any (fun p => p.group = g.1 && decide (p.chunk = k)))).length)).sum

/-! ### Failing and completing (R357, R358) -/

def Tray.setCensus (t : Tray) (slot : Nat) (c : Census) : Tray := t.setJslot slot { t.jslot slot with census := some c }

/-- The census of a slot that is open: neither complete nor failed. -/
def Tray.openCensus (t : Tray) (slot : Nat) : Option Census :=
  match (t.jslot slot).census with
  | some c => if c.complete || c.failed.isSome then none else some c
  | none => none

/-- The checkpoint fails. -/
def Tray.checkpointFails (t : Tray) (slot : Nat) (c : Census) (reason group : Nat) : Tray :=
  (t.setCensus slot { c with failed := some reason }).blk (fun u => (u.cause 0x2B 0 2).report rkCheckpointFailed (.slot slot)
    (pay [fd 0x24 4 c.job.toNat, fd 0x28 4 c.step.toNat, fd 0x2C 4 reason, fd 0x30 4 group]))

/-- The group number that records and the manifest show. -/
def shownGroup (g : Nat) : Nat := if g < 2 ^ 24 then g else 0xFFFFFF

/-- A version without a live holder before it is written fails the checkpoint (R356, R358). -/
def Tray.failIfLost (t : Tray) (slot : Nat) : Tray :=
  match t.openCensus slot with
  | none => t
  | some c => match c.pairs.find? (fun p => p.versions.any (fun v => v.written.isNone && (t.liveHolders slot c v).isEmpty)) with
    | some p => t.checkpointFails slot c 1 (shownGroup p.group)
    | none => t

/-- The decided pairs in manifest order. -/
def Census.ordered (c : Census) : List Pair :=
  c.pairs.mergeSort (fun a b => decide (a.group < b.group ∨ (a.group = b.group ∧ a.chunk ≤ b.chunk)))

/-- A version entry of the manifest. -/
def Census.entry (c : Census) (p : Pair) (k : Nat) (v : Version) : List Byte :=
  let ranks := (v.holders.map (fun i => 2 ^ ((dLeaf c.desc i).rank % 64))).sum
  let leaf := match v.written with | some i => (c.leaf i).toNat | none => 0
  layout 32 [fd 0 4 (shownGroup p.group), fd 4 4 p.chunk, fd 8 4 leaf, fd 0xC 1 k, fd 0xD 1 p.versions.length, fd 0x10 8 ranks, fd 0x18 4 v.len] ++
    (beBytes 32 v.digest.toNat)

/-- The manifest's bytes with the valid mark (R357). -/
def Tray.manifest (t : Tray) (c : Census) : List Byte :=
  let ents := (c.ordered.map (fun p => ((p.versions.zipIdx 0).map (fun e => c.entry p e.2 e.1)).flatten)).flatten
  let n := ents.length / 64
  let head := layout 64 [fd 0 4 1, fd 4 4 c.job.toNat, fd 8 4 c.step.toNat, fd 0xC 1 c.epoch.toNat, fd 0x10 4 n, fd 0x14 4 (dGroups c.desc).length,
    fd 0x18 8 (64 + ents.length), fd 0x20 8 t.u.clk.ns.toNat, fd 0x28 4 t.node.toNat]
  let b := head ++ ents
  overlay (overlay b 0x3C (leBytes 4 (crc32c b).toNat)) 0 (leBytes 4 (2 ^ 31 + 1))

/-- The checkpoint completes where every version of every decided pair is written and no pair is undecided (R357); the manifest waits for Bus Master
Enable (R372). A group whose members are all absent
from every chunk fails it (R355). -/
def Tray.censusCheck (t : Tray) (slot : Nat) : Tray :=
  match t.openCensus slot with
  | none => t
  | some c =>
    match (dGroups c.desc).find? (fun g => t.groupChunks slot c g.2 = 0 && !c.pairs.any (fun p => p.group = g.1) &&
        g.2.all (fun i => c.torn.contains i || c.absent.contains i || t.liveOf slot (c.leaf i) = 2)) with
    | some g => t.checkpointFails slot c 2 (shownGroup g.1)
    | none =>
      if !t.u.pw.busMaster || c.pairs.isEmpty || t.undecided slot c ≠ 0 || !c.pairs.all (fun p => p.versions.all (fun v => v.written.isSome)) then t
      else
        let m := t.manifest c
        if dHlen c.desc < m.length then t.checkpointFails slot c 4 0xFFFFFFFF
        else
          let u := (t.u.hostWrite (dHbuf c.desc + 4) (m.drop 4)).hostWrite (dHbuf c.desc) (m.take 4)
          let c := { c with complete := true }
          let t := { t with u := u }.setJslot slot { t.jslot slot with census := some c, kept := some c }
          t.blk (fun u => u.report rkCheckpointDone (.slot slot)
            (pay [fd 0x24 4 c.job.toNat, fd 0x28 4 c.step.toNat, fd 0x2C 4 (m.length / 64 - 1), fd 0x30 4 m.length]))

/-- Decide what can be decided, send the decisions, and see whether the checkpoint is complete. -/
def Tray.censusGo (t : Tray) (slot : Nat) : Tray :=
  match t.openCensus slot with
  | none => t
  | some c =>
    let r := t.decideAll slot c
    ((t.setCensus slot r.1).sendChoices r.1 r.2).censusCheck slot

/-- CENSUS_DEADLINE (R358). -/
def Tray.censusDeadline (t : Tray) (slot : Nat) : Tray :=
  match t.openCensus slot with
  | none => t
  | some c => (t.blk (fun u => u.toIv (c.openAt + msIv (dDeadline c.desc)))).checkpointFails slot c 3 0xFFFFFFFF

/-! ### Bulk bodies (R353, R354) -/

/-- A bulk body's header fields. -/
def bType (b : List Byte) : Nat := numAt b 0 1
def bCount (b : List Byte) : Nat := numAt b 2 2
def bJob (b : List Byte) : W32 := bv (numAt b 4 4)
def bStep (b : List Byte) : W32 := bv (numAt b 8 4)
def bEpoch (b : List Byte) : Byte := bv (numAt b 0xC 1)
def bLeaf (b : List Byte) : Nat := numAt b 0xD 3

/-- A bulk body of entries. -/
def bulkBody (type : Nat) (job step : W32) (epoch : Byte) (leaf : Nat) (entries : List (List Byte)) : List Byte :=
  layout 16 [fd 0 1 type, fd 2 2 entries.length, fd 4 4 job.toNat, fd 8 4 step.toNat, fd 0xC 1 epoch.toNat, fd 0xD 3 leaf] ++ entries.flatten

/-- A bulk body goes toward the census holder. -/
def Tray.bulkUp (t : Tray) (b : List Byte) : Tray :=
  if (smGet? t.u.tree t.u.parentLink).isSome then t.blk (fun u => u.sendMsg u.parentLink 6 7 b) else t

/-- The slot whose census, open or retained, this node holds for a job. -/
def Tray.censusSlot (t : Tray) (job : W32) : Option Nat :=
  (t.job.find? (fun e => (match e.2.census with | some c => decide (c.job = job) | none => false) ||
    (match e.2.kept with | some c => decide (c.job = job) | none => false))).map (·.1)

def Tray.stale (t : Tray) (slot n : Nat) : Tray := t.blk (fun u => u.bumpBy (inst R.JOB_CSTALE slot) n)

/-- A digest's bytes in the order of FIPS 180-4. -/
def digestAt (b : List Byte) (o : Nat) : BitVec 256 := BitVec.ofNat 256 (beVal (bytesAt b o 32))

/-- A changed digest after the decision (R356): the member is excluded for the pair, and a writer that is excluded is replaced. -/
def Tray.changed (t : Tray) (slot : Nat) (c : Census) (i chunk : Nat) : Tray × Census :=
  match c.pairs.find? (fun p => p.versions.any (fun v => v.holders.contains i) && decide (p.chunk = chunk)) with
  | none => (t, c)
  | some p =>
    let t := t.sendChoices c [(i, chunk, 3)]
    let one := fun (v : Version) =>
      if v.holders.contains i && !v.excluded.contains i then
        let v := { v with excluded := v.excluded ++ [i] }
        if v.writer = some i && v.written.isNone then { v with writer := t.writerOf slot c v, former := v.former ++ [i] } else v
      else v
    let vs := p.versions.map one
    let t := (p.versions.zip vs).foldl (fun (w : Tray) e =>
      if e.1.writer = e.2.writer then w
      else match e.2.writer with
        | some j => (w.sendChoices c [(j, chunk, 1)]).blk (fun u => u.report rkWriterReplaced (.slot slot)
            (pay [fd 0x24 4 (shownGroup p.group), fd 0x28 4 chunk, fd 0x2C 4 (c.leaf j).toNat]))
        | none => w) t
    (t, { c with pairs := c.pairs.map (fun (q : Pair) => if q.group = p.group && decide (q.chunk = chunk) then { q with versions := vs } else q) })

/-- One entry of a census report (R354 to R356). -/
def Tray.reportOne (t : Tray) (slot : Nat) (e : List Byte) : Tray :=
  match t.openCensus slot with
  | none => t.stale slot 1
  | some c =>
    let chunk := numAt e 4 4
    match c.place (bv (numAt e 0 4)) with
    | none => t.stale slot 1
    | some i =>
      let mine := fun (x : Nat × Nat × BitVec 256) => decide (x.1 / 2 ^ 20 = i)
      if Nat.testBit (numAt e 0xC 1) 1 || chunk = 0xFFFFFFFF then t.setCensus slot { c with torn := if c.torn.contains i then c.torn else c.torn ++ [i] }
      else if c.absent.contains i then t.stale slot 1
      else if dNchunk c.desc ≤ chunk then
        -- its NCHUNK is above the descriptor's: all its reports count as discarded
        (t.setCensus slot { c with absent := c.absent ++ [i], reports := c.reports.filter (fun x => !mine x) }).stale slot (1 + (c.reports.filter mine).length)
      else
        let ch := Nat.testBit (numAt e 0xC 1) 0
        let c' := { c with reports := smPut c.reports (i * 2 ^ 20 + chunk) (numAt e 8 4, digestAt e 0x10) }
        let decided := c.pairs.any (fun p => decide (p.chunk = chunk) && p.versions.any (fun v => v.holders.contains i))
        if !decided then t.setCensus slot c'
        else if ch then let r := t.changed slot c i chunk; (r.1.setCensus slot r.2).failIfLost slot
        else t

/-- CENSUS_REPORT: a body of type 3 at the census holder; elsewhere it goes on toward it. -/
def Tray.censusReport (t : Tray) (b : List Byte) : Tray :=
  match t.censusSlot (bJob b) with
  | none => t.bulkUp b
  | some s =>
    let ok := match t.openCensus s with | some c => decide (c.step = bStep b) && decide (c.epoch = bEpoch b) | none => false
    if !ok then t.stale s (bCount b)
    else ((List.range (bCount b)).foldl (fun (v : Tray) i => v.reportOne s (bytesAt b (16 + 48 * i) 48)) t).censusGo s

/-! ### Liveness (R353, R356, R358, R361) -/

/-- Versions of a census that a member's loss takes from two or more live holders to one, per census; answered with the new state already in force. -/
def Tray.madeThin (t : Tray) (slot : Nat) (c : Census) (i : Nat) : Nat :=
  ((c.pairs.flatMap Pair.versions).filter (fun v => v.holders.contains i && !v.excluded.contains i && t.thin slot c v)).length

/-- Write the plan entries of chunks of a slot's spare plan as its sources now stand (R360); they wait for Bus Master Enable (R372). -/
def Tray.planWrite (t : Tray) (slot : Nat) (chunks : List Nat) : Tray :=
  match (t.jslot slot).plan, (t.jslot slot).kept with
  | some p, some c =>
    if !t.u.pw.busMaster then t.setJslot slot { t.jslot slot with plan := some { p with owed := (p.owed ++ chunks).dedup } }
    else chunks.foldl (fun (v : Tray) k =>
      let leaf := match smGet p.src k none with | some i => (c.leaf i).toNat | none => 0xFFFFFFFF
      v.blk (fun u => u.hostWrite (p.hbuf + 8 * k) (leBytes 4 k ++ leBytes 4 leaf))) t
  | _, _ => t

/-- Bus Master Enable is set again (R372): the plan entries that wait are written, and a checkpoint whose manifest waits completes. -/
def Tray.censusBus (t : Tray) : Tray :=
  (t.job.map (·.1)).foldl (fun (v : Tray) s =>
    let v := match (v.jslot s).plan with
      | some p => (v.setJslot s { v.jslot s with plan := some { p with owed := [] } }).planWrite s p.owed
      | none => v
    v.censusCheck s) t

/-- The source of a chunk of `old`: the lowest-numbered live holder of its version other than old. -/
def Tray.sourceOf (t : Tray) (slot : Nat) (c : Census) (old chunk : Nat) : Option Nat :=
  ((c.pairs.find? (fun p => decide (p.chunk = chunk) && p.versions.any (fun v => v.holders.contains old))).bind (fun p =>
    p.versions.find? (fun v => v.holders.contains old))).bind (fun v => (t.liveHolders slot c v).find? (fun i => i ≠ old))

/-- A source of the spare plan stopped being live (R361). -/
def Tray.sourceLost (t : Tray) (slot i : Nat) : Tray :=
  match (t.jslot slot).plan, (t.jslot slot).kept with
  | some p, some c =>
    let mine := (p.src.filter (fun e => e.2 = some i && (smGet? p.done e.1).isNone)).map (·.1)
    if mine.isEmpty || p.ready then t
    else
      let new := mine.map (fun k => (k, t.sourceOf slot c p.old k))
      let p' := { p with src := new.foldl (fun (m : SMap (Option Nat)) e => smPut m e.1 e.2) p.src }
      let t := t.setJslot slot { t.jslot slot with plan := some p' }
      let t := t.planWrite slot mine
      let lost := (new.filter (fun e => e.2.isNone)).length
      let t := if lost = 0 then t else t.blk (fun u => u.cause 0x2B 0 4)
      t.blk (fun u => u.report rkSpareSource (.slot slot) (pay [fd 0x24 4 (c.leaf i).toNat, fd 0x28 4 (new.length - lost), fd 0x2C 4 lost]))
  | _, _ => t

/-- Thin-chunk warning of a census after member `i` stopped being live (R356). -/
def Tray.thinWarn (t : Tray) (slot : Nat) (c : Census) (i : Nat) : Tray :=
  let n := t.madeThin slot c i
  if n = 0 then t
  else t.blk (fun u => (u.cause 0x2B 0 3).report rkThinChunk (.slot slot)
    (pay [fd 0x24 4 c.job.toNat, fd 0x28 4 (let r := dLeaf c.desc i; r.group), fd 0x2C 4 n, fd 0x30 4 (c.leaf i).toNat]))

/-- Writers of a census that stopped being live are replaced, and a version without a live holder before it is written fails it (R356, R358). -/
def Tray.writersLost (t : Tray) (slot i : Nat) : Tray :=
  match t.openCensus slot with
  | none => t
  | some c =>
    let one := fun (v : Version) => if v.writer = some i && v.written.isNone then { v with writer := t.writerOf slot c v, former := v.former ++ [i] } else v
    let c' := { c with pairs := c.pairs.map (fun (p : Pair) => { p with versions := p.versions.map one }) }
    let moved := (c.pairs.zip c'.pairs).flatMap (fun e => (e.1.versions.zip e.2.versions).filterMap (fun x =>
      if x.1.writer = x.2.writer then none else x.2.writer.map (fun j => (e.1.group, e.1.chunk, j))))
    let t := (t.setCensus slot c').sendChoices c' (moved.map (fun m => (m.2.2, m.2.1, 1)))
    (moved.foldl (fun (v : Tray) m => v.blk (fun u => u.report rkWriterReplaced (.slot slot)
      (pay [fd 0x24 4 (shownGroup m.1), fd 0x28 4 m.2.1, fd 0x2C 4 (c.leaf m.2.2).toNat]))) t).failIfLost slot

/-- A member's liveness as its parent or its alternate sees it changes at the census holder. -/
def Tray.holderChange (t : Tray) (slot : Nat) (leaf : W32) (alt : Bool) (state : Nat) : Tray :=
  let was := t.liveOf slot leaf
  let t := t.setView slot leaf alt state
  let gone := decide (t.liveOf slot leaf = 2) && decide (was ≠ 2)
  let warn := fun (v : Tray) (c? : Option Census) => match c? with
    | some c => (match c.place leaf with | some i => if gone then v.thinWarn slot c i else v | none => v)
    | none => v
  let j := t.jslot slot
  let t := warn t (t.openCensus slot)
  let t := warn t j.kept
  let t := match (t.openCensus slot).bind (fun c => c.place leaf) with
    | some i => if gone then t.writersLost slot i else t
    | none => t
  let t := match j.kept.bind (fun c => c.place leaf) with
    | some i => if gone then t.sourceLost slot i else t
    | none => t
  t.censusGo slot

/-- A holder state report of a leaf comes from its alternate: from the child that its start names as one. -/
def Tray.fromAlt (t : Tray) (link : Option Nat) (job leaf : W32) : Bool :=
  match link with
  | none => false
  | some l => ((t.descs.filter (fun x => x.job = job)).flatMap (fun x => dLeaves x.bytes)).any (fun e =>
      e.leaf = leaf && e.alt = (t.u.treeAt l).node && e.parent ≠ (t.u.treeAt l).node)

/-- HOLDER_STATE_REPORT: a body of type 4, from a link or given as it is. -/
def Tray.holderReport (t : Tray) (link : Option Nat) (b : List Byte) : Tray :=
  let each := fun (f : Tray → W32 → Bool → Nat → Tray) => (List.range (bCount b)).foldl (fun (v : Tray) i =>
    let leaf : W32 := bv (numAt b (16 + 8 * i) 4)
    f v leaf (v.fromAlt link (bJob b) leaf) (numAt b (20 + 8 * i) 1)) t
  match t.censusSlot (bJob b) with
  | some s => each (fun v leaf alt state => v.holderChange s leaf alt state)
  | none => (match t.slotOfJob (bJob b) with
    | some s => each (fun v leaf alt state => v.setView s leaf alt state)
    | none => t).bulkUp b

/-- A level-1 node's own view of a member (R353): the ingest binding of its job's leaf slot, and the state of the die. -/
def Tray.ownLive (t : Tray) (slot lslot : Nat) (leaf : W32) : Nat :=
  let ring := (t.ringOf 0 lslot leaf).isSome
  let h := smGet t.hlt slot HSlot.reset
  let hp := t.u.rf (inst R.HLT_SCFG slot) 0 10
  let die := (t.pset hp).bind (fun s => (pMemberOf s.desc leaf).bind (fun m => smGet? h.dies m))
  match die.map Die.state with
  | some .expelled => 2
  | some .contained => if ring then 1 else 2
  | some .held => if ring then 1 else 2
  | _ => if ring then 0 else 2

/-- The members of a slot's job at a level-1 node: the leaves of its start that name the node, each with its leaf slot and whether the node is only its
alternate. -/
def Tray.jobLeaves (t : Tray) (slot : Nat) : List (W32 × Nat × Bool) :=
  let job := (t.u.step slot).job
  ((t.descs.filter (fun x => x.job = job && x.applied && (x.kind = 0 || x.kind = 4))).flatMap (fun x =>
    ((dLeaves x.bytes).filter (fun e => e.parent = t.node || e.alt = t.node)).map (fun e => (e.leaf, dLslot x.bytes, decide (e.parent ≠ t.node))))).dedup

/-- A level-1 node reports every change of liveness or eligibility as it happens (R353). -/
def Tray.liveCheck (t : Tray) : Tray :=
  if t.u.idn.role ≠ 1 then t
  else ((List.range 64).filter t.slotOn).foldl (fun (v : Tray) s =>
    (v.jobLeaves s).foldl (fun (v : Tray) e =>
      let leaf := e.1
      let now := v.ownLive s e.2.1 leaf
      if now = v.seenBy s leaf e.2.2 then v
      else
        let job := (v.u.step s).job
        match v.censusSlot job with
        | some cs => if cs = s then v.holderChange s leaf e.2.2 now else v
        | none =>
          let v := v.setView s leaf e.2.2 now
          v.bulkUp (bulkBody 4 job 0 0 0 [leBytes 4 leaf.toNat ++ leBytes 4 now])) v) t

/-! ### Written and copied reports (R357, R361) -/

/-- A member of a census whose leaf number has these low 24 bits, as written and copied reports carry it. -/
def Census.placeLow (c : Census) (leaf : Nat) : Option Nat := (List.range c.count).find? (fun i => (c.leaf i).toNat % 2 ^ 24 = leaf)

/-- WRITTEN_REPORT: a body of type 5, its leaf filled in: it counts from a chunk's current or a former writer (R356, R357). -/
def Tray.writtenReport (t : Tray) (b : List Byte) : Tray :=
  match t.censusSlot (bJob b) with
  | none => t.bulkUp b
  | some s =>
    match t.openCensus s with
    | none => t.stale s (bCount b)
    | some c =>
      if c.step ≠ bStep b || c.epoch ≠ bEpoch b then t.stale s (bCount b)
      else match c.placeLow (bLeaf b) with
        | none => t.stale s (bCount b)
        | some i =>
          let chunks := (List.range (bCount b)).map (fun k => numAt b (16 + 8 * k) 4)
          let one := fun (v : Version) => if v.written.isNone && (v.writer = some i || v.former.contains i) then { v with written := some i } else v
          let c := { c with pairs := c.pairs.map (fun (p : Pair) => if chunks.contains p.chunk then { p with versions := p.versions.map one } else p) }
          (t.setCensus s c).censusCheck s

/-- COPIED_REPORT: a body of type 6 from the spare (R361). When every chunk has been reported the spare takes old's rank in the retained census. -/
def Tray.copiedReport (t : Tray) (b : List Byte) : Tray :=
  match t.censusSlot (bJob b) with
  | none => t.bulkUp b
  | some s =>
    match (t.jslot s).plan, (t.jslot s).kept with
    | some p, some c =>
      if p.spare.toNat % 2 ^ 24 ≠ bLeaf b || p.ready || c.step ≠ bStep b || c.epoch ≠ bEpoch b then t.stale s (bCount b)
      else
        let es := (List.range (bCount b)).map (fun k => (numAt b (16 + 8 * k) 4, Nat.testBit (numAt b (20 + 8 * k) 1) 0))
        let d := (es.filter (fun e => (smGet? p.src e.1).isSome)).foldl (fun (m : SMap Bool) e => smPut m e.1 e.2) p.done
        let p := { p with done := d }
        if p.src.length ≤ d.length then
          let rest := (d.filter (fun e => e.2)).length
          let o := 128 + 64 * dNmem c.desc + 16 * p.old
          let old := c.leaf p.old
          let c := { c with desc := overlay c.desc o (leBytes 4 p.spare.toNat) }
          let t := t.setJslot s { t.jslot s with plan := some { p with ready := true }, kept := some c }
          let t := (t.setView s old false 2).setView s old true 2
          t.blk (fun u => u.report rkSpareReady (.slot s) (pay [fd 0x24 4 p.spare.toNat, fd 0x28 4 (d.length - rest), fd 0x2C 4 rest]))
        else t.setJslot s { t.jslot s with plan := some p }
    | _, _ => t.stale s (bCount b)

/-! ### Opening (R352, R360) -/

/-- Regions of LPDDR5X overlap. -/
def overlaps (a n b m : Nat) : Bool := decide (a < b + m) && decide (b < a + n) && decide (n ≠ 0) && decide (m ≠ 0)

/-- Why a checkpoint descriptor is refused (R352). -/
def Tray.checkpointBad (t : Tray) (slot : Nat) (d : List Byte) : Option Fail :=
  let need := dNchunk d * ((dGroups d).map (fun g => 32 + 32 * g.2.length)).sum
  let kept := match (t.jslot slot).kept with | some c => overlaps (dCreg d) (dClen d) (dCreg c.desc) (dClen c.desc) | none => false
  if (t.openCensus slot).isSome then some (6, 0)
  else if dClen d < need || kept || overlaps (dCreg d) (dClen d) (65536 * t.u.rf R.JOB_CBASE 0 16) (65536 * t.u.rf R.JOB_CSIZE 0 16) then some (7, 0x0603)
  else none

/-- A checkpoint descriptor opens the census. -/
def Tray.openCheckpoint (t : Tray) (slot : Nat) (d : List Byte) : Tray :=
  t.setCensus slot ⟨dJob d, dStep d, (t.u.step slot).epoch, d, [], [], [], [], [], t.u.clk.ival, none, false⟩

/-- The chunks of a member in the retained census. -/
def Census.chunksHeld (c : Census) (i : Nat) : List Nat :=
  (c.pairs.filter (fun p => p.versions.any (fun v => v.holders.contains i))).map Pair.chunk

/-- Why a spare descriptor is refused (R360). -/
def Tray.spareBad (t : Tray) (slot : Nat) (d : List Byte) : Option Fail :=
  match (t.jslot slot).kept with
  | none => some (7, 0x0605)
  | some c => match c.place (dOld d) with
    | none => some (7, 0x0605)
    | some i => if dHlen d < 8 * (c.chunksHeld i).length then some (7, 0x0603) else none

/-- A spare descriptor writes the plan (R360). -/
def Tray.openSpare (t : Tray) (slot : Nat) (d : List Byte) : Tray :=
  match (t.jslot slot).kept with
  | none => t
  | some c => match c.place (dOld d) with
    | none => t
    | some i =>
      let src := (c.chunksHeld i).foldl (fun (m : SMap (Option Nat)) k => smPut m k (t.sourceOf slot c i k)) []
      let p : Spare := ⟨i, dSpare d, dHbuf d, src, [], false, []⟩
      let fb := (src.filter (fun e => e.2.isNone)).length
      let t := ((t.setJslot slot { t.jslot slot with plan := some p }).planWrite slot (src.map (·.1))).blk (fun u => if fb = 0 then u else u.cause 0x2B 0 4)
      t.blk (fun u => u.report rkSparePlan (.slot slot) (pay [fd 0x24 4 (dOld d).toNat, fd 0x28 4 (dSpare d).toNat, fd 0x2C 4 fb]))

/-! ### Fingerprint frames (R154, R354) -/

/-- A fingerprint frame of a leaf: its entries, or its torn mark, become a census report. -/
def Tray.fprFrame (t : Tray) (b : List Byte) : Tray :=
  let leaf : W32 := bv (numAt b 0x28 4)
  let job : W32 := bv (numAt b 4 4)
  let torn := Nat.testBit (numAt b 1 1) 6
  let ok := decide (numAt b 0x3C 4 = (crc32c (overlay b 0x3C [0, 0, 0, 0])).toNat)
  if !ok then t.blk (fun u => (u.bump R.ING_CRCERR).cause 0x21 0 2)
  else
    let t := { t with snaps := smPut t.snaps leaf.toNat (bv (numAt b 0xC 4)) }
    let n := if torn then 1 else numAt b 2 2
    let entry := fun (i : Nat) =>
      let o := 0x40 + 48 * i
      if torn then layout 48 [fd 0 4 leaf.toNat, fd 4 4 0xFFFFFFFF, fd 0xC 1 2]
      else layout 16 [fd 0 4 leaf.toNat, fd 4 4 (numAt b o 4), fd 8 4 (numAt b (o + 4) 4), fd 0xC 1 (numAt b (o + 8) 1 % 2)] ++ bytesAt b (o + 0x10) 32
    let body := bulkBody 3 job (bv (numAt b 0x10 4)) (bv (numAt b 0x18 1)) 0 ((List.range n).map entry)
    match t.censusSlot job with
    | none => if n = 0 then t else t.bulkUp body
    | some s =>
      let nchunk := numAt b 0x1C 4
      let t := match t.openCensus s with
        | some c => (match (if c.step = bStep body && c.epoch = bEpoch body then c.place leaf else none) with
          | some i =>
            if dNchunk c.desc < nchunk then t.setCensus s { c with absent := if c.absent.contains i then c.absent else c.absent ++ [i] }
            else t.setCensus s { c with most := smPut c.most i nchunk }
          | none => t)
        | none => t
      t.censusReport body

end Sys2Proof.Machine
end

