-- ==== Sys2Proof/Machine/TrayJobs.lean ====
section
/-!
DEFINITION. START, the start broadcast with its hop timers, leaf acknowledgements, and teardown (spec/16_job_continuity.md, R338 to R348).
-/

namespace Sys2Proof.Machine

def rkOrphaned : RecKind := rk 0x2B 0x0003 3 .always
def rkNotAttached : RecKind := rk 0x2B 0x0004 2 .always
def rkTeardownDone : RecKind := rk 0x2B 0x0007 1 .always

/-- `JOB.HOPTO`, 0 acting as 1. -/
def Tray.hopTo (t : Tray) : Nat := usIv (max 1 (t.u.rf R.JOB_HOPTO 0 16))

/-- The next broadcast number of a job (R343). -/
def Tray.nextBseq (t : Tray) (job : W32) : Tray × W32 :=
  let b := smGet t.bseqs job.toNat 0 + 1
  ({ t with bseqs := smPut t.bseqs job.toNat b }, b)

/-- Start cache in use, in 64 KiB units (R345). -/
def Tray.cacheUse (t : Tray) : Nat := ((t.descs.filter (fun x => x.cell.isSome)).map Desc.units).sum

/-- A descriptor takes the lowest run of units of the start cache that is free; none where it does not fit (R345). -/
def Tray.cacheRun (t : Tray) (x : Desc) : Option Nat :=
  let size := t.u.rf R.JOB_CSIZE 0 16
  (List.range size).find? (fun i => decide (i + x.units ≤ size) && t.descs.all (fun y => match y.cell with
    | some c => decide (i + x.units ≤ c) || decide (c + y.units ≤ i)
    | none => true))

/-- A descriptor is stored in the start cache at a run of units. -/
def Tray.cacheStore (t : Tray) (x : Desc) (cell : Option Nat) : Tray :=
  let t := match cell with | some c => t.wroteBytes 0 (t.cacheAddr c) x.bytes.length | none => t
  { t with descs := t.descs.filter (fun (y : Desc) => !(y.job = x.job && decide (y.bseq = x.bseq))) ++ [{ x with cell := cell }] }

/-- A descriptor is read from the start cache; one with a poisoned word is treated as absent (R386). -/
def Tray.cacheRead (t : Tray) (x : Desc) : Tray × Bool :=
  match x.cell with
  | none => (t, true)
  | some c =>
    let r := t.readBytes 0 (t.cacheAddr c) x.bytes.length
    if r.2 then ({ r.1 with descs := r.1.descs.filter (fun (y : Desc) => !(y.job = x.job && decide (y.bseq = x.bseq))) }, false) else (r.1, true)

/-! ### Parts -/

/-- The part messages of a descriptor: sub 0, with the resent flag where it is. -/
def partMsgs (x : Desc) (resent : Bool) : List StartMsg :=
  (x.parts.map (·.2)).zipIdx 0 |>.map (fun e =>
    ⟨0, bv resent.toNat, bv e.2, bv x.nparts, x.job, x.bseq, x.txid, bv (dLslot x.bytes), dEpoch x.bytes, 0, 0, 0, e.1⟩)

/-- The parts of a descriptor go to a child: in the control queue, or for a teardown as bulk bodies of type 1 (R348). -/
def Tray.sendParts (t : Tray) (x : Desc) (l : Nat) (resent : Bool) : Tray :=
  (partMsgs x resent).foldl (fun (v : Tray) m => v.blk (fun u =>
    if x.kind = 1 then u.sendMsg l 6 7 (leBytes 4 1 ++ m.rest) else u.sendCtl l 6 m.rest)) t

/-- The parts go to every child T build, and a hop timer starts for each (R342, R344). -/
def Tray.broadcast (t : Tray) (x : Desc) : Tray :=
  let kids := t.childTrays
  let t := kids.foldl (fun (v : Tray) l => v.sendParts x l false) t
  let hops := kids.foldl (fun (m : SMap Hop) l => smPut m l ⟨t.u.clk.ival, none, false, none, 0⟩) []
  t.modDesc x.job x.bseq (fun y => { y with hops := hops })

/-- A hop acknowledgement (sub 1): upward for a start, as a bulk body of type 2 for a teardown. -/
def Tray.hopAck (t : Tray) (l kind : Nat) (job bseq txid : W32) (status : Nat) (covers : Option W32) : Tray :=
  let m : StartMsg := ⟨1, bv (4 * covers.isSome.toNat), 0, 0, job, bseq, txid, 0, 0, bv status, covers.getD 0, 0, []⟩
  t.blk (fun u => if kind = 1 then u.sendMsg l 6 7 (leBytes 4 2 ++ m.rest) else u.sendCtl l 6 m.rest)

/-! ### Orphans (R344, R346) -/

/-- A child's subtree is orphaned: its vote counts as no unless an alternate covers it. -/
def Tray.orphan (t : Tray) (x : Desc) (l : Nat) (status : Nat) : Tray :=
  let t := t.modDesc x.job x.bseq (fun y => { y with hops := smMod y.hops l (fun h => { h with orphan := true }) })
  let t := t.blk (fun u => (u.cause 0x2B 0 0).report rkOrphaned .dflt
    (pay [fd 0x24 4 x.job.toNat, fd 0x28 4 (u.treeAt l).node.toNat, fd 0x2C 4 status]))
  t.tryVote x.job x.txid

/-- HOP_ACKNOWLEDGEMENT: a child has the whole descriptor, or its start cache is full; with flags [2] an alternate covers the orphan it names. -/
def Tray.hopAcked (t : Tray) (l : Nat) (m : StartMsg) : Tray :=
  match t.desc m.job m.bseq with
  | none => t
  | some x =>
    if bit m.flags 2 then
      match t.childOf m.leaf with
      | none => t
      | some c =>
        (t.modDesc x.job x.bseq (fun y => { y with hops := smMod y.hops (c + 2) (fun h => { h with covered := some l }) })).tryVote x.job x.txid
    else match smGet? x.hops l with
      | none => t
      | some h =>
        if h.orphan || h.ack.isSome then t
        else
          let t := t.modDesc x.job x.bseq (fun y => { y with hops := smMod y.hops l (fun h => { h with ack := some m.status.toNat }) })
          if m.status = 1 then t.orphan x l 1 else t

/-- HOP_TIMEOUT: no hop acknowledgement of a start within `JOB.HOPTO`. -/
def Tray.hopTimeout (t : Tray) (job bseq : W32) (l : Nat) : Tray :=
  match t.desc job bseq with
  | none => t
  | some x => match smGet? x.hops l with
    | none => t
    | some h => if h.ack.isSome || h.orphan || x.kind = 1 then t else (t.blk (fun u => u.toIv (h.sentAt + t.hopTo))).orphan x l 0xFFFFFFFF

/-! ### Starts at a node (R342 to R345) -/

/-- The alternate parent tells its own parent which orphans it covers for a start (R346): those whose leaves it has admitted. -/
def Tray.coverOrphans (t : Tray) (x : Desc) : Tray :=
  if t.u.idn.role ≠ 1 then t
  else ((((dLeaves x.bytes).filter t.adopts).map LeafRow.parent).dedup).foldl (fun (v : Tray) p =>
    v.hopAck v.u.parentLink 0 x.job x.bseq x.txid 0 (some p)) t

/-- A node that holds the whole descriptor of a start or replay validates it, and votes when its children have (R342); `again` tells that it is sent once more
to a node that a reset took the transaction from (R226). -/
def Tray.startHere (t : Tray) (x : Desc) (parent : Nat) (dead : W64) (queue : Option Nat) (again : Bool) : Tray :=
  let d := x.bytes
  let inv := queue.isSome || t.involved d
  let v := if inv then t.validateStart d else (some (5, 0), [])
  let n := { newNode x.job x.txid (dMode d) (dQuorumPolicy d) (dQuorum d) dead (dPoint d) parent 1 with
    queue := queue, got := [(0, (dMembers d).map (fun m => if levelIn m t.u.idn.role then t.withDesc m else m))],
    own := inv && v.1.isNone, inv := inv, slot := t.slotOfJob x.job, replay := again, start := true }
  let t := { t with nodes := t.nodes.filter (fun (y : TxNode) => !(y.job = x.job && decide (y.txid = x.txid))) ++ [n] }
  let t := if inv then (t.startMembers d).foldl (fun (w : Tray) m => w.checkReads m (v.1.orElse (fun _ => none))) t else t
  let t := t.modDesc x.job x.bseq (fun y => { y with deferred := v.2 })
  if queue.isSome then t else (t.coverOrphans x).tryVote x.job x.txid

/-- A part of a start is stored; the last one makes the descriptor whole (R342, R345). -/
def Tray.startPartInto (t : Tray) (link : Nat) (m : StartMsg) (x : Desc) : Tray :=
  let x := { x with parts := smPut x.parts m.part.toNat m.data }
  let x := { x with kind := if x.complete then dType x.bytes else x.kind }
  let rest := t.descs.filter (fun (y : Desc) => !(y.job = m.job && decide (y.bseq = m.bseq)))
  if !x.complete then { t with descs := rest ++ [x] }
  else match t.cacheRun x with
  | none => ({ t with descs := rest }).hopAck link 0 m.job m.bseq m.txid 1 none
  | some c =>
    let t := ((t.cacheStore x (some c)).hopAck link 0 m.job m.bseq m.txid 0 none).broadcast x
    t.startHere x link (t.u.clk.ns + BitVec.ofNat 64 (dWindow x.bytes * 1000)) none false

/-- A node holds a whole descriptor of a job that is later than a broadcast number (R343, compared as R36 compares steps). -/
def Tray.laterHeld (t : Tray) (job bseq : W32) : Bool := t.descs.any (fun x => x.job = job && x.complete && stepAfter x.bseq bseq)

/-- A resent copy of a descriptor whose transaction a reset took from the node: it is validated and voted on again, for the commit that follows (R226, R342). -/
def Tray.startAgain (t : Tray) (link : Nat) (m : StartMsg) (x : Desc) : Tray :=
  if bit m.flags 0 && (t.txNode x.job x.txid).isNone then
    t.startHere x link (t.u.clk.ns + BitVec.ofNat 64 (dWindow x.bytes * 1000)) none true
  else t

/-- START_PART: a part of a start or replay descriptor from the parent, or from an alternate parent. One that an applied later descriptor of the job has
overtaken is acknowledged and has no effect (R343). -/
def Tray.startPart (t : Tray) (link : Nat) (m : StartMsg) : Tray :=
  let new : Desc := ⟨0, m.job, m.bseq, m.txid, m.parts.toNat, [], false, none, [], [], [], none, false, false, none⟩
  match t.desc m.job m.bseq with
  | some x =>
    if !x.complete then t.startPartInto link m x
    else
      let r := t.cacheRead x
      if r.2 then (r.1.hopAck link 0 m.job m.bseq m.txid 0 none).startAgain link m x else r.1.startPartInto link m new
  | none => if t.laterHeld m.job m.bseq then t.hopAck link 0 m.job m.bseq m.txid 0 none else t.startPartInto link m new

/-! ### Leaf acknowledgements (R340) -/

/-- A leaf is not attached. -/
def Tray.notAttached (t : Tray) (x : Desc) (leaf : W32) (status : Nat) : Tray :=
  let t := t.modDesc x.job x.bseq (fun y => { y with leaves := smMod y.leaves leaf.toNat (fun a => { a with noted := true }) })
  t.blk (fun u => u.report rkNotAttached .dflt (pay [fd 0x24 4 x.job.toNat, fd 0x28 4 leaf.toNat, fd 0x2C 4 status]))

/-- LEAF_ACKNOWLEDGEMENT (sub 3). -/
def Tray.leafAcked (t : Tray) (m : StartMsg) : Tray :=
  match t.desc m.job m.bseq with
  | none => t
  | some x => match smGet? x.leaves m.leaf.toNat with
    | none => t
    | some a =>
      let t := t.modDesc m.job m.bseq (fun y => { y with leaves := smMod y.leaves m.leaf.toNat (fun a => { a with status := some m.status.toNat }) })
      if m.status = 0 || a.noted then t else t.notAttached x m.leaf m.status.toNat

/-- LEAF_NOT_ATTACHED: a leaf has not acknowledged within `JOB.HOPTO`. -/
def Tray.leafTimeout (t : Tray) (job bseq leaf : W32) : Tray :=
  match t.desc job bseq with
  | none => t
  | some x => match smGet? x.leaves leaf.toNat with
    | none => t
    | some a => if a.status.isSome || a.noted then t else (t.blk (fun u => u.toIv (a.sentAt + t.hopTo))).notAttached x leaf 0xFFFFFFFF

/-- An adopted leaf is admitted (R346): the leaf attach goes to it again from the start cache, and the parent hears which orphan is covered. -/
def Tray.adoptLeaf (t : Tray) (leaf : W32) : Tray :=
  t.descs.foldl (fun (v : Tray) x =>
    match (dLeaves x.bytes).find? (fun e => e.leaf = leaf && e.alt = v.node && e.parent ≠ v.node) with
    | none => v
    | some e =>
      let r := v.cacheRead x
      if x.kind = 1 then v
      else if !r.2 then r.1
      else
        let v := r.1
        let v := if x.applied then v.attachLeaf x leaf true else v
        v.hopAck v.u.parentLink 0 x.job x.bseq x.txid 0 (some e.parent)) t

/-! ### Teardown (R348) -/

/-- What is left of a teardown's members runs in order: a member that fails has no effect; one that is busy behind a PFREE that waits for its harvests waits for
it (DEDUCED, log 126), and those behind it with it. Answered is what still waits. -/
def Tray.teardownRun (t : Tray) (waiting : Tray → Bool) : List (List Byte) → Tray × List (List Byte)
  | [] => (t, [])
  | m :: r =>
    let c := t.checkCmd m
    if notMember (cOp m) then t.teardownRun waiting r
    else match c with
      | none => (t.applyMembers noQueue [m] .order false false).teardownRun waiting r
      | some f => if f.1 = 6 && waiting t then (t, m :: r) else t.teardownRun waiting r

/-- Pan sets of a teardown's PFREE members that are still freeing. -/
def Tray.stillFreeing (t : Tray) (x : Desc) : Bool :=
  (t.ofLevel (dMembers x.bytes)).any (fun m => cOp m = 0x21 && (match t.pset (numAt m 0x1C 2) with | some s => s.freeing.isSome | none => false))

/-- A teardown goes on: members that waited run, and "teardown done" is written once the PFREE members have ended. -/
def Tray.teardownCheck (t : Tray) : Tray :=
  t.descs.foldl (fun (v : Tray) x =>
    let r := if x.kind = 1 && x.applied && !x.deferred.isEmpty then v.teardownRun (fun w => w.stillFreeing x) x.deferred else (v, x.deferred)
    let v := if r.2 = x.deferred then r.1 else r.1.modDesc x.job x.bseq (fun y => { y with deferred := r.2 })
    if x.kind = 1 && x.applied && !x.forced && r.2.isEmpty && !v.stillFreeing x then
      let v := v.modDesc x.job x.bseq (fun y => { y with forced := true })
      v.blk (fun u => u.report rkTeardownDone .dflt (pay [fd 0x24 4 x.job.toNat, fd 0x28 4 x.bseq.toNat]))
    else v) t

/-- A node that holds the whole teardown applies its members in order and detaches its leaves. It is the last descriptor that the job's slot applied (R364).
The job's descriptors leave the start cache (R345). -/
def Tray.teardownHere (t : Tray) (x : Desc) : Tray :=
  let d := x.bytes
  let t := match t.slotOfJob x.job with
    | some s => t.setJslot s { t.jslot s with bseq := x.bseq }
    | none => t
  let r := t.teardownRun (fun w => w.stillFreeing x) (t.ofLevel (dMembers d))
  let t := r.1
  let t := if t.u.idn.role = 1 then (dLeaves d).foldl (fun (v : Tray) e =>
      if e.parent = v.node || e.alt = v.node then
        match v.leafLink e.leaf with
        | some l => v.blk (fun u => u.sendCtl l 6 (leafMsg 4 0 x d e.leaf).rest)
        | none => v
      else v) t else t
  let t := { t with descs := t.descs.filter (fun y => !(y.job = x.job && (y.kind = 0 || y.kind = 4))) }
  (t.modDesc x.job x.bseq (fun y => { y with applied := true, deferred := r.2 })).teardownCheck

/-- TEARDOWN_PART: a teardown part in a bulk body of type 1. -/
def Tray.teardownPart (t : Tray) (link : Nat) (m : StartMsg) : Tray :=
  let x := match t.desc m.job m.bseq with
    | some x => x
    | none => ⟨1, m.job, m.bseq, m.txid, m.parts.toNat, [], false, none, [], [], [], none, false, false, none⟩
  if x.complete || t.laterHeld m.job m.bseq then t.hopAck link 1 m.job m.bseq m.txid 0 none
  else
    let x := { x with parts := smPut x.parts m.part.toNat m.data }
    let t := { t with descs := t.descs.filter (fun y => !(y.job = m.job && decide (y.bseq = m.bseq))) ++ [x] }
    if !x.complete then t else ((t.hopAck link 1 m.job m.bseq m.txid 0 none).broadcast x).teardownHere x

/-- TEARDOWN_RESEND: a child's hop acknowledgement of a teardown is missing after `HOPTO`: the parts go again, at most `LNK.RETRY` times, and then the
child is orphaned. -/
def Tray.teardownResend (t : Tray) (job bseq : W32) (l : Nat) : Tray :=
  match t.desc job bseq with
  | none => t
  | some x => match smGet? x.hops l with
    | none => t
    | some h =>
      if h.ack.isSome || h.orphan || x.kind ≠ 1 then t
      else
        let t := t.blk (fun u => u.toIv (h.sentAt + t.hopTo))
        if h.resent < t.u.retryMax then
          (t.sendParts x l true).modDesc job bseq (fun y => { y with hops := smMod y.hops l (fun h => { h with resent := h.resent + 1, sentAt := t.u.clk.ival }) })
        else t.orphan x l 0xFFFFFFFF

/-! ### START (R338) -/

/-- START: the descriptor is validated whole, then its operation begins. -/
def Tray.startGo (t : Tray) (q : Nat) : Tray :=
  let r := t.take q 0x51
  match r.2 with
  | none => r.1
  | some f =>
    let bad := r.1.checkCmd f.body
    let t := r.1.checkReads f.body bad
    match bad with
    | some e => t.finish q e.1 e.2 0 false
    | none =>
        let d := t.cmdDesc f.body
        let job := dJob d
        match dType d with
        | 2 => match t.slotOfJob job with
          | none => t.finish q 5 0 0 false
          | some s => match t.checkpointBad s d with
            | some e => t.finish q e.1 e.2 0 false
            | none => (t.openCheckpoint s d).finish q 0 0 0 false
        | 3 => match t.slotOfJob job with
          | none => t.finish q 7 0x0605 0 false
          | some s => match t.spareBad s d with
            | some e => t.finish q e.1 e.2 0 false
            | none => (t.openSpare s d).finish q 0 0 0 false
        | ty =>
          if ty ≠ 1 && (t.txNode job (dTxid d)).isSome then t.finish q 10 0 0 false
          else
            let b := t.nextBseq job
            let parts := (dParts d).zipIdx 0 |>.foldl (fun (m : SMap (List Byte)) e => smPut m e.2 e.1) []
            let x : Desc := ⟨ty, job, b.2, dTxid d, parts.length, parts, true, some q, [], [], [], none, false, false, none⟩
            let t := b.1.cacheStore x (if ty = 1 then none else b.1.cacheRun x)
            if ty = 1 then ((t.broadcast x).teardownHere x).finish q 0 0 0 false
            else
              let t := (t.setPhase q .waiting).broadcast x
              t.startHere x 0xFFFF (t.u.clk.ns + BitVec.ofNat 64 (dWindow d * 1000)) (some q) false

/-- A start message for a T build (R342). -/
def Tray.startMessage (t : Tray) (link : Nat) (m : StartMsg) : Tray :=
  match m.sub.toNat with
  | 0 => t.startPart link m
  | 1 => t.hopAcked link m
  | 3 => t.leafAcked m
  | _ => t.blk (fun u => u.unknownControl 6)

/-- A bulk body (R353, R354): written and copied reports take the leaf number from the link they arrive on. -/
def Tray.bulk (t : Tray) (link : Nat) (b : List Byte) : Tray :=
  let e := t.u.treeAt link
  let b := if (bType b = 5 || bType b = 6) && bit e.attr 29 then overlay b 0xD (leBytes 3 e.node.toNat) else b
  match bType b with
  | 1 => t.teardownPart link (StartMsg.read b)
  | 2 => t.hopAcked link (StartMsg.read b)
  | 3 => t.censusReport b
  | 4 => t.holderReport (some link) b
  | 5 => t.writtenReport b
  | 6 => t.copiedReport b
  | _ => t

end Sys2Proof.Machine
end

