-- ==== Sys2Proof/Machine/TrayHealth.lean ====
section
/-!
DEFINITION. Health units, job-wide references, containment from the T build's side, and expulsion (spec/13_health_containment.md, R276 to R301).
-/

namespace Sys2Proof.Machine

/-! ### Records (R302) -/

def rkDieWatch : RecKind := rk 0x2A 0x0001 1 .bySeverity
def rkDieContained : RecKind := rk 0x2A 0x0002 2 .always
def rkDieReleased : RecKind := rk 0x2A 0x0003 1 .always
def rkNoWitness : RecKind := rk 0x2A 0x0004 2 .bySeverity
def rkDieHeld : RecKind := rk 0x2A 0x0005 3 .always
def rkDieExpelled : RecKind := rk 0x2A 0x0006 3 .always
def rkUnacked : RecKind := rk 0x2A 0x0007 3 .always
def rkDieUnheld : RecKind := rk 0x2A 0x0008 1 .bySeverity
def rkHealthRestored : RecKind := rk 0x2A 0x0009 1 .bySeverity
def rkRefIgnored : RecKind := rk 0x2A 0x000A 2 .bySeverity
def rkBudgetTwice : RecKind := rk 0x2A 0x000B 3 .always

/-! ### The unit of a slot -/

def Tray.hs (t : Tray) (s : Nat) : HSlot := smGet t.hlt s HSlot.reset
def Tray.setHs (t : Tray) (s : Nat) (h : HSlot) : Tray := { t with hlt := smSet t.hlt s h HSlot.reset }
def Tray.die (t : Tray) (s m : Nat) : Die := smGet (t.hs s).dies m Die.reset
def Tray.setDie (t : Tray) (s m : Nat) (d : Die) : Tray := t.setHs s { t.hs s with dies := smPut (t.hs s).dies m d }

/-- The slot's `cq`, its enable and its budget bit. -/
def Tray.hcq (t : Tray) (s : Nat) : Nat := t.u.rf (inst R.HLT_SCFG2 s) 16 11
def Tray.hon (t : Tray) (s : Nat) : Bool := t.u.rb (inst R.HLT_SCFG s) 31
def Tray.hBudget (t : Tray) (s : Nat) : Bool := t.u.rb (inst R.HLT_SCFG s) 29

/-- The leaf of a member of the slot's health pan set. -/
def Tray.hleaf (t : Tray) (s m : Nat) : W32 := match t.pset (t.hpset s) with | some p => (pMember p.desc m).1 | none => 0

/-- A knot of a table: input 0 to 7, or 8 for the advice table. -/
def HSlot.knot (h : HSlot) (i k : Nat) : Int × Int := let e := smGet h.knots (i * 17 + k) (0, 0); (e.1.toInt, (e.2 : Int))

/-- A table of 17 knots (R287). -/
def HSlot.table (h : HSlot) (i : Nat) (x : Int) : Int :=
  let kx := fun (k : Nat) => (h.knot i k).1
  let ky := fun (k : Nat) => (h.knot i k).2
  if x ≤ kx 0 then ky 0
  else if kx 16 ≤ x then ky 16
  else
    let k := ((List.range 16).filter (fun k => decide (kx k ≤ x))).getLast?.getD 0
    ky k + (ky (k + 1) - ky k) * (x - kx k) / (kx (k + 1) - kx k)

/-! ### Enabling (R277) -/

/-- Level fields: enabled, ON, OFF, X, E. -/
def Tray.lvOn (t : Tray) (s l : Nat) : Bool := t.u.rb (inst (R.HLT_DWELL + 8 * l) s) 31
def Tray.lvOnAt (t : Tray) (s l : Nat) : Nat := t.u.rf (inst (R.HLT_LVL + 8 * l) s) 16 16
def Tray.lvOffAt (t : Tray) (s l : Nat) : Nat := t.u.rf (inst (R.HLT_LVL + 8 * l) s) 0 16
def Tray.lvX (t : Tray) (s l : Nat) : Nat := max 1 (t.u.rf (inst (R.HLT_DWELL + 8 * l) s) 8 8)
def Tray.lvE (t : Tray) (s l : Nat) : Nat := max 1 (t.u.rf (inst (R.HLT_DWELL + 8 * l) s) 0 8)

/-- A list ascends. -/
def ascends : List Nat → Bool
  | [] => true
  | [_] => true
  | a :: b :: r => decide (a < b) && ascends (b :: r)

def Tray.inputOn (t : Tray) (s i : Nat) : Bool := t.u.rb (hltIn R.HLT_ICFG s i) 31 && t.u.rf (hltIn R.HLT_ICFG s i) 24 3 ≠ 0

/-- A slot's unit may be enabled. -/
def Tray.healthOk (t : Tray) (s : Nat) : Bool :=
  let cq := t.hcq s
  let lv := [0, 1, 2].filter (t.lvOn s)
  t.slotOn s &&
  (match t.pset (t.hpset s) with | some p => decide (p.slot = s) && decide (pLevel p.desc = 1) && decide (pGrain p.desc = 0) | none => false) &&
  decide (cq < 1536) && decide (t.qf cq 28 2 = 1) && decide (t.qClass cq = 4) &&
  (List.range 8).all (fun i => !t.u.rb (hltIn R.HLT_ICFG s i) 31 || (List.range 16).all (fun k => decide (((t.hs s).knot i k).1 ≤ ((t.hs s).knot i (k + 1)).1))) &&
  ascends (lv.map (t.lvOnAt s)) && ascends (lv.map (t.lvOffAt s)) && lv.all (fun l => decide (t.lvOffAt s l ≤ t.lvOnAt s l)) &&
  (!t.lvOn s 2 || t.lvOn s 1)

/-- A containment message of a sub for a die (R292). -/
def Tray.ctnMsg (t : Tray) (sub kind arg : Nat) (s : Nat) (leaf rseq : W32) (status : Nat) : CtnMsg :=
  ⟨bv sub, bv kind, bv arg, (t.u.step s).job, leaf, rseq, (t.u.step s).idx, bv status, bv (t.hs s).r, t.node⟩

/-- A containment message that a step stands for: the evaluation's, or the grant decision's (R292). -/
def Tray.ctnOf (t : Tray) (k : W32) (sub kind arg : Nat) (s : Nat) (leaf rseq : W32) (status : Nat) : CtnMsg :=
  { t.ctnMsg sub kind arg s leaf rseq status with step := k }

/-- A message down every child T build. -/
def Tray.down (t : Tray) (code : Nat) (rest : List Byte) : Tray := t.childTrays.foldl (fun (v : Tray) l => v.blk (fun u => u.sendCtl l code rest)) t

/-- A state query to the leaf of a member (R295). -/
def Tray.queryDie (t : Tray) (s m : Nat) : Tray :=
  match t.leafLink (t.hleaf s m) with
  | some l => t.blk (fun u => u.sendCtl l 5 (t.ctnMsg 6 0 0 s (t.hleaf s m) 0 0).rest)
  | none => t

/-- Budget open with r = 0 goes to every child (R298, R300). -/
def Tray.sendBudgetOpen (t : Tray) (s : Nat) : Tray := t.down 5 { t.ctnMsg 5 0 0 s 0 0 0 with r := 0 }.rest

/-- A write of `HLT.SCFG` of a slot; HEALTH_ENABLE is the one that sets en. While en is 1 only its clearing acts; it discards the per-die state. -/
def Tray.scfgWrite (t : Tray) (s : Nat) (w : W32) : Tray :=
  let k := inst R.HLT_SCFG s
  if t.hon s then
    if bit w 31 then t
    else
      let h := t.hs s
      (t.blk (fun u => u.setRb k 31 false)).setHs s { h.kept with refs := h.refs }
  else
    let t := t.blk (fun u => u.setReg k (setBit (w &&& 0xFCFF03FF#32) 31 false))
    if !bit w 31 then t
    else if !t.healthOk s then t.blk (fun u => u.cause 0x2A 0 0)
    else
      let t := t.blk (fun u => u.setRb k 31 true)
      let n := match t.pset (t.hpset s) with | some p => pNmem p.desc | none => 0
      let t := t.setHs s { t.hs s with dies := (List.range n).map (fun m => (m, Die.reset)), vals := [], cuts := [] }
      let t := (List.range n).foldl (fun (v : Tray) m => v.queryDie s m) t
      if t.hBudget s then t.sendBudgetOpen s else t

/-- STATE_QUERY_ANSWER (R295): the die's next request is numbered from the last one its leaf applied (R321). -/
def Tray.queryAnswer (t : Tray) (m : CtnMsg) : Tray :=
  match t.slotOfJob m.job with
  | none => t
  | some s => match t.hmember s m.leaf with
    | none => t
    | some i =>
      if !t.hon s || (t.die s i).known then t
      else
        let st : DieState := if bit m.status 2 then .expelled else if bit m.status 0 || bit m.status 1 then .contained else .healthy
        let sw := !bit m.status 2 && (bit m.status 0 || bit m.status 1)
        let d := { t.die s i with known := true, state := st, sw := sw, lv := [], up := [], down := [], asked := none, askedAt := [], asks := [], rseq := m.rseq }
        (t.setDie s i d).blk (fun u => u.report rkHealthRestored (.slot s) (pay [fd 0x24 4 m.leaf.toNat, fd 0x28 1 st.code]))

/-! ### References (R279 to R281) -/

/-- A reference message's body after code and length. -/
def refRest (feature : Nat) (s : Int) (empty : Bool) (job step : W32) (value : Int) : List Byte :=
  layout 20 [fd 0 2 feature, fd 2 1 (BitVec.ofInt 8 s).toNat, fd 3 1 empty.toNat, fd 4 4 job.toNat, fd 8 4 step.toNat, fd 0xC 8 (BitVec.ofInt 64 value).toNat]

/-- In the cycle a harvest of a reference source's pan set is staged, its HIST readout goes to every child T build (R280). -/
def Tray.refSend (t : Tray) (h : Staged) : Tray :=
  (List.range 8).foldl (fun (v : Tray) r =>
    let k := R.HLT_REFSRC + 8 * r
    if v.u.rb k 31 && v.u.rf k 16 10 = h.pset then
      match v.pset h.pset with
      | none => v
      | some s =>
        let pan := v.u.rf k 0 10
        match blockAt h.bytes pan 1025 160 with
        | none => v
        | some o =>
          let e := pPan s.desc pan
          if e.type ≠ 4 then v
          else
            let b := o + 16 + 16 * 65
            let val : W64 := bv (numAt h.bytes (b + 8) 8)
            v.down 7 (refRest (v.u.rf (R.HLT_REFID + 8 * r) 0 14) e.s (Nat.testBit (numAt h.bytes (b + 2) 1) 0) (pJob s.desc) h.step val.toInt)
    else v) t

/-- Consumers of a feature in a slot, by their grids: CUSUM pans that take the reference, and the straggler index (R281). -/
def Tray.consumers (t : Tray) (s feature : Nat) : List Int :=
  ((t.psets.filter (fun e => e.2.slot = s)).flatMap (fun e =>
    ((pPans e.2.desc).filter (fun p => p.2.type = 6 && Nat.testBit p.2.flags 0 && p.2.feature = feature)).map (fun p => p.2.s))) ++
  (if t.hon s && t.u.rb (inst R.HLT_ARR s) 31 && t.u.rf (inst R.HLT_ARRF s) 0 13 = feature then [((t.u.reg (inst R.HLT_ARR s)).extractLsb' 16 8).toInt] else [])

/-- REFERENCE_MESSAGE: a reference for a job this node has a slot for is applied by the consumers of its grid and forwarded (R280, R281). -/
def Tray.refReceive (t : Tray) (body : List Byte) : Tray :=
  match t.slotOfJob (bv (numAt body 8 4)) with
  | none => t
  | some s =>
    let feature := numAt body 4 2
    let sb : Byte := bv (numAt body 6 1)
    let step : W32 := bv (numAt body 0xC 4)
    let value : W64 := bv (numAt body 0x10 8)
    let h := t.hs s
    let newer := h.refs.all (fun e => e.1 / 256 ≠ feature || stepAfter step e.2.step)
    let grids := t.consumers s feature
    let used := grids.contains sb.toInt
    let bad := grids.any (fun g => g ≠ sb.toInt)
    let t := if Nat.testBit (numAt body 7 1) 0 || !newer then t
      else
        let t := if used then t.setHs s { h with refs := smPut h.refs (refKey feature sb.toInt) ⟨sb.toInt, step, value.toInt⟩, refrx := h.refrx + 1 } else t
        if bad then (t.setHs s { t.hs s with refbad := satAdd h.refbad 1 0xFFFFFFFF }).blk (fun u => (u.cause 0x2A 0 4).report rkRefIgnored (.slot s)
          (pay [fd 0x24 2 feature, fd 0x26 1 sb.toNat])) else t
    t.down 7 (body.drop 4)

/-! ### Requests (R291, R292, R294) -/

/-- The unit appends a CONTAIN to its queue (R291), for an evaluation of step `k`. -/
def Tray.unitContain (t : Tray) (s m : Nat) (k : W32) (kind arg : Nat) : Tray :=
  let d := t.die s m
  let t := t.setDie s m { d with asks := d.asks ++ [k] }
  (t.produce (t.hcq s) (layout 64 [fd 0 1 0x52, fd 2 1 s, fd 0x10 4 (t.hleaf s m).toNat, fd 0x14 1 kind, fd 0x16 2 arg])).1

/-- The step that a die's grant request stood for. -/
def Tray.askedStep (t : Tray) (s m : Nat) : W32 := (t.die s m).asked.getD (t.u.step s).idx

/-- The oldest grant request of a die without an answer is answered. -/
def Tray.answered (t : Tray) (s m : Nat) : Tray := let d := t.die s m; t.setDie s m { d with askedAt := d.askedAt.tail }

/-- A die is held (R299). -/
def Tray.holdDie (t : Tray) (s m status : Nat) : Tray :=
  let k := t.askedStep s m
  let t := t.setDie s m { t.die s m with state := .held }
  let h := t.hs s
  let t := t.setHs s { h with lost := h.lost || decide (status = 3) }
  t.blk (fun u => (u.cause 0x2A 0 1).report rkDieHeld (.slot s)
    (pay [fd 0x24 4 (t.hleaf s m).toNat, fd 0x28 1 status, fd 0x2A 2 h.r, fd 0x2C 4 k.toNat]))

/-- A command is a CONTAIN of a slot for a leaf. -/
def containsLeaf (s : Nat) (leaf : W32) (b : List Byte) : Bool :=
  cOp b = 0x52 && decide ((bv (numAt b 0x10 4) : W32) = leaf) && decide (cSlot b = s)

/-- CONTAIN commands for a leaf in the ring of the slot's queue, those in flight apart. -/
def Tray.containsQueued (t : Tray) (s : Nat) (leaf : W32) : Nat :=
  let q := t.hcq s
  let c := t.queue q
  ((List.range c.held).filter (fun i => containsLeaf s leaf (t.brineBytes (ringByte q ((c.ci + i) % 1024)) 64))).length

/-- CONTAIN commands for a leaf that wait in the slot's queue: they are numbered before one that is appended now. -/
def Tray.containsAhead (t : Tray) (s : Nat) (leaf : W32) : Nat :=
  t.containsQueued s leaf + (match smGet? t.flights (t.hcq s) with | some f => (containsLeaf s leaf f.body && f.phase != .waiting).toNat | none => 0)

/-- The step that the unit's CONTAIN now taken from its queue stands for: of the steps of its requests that wait, the one ahead of those still in the
ring. -/
def Tray.takeAsk (t : Tray) (s m : Nat) : W32 × Tray :=
  let d := t.die s m
  let rest := t.containsQueued s (t.hleaf s m)
  let mine := d.asks.drop (d.asks.length - (rest + 1))
  (mine.head?.getD (t.u.step s).idx, t.setDie s m { d with asks := mine.tail })

/-- A die is expelled, and the request that says so is its next after `ahead` others. -/
def Tray.expelDie (t : Tray) (s m ahead : Nat) : Tray :=
  let d := t.die s m
  let k := t.askedStep s m
  let t := t.setDie s m { d with state := .expelled }
  t.blk (fun u => (u.cause 0x2A 0 2).report rkDieExpelled (.slot s)
    (pay [fd 0x24 4 (t.hleaf s m).toNat, fd 0x28 1 d.witness.toNat, fd 0x2C 4 k.toNat, fd 0x30 4 (d.rseq + BitVec.ofNat 32 (ahead + 1)).toNat]))

/-- A CONTAIN comes from a health unit: its queue's producer is one (R206). -/
def Tray.fromUnit (t : Tray) (q : Nat) (f : Flight) : Bool := decide (t.qf (f.member.getD q) 28 2 = 1)

/-- The containment request leaves for the leaf, and its command waits for the acknowledgement (R292). What software sets itself shows in the die's state
(R294). -/
def Tray.sendContain (t : Tray) (q : Nat) (f : Flight) (s m : Nat) : Tray :=
  let leaf : W32 := bv (numAt f.body 0x10 4)
  let kind := numAt f.body 0x14 1
  let unit := t.fromUnit q f
  match t.leafLink leaf with
  | none => t.finish q 5 0 0 false
  | some l =>
    let x := if unit then t.takeAsk s m else ((t.u.step s).idx, t)
    let t := x.2
    let d := { t.die s m with rseq := (t.die s m).rseq + 1 }
    let d := if unit then d
      else match kind with
        | 0 => { d with state := .healthy, sw := false, lv := [], up := [], down := [] }
        | 1 => { d with state := if d.state == .healthy || d.state == .watch then .contained else d.state, sw := true }
        | 2 => { d with state := if d.state == .healthy || d.state == .watch then .contained else d.state, sw := true }
        | _ => d
    let t := t.setDie s m d
    let t := t.blk (fun u => u.sendCtl l 5 (t.ctnOf x.1 0 kind (numAt f.body 0x16 2) s leaf d.rseq 0).rest)
    { t with flights := smPut t.flights q { f with phase := .waiting, aux := 2 + d.rseq.toNat, since := t.u.clk.ival } }

/-! ### Grants (R296 to R300) -/

/-- The budget holder judges a request: grant, or deny with a status; r rises at most once an interval (R297). -/
def Tray.judgeGrant (t : Tray) (s : Nat) : Tray × Nat :=
  let h := t.hs s
  let idx := (t.u.step s).idx
  let i := t.u.rf (inst R.HLT_BUDGET s) 16 16
  let room := decide ((h.g : Int) < (t.u.rf (inst R.HLT_SPARES s) 0 16 : Int) - (t.u.rf (inst R.HLT_BUDGET s) 0 16 : Int))
  let past : Option W32 → Bool := fun x => match x with | some k => decide ((i : Int) ≤ (idx - k).toInt) | none => true
  if room && past h.lastExp then (t.setHs s { h with g := h.g + 1, lastExp := some idx }, 0)
  else
    let h := if past h.raisedAt then { h with r := min 0xFFFF (h.r + 1), raisedAt := some idx } else h
    (t.setHs s h, if !room && past h.lastExp then 1 else 2)

/-- Software's CONTAIN for a die that waits for a grant. -/
def Tray.byHand (t : Tray) (s m : Nat) : Option (Nat × Flight) :=
  t.flights.find? (fun e => containsLeaf s (t.hleaf s m) e.2.body && e.2.phase == .waiting && e.2.aux = 1)

/-- A die that is denied: what software asked for ends with reason 0x0402, and the die is held; without it, a die that is contained is held (R292,
R299). -/
def Tray.denied (t : Tray) (s m status : Nat) : Tray :=
  let st := (t.die s m).state
  match t.byHand s m with
  | some e => let t := t.finish e.1 7 0x0402 0 false; if st == .expelled then t else t.holdDie s m status
  | none => if st == .contained || st == .held then t.holdDie s m status else t

/-- A grant arrives for a die (R299): it is expelled if it is still at the expel level or software asked for it, else the grant is returned; answered is
whether it was used. -/
def Tray.granted (t : Tray) (s m : Nat) : Tray × Bool :=
  let d := t.die s m
  match t.byHand s m with
  | some e => ((t.expelDie s m 0).sendContain e.1 e.2 s m, true)
  | none =>
    if (d.state == .contained || d.state == .held) && (smGet? d.lv 2).isSome then
      ((t.expelDie s m (t.containsAhead s (t.hleaf s m))).unitContain s m (t.askedStep s m) 3 0, true)
    else (t, false)

/-- A die asks for a grant, for step `k`: the slot that holds the budget judges at once, the pod root without one denies, anyone else asks its parent and
waits. -/
def Tray.askGrant (t : Tray) (s m : Nat) (k : W32) : Tray :=
  let d := t.die s m
  let t := t.setDie s m { d with asked := some k, again := false }
  if t.hBudget s then
    let j := t.judgeGrant s
    if j.2 = 0 then (j.1.granted s m).1 else j.1.denied s m j.2
  else if (smGet? t.u.tree t.u.parentLink).isSome then
    let t := t.setDie s m { t.die s m with askedAt := d.askedAt ++ [t.u.clk.ival] }
    t.blk (fun u => u.sendUp 5 (t.ctnOf k 2 3 0 s (t.hleaf s m) d.rseq 0).rest)
  else t.denied s m 3

/-- An answer travels down: to the requesting T build where it is a child, else to every child T build. -/
def Tray.answerDown (t : Tray) (m : CtnMsg) : Tray :=
  match t.childTrays.find? (fun l => (t.u.treeAt l).node = m.node) with
  | some l => t.blk (fun u => u.sendCtl l 5 m.rest)
  | none => t.down 5 m.rest

/-- GRANT_REQUEST from a child (R297, R298). -/
def Tray.grantRequest (t : Tray) (m : CtnMsg) : Tray :=
  let deny := fun (v : Tray) (status r : Nat) (k : W32) => v.answerDown { m with sub := 4, status := bv status, r := bv r, step := k }
  match t.slotOfJob m.job with
  | none => deny t 3 0 m.step
  | some s =>
    let k := (t.u.step s).idx
    if t.hBudget s then
      let j := t.judgeGrant s
      let t := j.1
      let r := (t.hs s).r
      if j.2 = 0 then t.answerDown { m with sub := 3, step := k, r := bv r }
      else deny t j.2 r k
    else if (smGet? t.u.tree t.u.parentLink).isSome then t.blk (fun u => u.sendUp 5 m.rest)
    else deny t 3 (t.hs s).r k

/-- GRANT: at the requester it expels the die or goes back (sub 7); elsewhere it goes on down. -/
def Tray.grant (t : Tray) (m : CtnMsg) : Tray :=
  if m.node ≠ t.node then t.answerDown m
  else match t.slotOfJob m.job with
    | none => t.blk (fun u => u.sendUp 5 { m with sub := 7 }.rest)
    | some s =>
      let t := t.setHs s { t.hs s with r := m.r.toNat }
      match t.hmember s m.leaf with
      | none => t.blk (fun u => u.sendUp 5 { m with sub := 7 }.rest)
      | some i =>
        let g := (t.answered s i).granted s i
        if g.2 then g.1 else g.1.blk (fun u => u.sendUp 5 { m with sub := 7 }.rest)

/-- DENY: it answers the die's oldest request, or what software asked for. -/
def Tray.deny (t : Tray) (m : CtnMsg) : Tray :=
  if m.node ≠ t.node then t.answerDown m
  else match t.slotOfJob m.job with
    | none => t
    | some s =>
      let t := t.setHs s { t.hs s with r := m.r.toNat }
      match t.hmember s m.leaf with
      | none => t
      | some i => if !(t.die s i).askedAt.isEmpty || (t.byHand s i).isSome then (t.answered s i).denied s i m.status.toNat else t

/-- `HLT.ACKTO`, 0 acting as 1. -/
def Tray.hAckTo (t : Tray) (s : Nat) : Nat := msIv (max 1 (t.u.rf (inst R.HLT_ACKTO s) 0 16))

/-- GRANT_TIMEOUT: a grant request has had no answer: it counts as denied with status 3 (R299). -/
def Tray.grantTimeout (t : Tray) (s m : Nat) : Tray :=
  match (t.die s m).askedAt with
  | [] => t
  | a :: _ => if (t.pset (t.hpset s)).isNone then t else ((t.blk (fun u => u.toIv (a + t.hAckTo s))).answered s m).denied s m 3

/-- GRANT_RETURNED: the holder takes the grant back and keeps its step; others pass it up (R299). -/
def Tray.grantReturned (t : Tray) (m : CtnMsg) : Tray :=
  match t.slotOfJob m.job with
  | none => t
  | some s =>
    if t.hBudget s then t.setHs s { t.hs s with g := (t.hs s).g - 1 }
    else if (smGet? t.u.tree t.u.parentLink).isSome then t.blk (fun u => u.sendUp 5 m.rest)
    else t

/-- Every held die of a slot asks again at its next evaluation. -/
def Tray.askAgain (t : Tray) (s : Nat) : Tray :=
  t.setHs s { t.hs s with dies := smMap (fun (d : Die) => if d.state == .held then { d with again := true } else d) (t.hs s).dies }

/-- SPARES_WRITE (R300): at the holder it sets S, clears g and r, and opens the budget. -/
def Tray.sparesWrite (t : Tray) (s : Nat) (w : W32) : Tray :=
  let t := t.blk (fun u => u.setReg (inst R.HLT_SPARES s) (w &&& 0xFFFF#32))
  if t.hBudget s then ((t.setHs s { t.hs s with g := 0, r := 0 }).askAgain s).sendBudgetOpen s else t

/-- BUDGET_OPEN from the parent (R298, R300): it is applied and forwarded; a holder learns that another stands above it. -/
def Tray.budgetOpen (t : Tray) (m : CtnMsg) : Tray :=
  match t.slotOfJob m.job with
  | none => t
  | some s =>
    let t := if t.hBudget s then
        (t.blk (fun u => (((u.setRb (inst R.HLT_SCFG s) 29 false).bumpSeq 0x2A 0).cause 0x2A 0 5).report rkBudgetTwice (.slot s)
          (pay [fd 0x24 4 m.job.toNat, fd 0x28 4 t.node.toNat])))
      else t
    let t := (t.setHs s { t.hs s with r := m.r.toNat }).askAgain s
    t.down 5 m.rest

/-! ### CONTAIN (R292) -/

/-- CONTAIN: a request to a leaf; kind 3 from software obtains a grant first. -/
def Tray.contain (t : Tray) (q : Nat) : Tray :=
  let r := t.take q 0x52
  match r.2 with
  | none => r.1
  | some f =>
    let t := r.1
    let b := f.body
    let s := cSlot b
    let leaf : W32 := bv (numAt b 0x10 4)
    match t.checkCmd b, t.hmember s leaf with
    | some e, _ => t.finish q e.1 e.2 0 false
    | none, none => t.finish q 5 0 0 false
    | none, some m =>
        if numAt b 0x14 1 = 3 && !t.fromUnit q f then
          let t := { t with flights := smPut t.flights q { f with phase := .waiting, aux := 1, since := t.u.clk.ival } }
          t.askGrant s m (t.u.step s).idx
        else t.sendContain q f s m

/-- CONTAINMENT_ACKNOWLEDGEMENT: the leaf's acknowledgement ends the command. -/
def Tray.containAck (t : Tray) (m : CtnMsg) : Tray :=
  match t.flights.find? (fun e => cOp e.2.body = 0x52 && e.2.phase == .waiting && e.2.aux = 2 + m.rseq.toNat &&
      decide ((bv (numAt e.2.body 0x10 4) : W32) = m.leaf) && decide ((t.u.step (cSlot e.2.body)).job = m.job)) with
  | some e => t.finish e.1 0 0 0 false
  | none => t

/-- The key of the CONTAIN of a queue that waits for its acknowledgement: its command in flight, or a member of its transaction. -/
def Tray.containKey (t : Tray) (q : Nat) : Nat :=
  match t.flights.find? (fun e => (e.1 = q || e.2.member = some q) && cOp e.2.body = 0x52 && e.2.phase == .waiting && 2 ≤ e.2.aux) with
  | some e => e.1
  | none => q

/-- CONTAINMENT_UNACKNOWLEDGED: no acknowledgement within `HLT.ACKTO` milliseconds. -/
def Tray.containUnacked (t : Tray) (q0 : Nat) : Tray :=
  let q := t.containKey q0
  match t.waits q 0x52 with
  | none => t
  | some f =>
    if f.aux < 2 then t
    else
      let t := t.blk (fun u => (((u.toIv (f.since + t.hAckTo (cSlot f.body)))).cause 0x2A 0 3).report rkUnacked (.slot (cSlot f.body))
        (pay [fd 0x24 4 (numAt f.body 0x10 4), fd 0x28 1 (numAt f.body 0x14 1), fd 0x2C 4 (f.aux - 2)]))
      t.finish q 9 0 0 false

/-- The START and CONTAIN members of a transaction that has applied begin. -/
def Tray.memberWork (t : Tray) : Tray :=
  (t.flights.filter (fun e => e.2.member.isSome && e.2.phase == .started)).foldl (fun (v : Tray) e =>
    if cOp e.2.body = 0x51 then v.startGo e.1 else v.contain e.1) t

/-! ### Evaluation (R278, R282 to R290, R296) -/

/-- The alarms of a pan set's cut in its bank: of each CUSUM pan, the members whose bit is set. -/
def Tray.alarmsIn (t : Tray) (s : Pset) (c : Cut) : SMap (List Nat) :=
  match c.bank with
  | none => []
  | some b =>
    ((pPans s.desc).filter (fun e => e.2.type = 6)).map (fun e =>
      (e.1, (List.range (pNmem s.desc)).filter (fun j => let a := panLine s.desc 0 b e.1 (1 + j / 128); bit (t.line a.1 a.2) (j % 128))))

/-- The alarm lines of a cut's bank are read (R194, R285). -/
def Tray.readAlarms (t : Tray) (s : Pset) (c : Cut) : Tray :=
  match c.bank with
  | none => t
  | some b =>
    ((pPans s.desc).filter (fun e => e.2.type = 6)).foldl (fun (v : Tray) e =>
      (List.range (ceilDiv (pNmem s.desc) 128)).foldl (fun (v : Tray) l =>
        let a := panLine s.desc 0 b e.1 (1 + l)
        (v.readLine a.1 a.2).1) v) t

/-- What the unit remembers of a cut. -/
def Tray.noteCut (t : Tray) (p : Nat) (s : Pset) (c : Cut) : HCut := ⟨p, c.step, c.epoch, c.point, t.alarmsIn s c, c.shares.map (·.1), c.statuses⟩

/-- A cut that is about to be published is remembered by the unit of its slot until its step is evaluated (R285). -/
def Tray.healthNote (t : Tray) (p : Nat) : Tray :=
  match t.pset p with
  | none => t
  | some s =>
    match t.ripe p s with
    | none => t
    | some c =>
      if t.hon s.slot then
        let t := t.readAlarms s c
        t.setHs s.slot { t.hs s.slot with cuts := (t.hs s.slot).cuts ++ [t.noteCut p s c] } else t

/-- A step within its replay epoch: what an evaluation is of. -/
abbrev EStep : Type := W32 × Byte

/-- The cuts of a step of a pan set: those remembered and those that still stand. -/
def Tray.stepCuts (t : Tray) (slot p : Nat) (k : EStep) : List HCut :=
  ((t.hs slot).cuts.filter (fun c => c.pset = p && decide ((c.step, c.epoch) = k))) ++
  (match t.pset p with | some s => (s.cuts.filter (fun c => decide ((c.step, c.epoch) = k))).map (t.noteCut p s) | none => [])

/-- The alarm lines that the alarm inputs of a slot read for step `k`, of the cuts that still stand. -/
def Tray.readInputs (t : Tray) (slot : Nat) (k : EStep) : Tray :=
  (List.range 8).foldl (fun (v : Tray) i =>
    if v.u.rb (hltIn R.HLT_ICFG slot i) 31 && v.u.rf (hltIn R.HLT_ICFG slot i) 24 3 = 3 then
      match v.pset (v.u.rf (hltIn R.HLT_ICFG2 slot i) 10 10) with
      | some s => (s.cuts.filter (fun c => decide ((c.step, c.epoch) = k))).foldl (fun (w : Tray) c => w.readAlarms s c) v
      | none => v
    else v) t

/-- A value the unit was sent. -/
def HSlot.value (h : HSlot) (m : Nat) (k : EStep) (point f : Nat) : Option W32 :=
  (h.vals.find? (fun v => v.mem = m && decide ((v.step, v.epoch) = k) && v.point = point && v.feature = f)).map HVal.word

/-- Clamp to the int32 range. -/
def clampW (x : Int) : Int := max (-(2 ^ 31)) (min (2 ^ 31 - 1) x)

/-- A member's frame at a point of a step was skipped by its decimation level (R81, R286): the health pan set's cut of that point says so (R241); where
it has no such cut, the level in force does. -/
def Tray.byDecimation (t : Tray) (slot m : Nat) (k : EStep) (point : Nat) : Bool :=
  match (t.stepCuts slot (t.hpset slot) k).find? (fun c => c.point = point) with
  | some c => decide (c.status.getD m 0 = 2)
  | none => match t.pset (t.hpset slot) with
    | some s => decimates s.desc (smGet s.members m Member.reset).level k.1 point
    | none => false

/-- An input's value: none where it is missing, with whether by decimation (R283, R285, R286). -/
abbrev InVal : Type := Option Int × Bool

/-- The straggler index of a die (R282, R283). `refs` are the job-wide references that were applied when the evaluated cut opened: one that arrives
while it is open acts from the next cut on (R26, R281). -/
def Tray.straggler (t : Tray) (refs : SMap (Int × Int)) (slot m : Nat) (k : EStep) : InVal :=
  let h := t.hs slot
  let arr := inst R.HLT_ARR slot
  let f := t.u.rf (inst R.HLT_ARRF slot) 0 13
  let s := ((t.u.reg arr).extractLsb' 16 8).toInt
  let pa := t.u.rf arr 12 4
  if !t.u.rb arr 31 then (none, false)
  else match h.value m k pa f with
    | none => (none, t.byDecimation slot m k pa)
    | some w => match smGet? refs (refKey f s), toGrid 0 s w with
      | some r, some v => (some (clampW (v.1 - r.2)), false)
      | _, _ => (none, false)

/-- Input `i` of a die (R285). `a` is the tray once the pans have folded what counts (R240). -/
def Tray.inputVal (t a : Tray) (refs : SMap (Int × Int)) (slot m i : Nat) (k : EStep) : InVal :=
  let c := hltIn R.HLT_ICFG slot i
  let c2 := hltIn R.HLT_ICFG2 slot i
  let point := t.u.rf c 20 4
  let f := t.u.rf c 0 14
  match t.u.rf c 24 3 with
  | 1 => t.straggler refs slot m k
  | 2 => match (t.hs slot).value m k point f with
    | none => (none, t.byDecimation slot m k point)
    | some w => match toGrid 0 ((t.u.reg c2).extractLsb' 24 8).toInt w with
      | some v => (some (clampW v.1), false)
      | none => (none, false)
  | 3 =>
    let p := t.u.rf c2 10 10
    let pan := t.u.rf c2 0 10
    match (t.pset p).bind (fun s => pMemberOf s.desc (t.hleaf slot m)) with
    | none => (none, false)
    | some j =>
      let cs := a.stepCuts slot p k
      if cs.any (fun c => c.gave.contains j) then (some ((cs.filter (fun c => (smGet c.alarms pan []).contains j)).length : Int), false) else (none, false)
  | 4 =>
    let cs := t.stepCuts slot (t.hpset slot) k
    (some ((cs.filter (fun c => let x := c.status.getD m 0; x = 3 || x = 4 || x = 5)).length : Int), false)
  | _ => (none, false)

/-- The nearest enabled level below one. -/
def Tray.levelBelow (t : Tray) (s l : Nat) : Option Nat := ((List.range l).filter (t.lvOn s)).getLast?

/-- A level is in. -/
def Die.isIn (d : Die) (l : Nat) : Bool := (smGet? d.lv l).isSome

/-- Counts of a level after an evaluation with score `h`, and whether it is entered or left (R289); `left` are levels left in it. -/
def Tray.levelStep (t : Tray) (s l h : Nat) (d : Die) (left : List Nat) : Die × Bool × Bool :=
  let on0 := t.lvOnAt s l
  let on := if l = 2 then min 0xFFFF (on0 + (t.hs s).r * t.u.rf (inst R.HLT_RAISE s) 0 16) else on0
  let up := if on ≤ h then smGet d.up l 0 + 1 else 0
  let dn := if h < t.lvOffAt s l then smGet d.down l 0 + 1 else 0
  let d := { d with up := smSet d.up l (min up 255) 0, down := smSet d.down l (min dn 255) 0 }
  let below := t.levelBelow s l
  let belowIn := match below with | some b => d.isIn b | none => true
  if d.isIn l then
    let leave := decide (t.lvX s l ≤ dn) || (match below with | some b => left.contains b | none => false)
    (if leave then { d with lv := smDel d.lv l } else d, false, leave)
  else
    let enter := decide (t.lvE s l ≤ up) && belowIn
    (if enter then { d with lv := smPut d.lv l 1 } else d, enter, false)

/-- A die enters or leaves a level in the evaluation of a step (R290). -/
def Tray.levelAct (t : Tray) (s m l h : Nat) (step : W32) (entered left : Bool) : Tray :=
  let d := t.die s m
  let leaf := t.hleaf s m
  let k := step.toNat
  let hp := pay [fd 0x24 4 leaf.toNat, fd 0x28 2 h, fd 0x2C 4 k]
  match l, entered, left with
  | 0, true, _ =>
    (t.setDie s m { d with state := if d.state == .healthy then .watch else d.state }).blk (fun u => u.report rkDieWatch (.slot s) hp)
  | 0, _, true => t.setDie s m { d with state := if d.state == .watch then .healthy else d.state }
  | 1, true, _ =>
    let kind := t.u.rf (inst R.HLT_SCFG s) 26 2
    let arg := if kind = 1 then t.u.rf (inst R.HLT_SCFG s) 16 8 else 0
    let t := (t.setDie s m { d with state := .contained }).unitContain s m step kind arg
    t.blk (fun u => u.report rkDieContained (.slot s) (pay [fd 0x24 4 leaf.toNat, fd 0x28 2 h, fd 0x2A 1 kind, fd 0x2C 4 k]))
  | 1, _, true =>
    let t := t.setDie s m { d with state := if d.isIn 0 then .watch else .healthy }
    let t := if d.sw then t else t.unitContain s m step 0 0
    t.blk (fun u => u.report rkDieReleased (.slot s) hp)
  | 2, _, true =>
    if d.state == .held then
      (t.setDie s m { d with state := .contained }).blk (fun u => u.report rkDieUnheld (.slot s) (pay [fd 0x24 4 leaf.toNat, fd 0x2C 4 k]))
    else t
  | _, _, _ => t

/-- The expulsion test (R296, R300): a contained die at the expel level asks in every evaluation with two witnesses; a held one when the interval has
passed since it last asked, or when the budget opened. -/
def Tray.expelTest (t : Tray) (s m : Nat) (groups : Nat) (k : W32) : Tray :=
  let d := t.die s m
  if d.state == .contained && d.isIn 2 then
    if groups < 2 then
      let h := t.hs s
      (t.setHs s { h with nowit := satAdd h.nowit 1 0xFFFFFFFF }).blk (fun u => u.report rkNoWitness (.slot s)
        (pay [fd 0x24 4 (t.hleaf s m).toNat, fd 0x28 1 d.witness.toNat, fd 0x2C 4 k.toNat]))
    else t.askGrant s m k
  else if d.state == .held then
    let i := t.u.rf (inst R.HLT_BUDGET s) 16 16
    let past := match d.asked with | some a => decide ((i : Int) ≤ (k - a).toInt) | none => true
    if d.again || past then t.askGrant s m k else t
  else t

/-- One die is evaluated for step `k` (R286 to R290, R296). -/
def Tray.evalDie (t a : Tray) (refs : SMap (Int × Int)) (s m : Nat) (k : EStep) : Tray :=
  let h := t.hs s
  let ins : List (Nat × Option Int × Int × Bool × Nat) := ((List.range 8).filter (t.inputOn s)).map (fun i =>
    let v := t.inputVal a refs s m i k
    let im := hltIn R.HLT_IMISS s i
    let c : Int := match v.1 with | some x => h.table i x | none => if v.2 then 0 else (t.u.rf im 0 16 : Int)
    let wit := t.u.rb (hltIn R.HLT_ICFG s i) 30 && v.1.isSome && decide ((t.u.rf im 16 16 : Int) ≤ c)
    (i, v.1, c, wit, t.u.rf (hltIn R.HLT_ICFG s i) 27 3))
  let score := min 0xFFFF ((ins.map (fun (x : Nat × Option Int × Int × Bool × Nat) => x.2.2.1)).sum).toNat
  let missing := ((ins.filter (fun (x : Nat × Option Int × Int × Bool × Nat) => x.2.1.isNone)).map (fun (x : Nat × Option Int × Int × Bool × Nat) => 2 ^ x.1)).sum
  let wits := ins.filter (fun (x : Nat × Option Int × Int × Bool × Nat) => x.2.2.2.1)
  let groups := ((wits.map (fun (x : Nat × Option Int × Int × Bool × Nat) => x.2.2.2.2)).dedup).length
  let idx := (t.straggler refs s m k).1
  let vals := ins.foldl (fun (mp : SMap Int) (x : Nat × Option Int × Int × Bool × Nat) => match x.2.1 with | some v => smPut mp x.1 v | none => mp) []
  let contrib := ins.foldl (fun (mp : SMap Nat) (x : Nat × Option Int × Int × Bool × Nat) => smPut mp x.1 x.2.2.1.toNat) []
  let d := { t.die s m with h := score, missing := bv missing, witness := bv ((wits.map (fun (x : Nat × Option Int × Int × Bool × Nat) => 2 ^ x.1)).sum), idx := idx, vals := vals,
                            contrib := contrib, seenEval := true }
  let t := t.setDie s m d
  let r := [0, 1, 2].foldl (fun (acc : Tray × List Nat) l =>
    if !acc.1.lvOn s l then acc
    else
      let x := acc.1.levelStep s l score (acc.1.die s m) acc.2
      ((acc.1.setDie s m x.1).levelAct s m l score k.1 x.2.1 x.2.2, if x.2.2 then acc.2 ++ [l] else acc.2)) (t, [])
  r.1.expelTest s m groups k.1

/-- The weight advice of a member after an evaluation of the step (R284): none in the lockstep class; 0 with `zadv` for a die that is contained, held
or expelled; else what the table gives of its index, where it was evaluated; one that no evaluation has met yet has no index. -/
def Tray.advise (t : Tray) (s m : Nat) (evaluated : Bool) : Tray :=
  let d := t.die s m
  let adv := if t.u.rb (inst R.HLT_SCFG s) 30 then 0xFFFF
    else if t.u.rb (inst R.HLT_SCFG s) 28 && (d.state == .contained || d.state == .held || d.state == .expelled) then 0
    else if !evaluated then (if d.seenEval then d.adv else 16384)
    else match d.idx with | some x => ((t.hs s).table 8 x).toNat | none => 16384
  t.setDie s m { d with adv := adv }

/-- A health harvest entry (R301). -/
def Tray.healthEntry (t : Tray) (s m : Nat) (evaluated : Bool) : List Byte :=
  let d := t.die s m
  layout 16 [fd 0 4 (t.hleaf s m).toNat, fd 4 2 d.h, fd 6 1 (d.sw.toNat * 128 + (!evaluated).toNat * 64 + d.state.code), fd 7 1 d.missing.toNat,
    fd 8 4 (match d.idx with | some x => (BitVec.ofInt 32 x).toNat | none => 0x80000000), fd 0xC 2 d.adv, fd 0xE 1 d.witness.toNat]

/-- The health harvest of an evaluation goes to the slot's host ring (R301). -/
def Tray.healthHarvest (t : Tray) (refs : SMap (Int × Int)) (s : Nat) (k : EStep) (n : Nat) (done : List Nat) : Tray :=
  let h := t.hs s
  let c := t.u.step s
  let ref := if t.u.rb (inst R.HLT_ARR s) 31 then
    (smGet? refs (refKey (t.u.rf (inst R.HLT_ARRF s) 0 13) ((t.u.reg (inst R.HLT_ARR s)).extractLsb' 16 8).toInt)).map (·.2) else none
  let b := layout 64 [fd 0 1 2, fd 1 1 ((t.u.rb (inst R.HLT_SCFG s) 30).toNat * 2 + h.lost.toNat), fd 2 1 s, fd 3 1 k.2.toNat, fd 4 4 c.job.toNat,
      fd 8 4 k.1.toNat, fd 0xC 2 n, fd 0xE 2 h.r, fd 0x10 8 t.u.clk.ns.toNat, fd 0x18 8 (BitVec.ofInt 64 (ref.getD 0)).toNat, fd 0x20 4 h.hseq.toNat] ++
    ((List.range n).map (fun m => t.healthEntry s m (done.contains m))).flatten
  let b := overlay b 0x3C (leBytes 4 (crc32c b).toNat)
  let at0 := t.harvestPlace b.length
  let x : Staged := ⟨t.stagedIds, 0xFFFF, 0, h.hseq, k.1, 0xFF, b, some (t.u.rf (inst R.HLT_SCFG2 s) 0 6), false, false, none, false, false, at0⟩
  let t := t.wroteBytes 2 at0 b.length
  ({ t with staged := t.staged ++ [x], stagedIds := t.stagedIds + 1 }).setHs s { h with hseq := h.hseq + 1, lost := false }

/-- The tray once every contribution of slot `s` that counts so far is folded: the pans' fold units on their way or in work queues, and the in-time
frames still in their rings (R240: the time of folding does not matter). What an alarm input reads (R285). -/
def Tray.foldAhead (t : Tray) (s : Nat) : Tray :=
  let mine := fun (v : Tray) (p : Nat) => match v.pset p with
    | some d => decide (d.slot = s) && decide (pLevel d.desc = 1)
    | none => false
  let units := t.cores.flatMap (fun e => e.2) ++ t.transit.flatMap (fun e => e.2)
  let t := units.foldl (fun (v : Tray) w => match w.work with
    | .fold p pc r m => if mine v p then v.foldUnit w p pc r m false else v
    | .score p pc r m => if mine v p then v.foldUnit w p pc r m true else v
    | _ => v) t
  t.rings.foldl (fun (v : Tray) e =>
    if v.qf (2048 + e.1) 30 1 ≠ 0 then v
    else e.2.items.foldl (fun (v : Tray) x =>
      let b := v.frameBytes e.1 x
      let h := FHdr.read b
      let badF := (v.poisonedBytes e.1 x).2.map (fun i => (i - 0x40) / 4)
      x.judged.foldl (fun (v : Tray) j => match v.pset j.pset with
        | none => v
        | some d =>
          if !j.inTime || d.gen ≠ j.gen || !mine v j.pset then v
          else match pMemberOf d.desc h.leaf with
            | none => v
            | some m => (List.range (pNcore d.desc)).foldl (fun (v : Tray) pc =>
              v.foldUnit ⟨.fold j.pset pc 0 m, h.leaf, h.seq, h.step, h.point, h.epoch,
                (coreFeats d.desc pc false).map (frameWord b h.nfeat badF), false, none, 0, false⟩ j.pset pc 0 m false) v) v) v) t

/-- Step `k` of a slot is evaluated, within its replay epoch: each member that is active at the close, in member order (R278), against the references of the cut's opening. -/
def Tray.evaluate (t : Tray) (refs : SMap (Int × Int)) (s : Nat) (k : EStep) (status : List Nat) : Tray :=
  let n := status.length
  let act := (List.range n).filter (fun m => status.getD m 6 ≠ 6 && (t.die s m).known && !((t.die s m).state == .expelled))
  let t := t.readInputs s k
  let a := t.foldAhead s
  let t := act.foldl (fun (v : Tray) m => v.evalDie a refs s m k) t
  let t := (List.range n).foldl (fun (v : Tray) m => v.advise s m (act.contains m)) t
  let h := t.hs s
  let later := fun (step : W32) (e : Byte) => if e = k.2 then stepAfter step k.1 else decide (0 < (e - k.2).toInt)
  let t := t.setHs s { h with evals := h.evals + 1, vals := h.vals.filter (fun v => later v.step v.epoch), cuts := h.cuts.filter (fun c => later c.step c.epoch) }
  t.healthHarvest refs s k n act

/-- Values of the in-time frames of step `k` that still wait in their ingest rings: they count in the evaluation (R278, R240). -/
def Tray.healthWaiting (t : Tray) (s p : Nat) (k : EStep) : Tray :=
  t.rings.foldl (fun (v : Tray) e =>
    if v.qf (2048 + e.1) 30 1 ≠ 0 then v
    else e.2.items.foldl (fun (v : Tray) x =>
      let b := v.frameBytes e.1 x
      let h := FHdr.read b
      match v.pset p with
      | none => v
      | some d =>
        if (h.step, h.epoch) = k && x.judged.any (fun j => j.pset = p && decide (j.gen = d.gen) && j.inTime) then
          let badF := (v.poisonedBytes e.1 x).2.map (fun i => (i - 0x40) / 4)
          match pMemberOf d.desc h.leaf with
          | some m => v.healthVals p s m h.step h.epoch h.point ((List.range h.nfeat).map (fun f => (f, frameWord b h.nfeat badF f)))
          | none => v
        else v) v) t

/-- The units of slots whose health pan set closed its cut for a step's highest declared point evaluate that step; `was` tells the state before, so that
each close acts once. -/
def Tray.healthRun (t was : Tray) : Tray :=
  ((List.range 64).filter t.hon).foldl (fun (v : Tray) s =>
    match v.pset (v.hpset s) with
    | none => v
    | some p =>
      let top := (pPoints p.desc).getLast?.getD 0
      let closedBefore := fun (c : Cut) => match was.pset (v.hpset s) with
        | some q => q.gen = p.gen && q.cuts.any (fun x => x.key = c.key && decide (x.epoch = c.epoch) && x.closed.isSome)
        | none => false
      let now := p.cuts.filter (fun c => c.point = top && c.closed.isSome && !closedBefore c)
      now.foldl (fun (v : Tray) c => (v.healthWaiting s (v.hpset s) (c.step, c.epoch)).evaluate c.refs s (c.step, c.epoch) c.statuses) v) t

/-! ### Containment messages (R292) -/

/-- A containment message for a T build. -/
def Tray.ctnMessage (t : Tray) (link : Nat) (m : CtnMsg) : Tray :=
  match m.sub.toNat with
  | 1 => t.containAck m
  | 2 => t.grantRequest m
  | 3 => t.grant m
  | 4 => t.deny m
  | 5 => if link < 2 then t.budgetOpen m else t
  | 6 => t.queryAnswer m
  | 7 => t.grantReturned m
  | _ => t.blk (fun u => u.unknownControl 5)

end Sys2Proof.Machine
end

