-- ==== Sys2Proof/Machine/TrayStep.lean ====
section
/-!
DEFINITION. Step clocks of the tray build from step mark notices, and IEEE 1588 messages at its ports (spec/02_time_step_angle.md, R50 to R57;
spec/16_job_continuity.md, R350, R363).
-/

namespace Sys2Proof.Machine

/-- What a step mark notice carries (R50, R164). -/
structure Notice where
  job : W32
  idx : W32
  epoch : Byte
  slot : Byte
  ns : W64
deriving DecidableEq, Repr

def Notice.read (b : List Byte) : Notice := ⟨bv (numAt b 0 4), bv (numAt b 4 4), bv (numAt b 8 1), bv (numAt b 9 1), bv (numAt b 0xC 8)⟩
def Notice.bytes (n : Notice) : List Byte :=
  layout 20 [fd 0 4 n.job.toNat, fd 4 4 n.idx.toNat, fd 8 1 n.epoch.toNat, fd 9 1 n.slot.toNat, fd 0xC 8 n.ns.toNat]

/-- The slot takes the other notice source: cause and record (R52); the spec names the record without its code. -/
def Tray.switchSource (t : Tray) (s : Nat) (secondary : Bool) : Tray :=
  let t := t.blk (fun u => u.setStep s { u.step s with onSecondary := secondary })
  t.blk (fun u => (u.cause 0x02 0 1).report (rkOpen 0x02 4) (.slot s) (pay [fd 0x24 1 s, fd 0x25 1 secondary.toNat]))

/-- STEP_SOURCE_SWITCHED: no notice from the primary for 2 × P, and the slot takes its secondary source (R52). DESIGN CHOICE (log entry 97): the wait is
measured on the sum of TB0's increments, so offset steps and loads do not count, and a slot whose P is not known yet never switches. -/
def Tray.sourceSwitched (t : Tray) (s : Nat) : Tray :=
  let c := t.u.step s
  if !c.en || c.onSecondary || !c.estValid then t
  else (t.blk (fun u => u.toIv (c.primaryAt + nsIv (2 * c.per.toNat)))).switchSource s true

/-- LONG_STEP at the T build: the time since the mark reaches P on TB0 (R42, R51). -/
def Tray.longStep (t : Tray) (s : Nat) : Tray :=
  let c := t.u.step s
  if !c.en || !c.haveMark || !c.estValid || c.overrun then t
  else
    t.blk (fun u =>
      let u := u.toNs (c.markAt + c.per.setWidth 64)
      let u := u.setStep s { c with overrun := true, long := true, cntLong := sat8 c.cntLong 1 }
      (u.cause 0x02 0 0).reportOpen 0x02 1 (.slot s) [s])

/-- The clock of a slot after a notice that is applied (R51, R363): M spans as many steps as the index moved on; the first notice of a slot, and the first of
its new epoch, count no gap. DESIGN CHOICE (log entry 97): M is the difference of the carried times modulo 2^64, capped as `StepClk.marked` caps it, also
where the later index carries the earlier time. -/
def StepClk.noticed (c : StepClk) (n : Notice) : StepClk :=
  let base := c.notice || !c.haveMark
  let span := if base then 1 else (n.idx - c.idx).toNat
  let m := if c.haveMark then some ((n.ns - c.markAt).toNat / span) else none
  { c.marked n.ns m with idx := n.idx, notice := false, gap := satAdd c.gap (span - 1) 0xFFFFFFFF }

/-- A notice is applied: the clock, what its stamps have passed in angle order (R51), rings that count quiet steps, deferred members, and the notice
goes on to the parent (R50, R84, R350). -/
def Tray.applyNotice (t : Tray) (s : Nat) (n : Notice) : Tray :=
  let t := t.blk (fun u => u.setStep s ((u.step s).noticed n))
  let t := (((t.startSeries s).fireStamps s stampBound).quietStep s).applyDeferred s
  if (smGet? t.u.tree t.u.parentLink).isSome then t.blk (fun u => u.sendMsg u.parentLink 7 0 n.bytes) else t

/-- STEP_MARK_NOTICE: a notice that comes over a child's link (R50 to R52, R363). -/
def Tray.notice (t : Tray) (link : Nat) (n : Notice) : Tray :=
  match t.slotOfJob n.job with
  | none => t
  | some s =>
    let c := t.u.step s
    let src := (t.u.treeAt link).node
    let old := decide (n.epoch ≠ c.epoch) && decide ((n.epoch - c.epoch).toInt < 0)
    let newBase := !c.haveMark || (c.notice && decide (n.epoch = c.epoch))
    let ahead := newBase || stepAfter n.idx c.idx
    let t := if src = c.srcP then t.blk (fun u => u.setStep s { u.step s with primaryAt := u.clk.ival }) else t
    if old then t
    else if src = c.srcP && c.onSecondary then
      if ahead then (t.switchSource s false).applyNotice s n else t
    else if src ≠ (if c.onSecondary then c.srcS else c.srcP) then t
    else if ahead then t.applyNotice s n
    else t.blk (fun u => u.setStep s { u.step s with cntIgn := sat8 (u.step s).cntIgn 1 })

/-! ### IEEE 1588 messages (R55, R56) -/

/-- The port mode of a port. -/
def Tray.ptpMode (t : Tray) (p : Nat) : Nat := t.u.rf (R.TBS_PTPMODE + 4 * p) 0 2

/-- What a port does with a message type in its mode (R55). -/
inductive PtpDo where
  | drop | forward | correct | host
deriving DecidableEq, Repr

def ptpDo (mode ty : Nat) : PtpDo :=
  if mode = 0 then .drop
  else if mode = 3 then .host
  else if mode = 1 then (if ty ≤ 1 then .correct else .forward)
  else if ty = 0 then .correct
  else if ty = 1 then .drop
  else if ty = 2 || ty = 3 || ty = 0xA then .host
  else .forward

def ptpType (ptp : List Byte) : Nat := (ptp.headD 0).toNat % 16

/-- Ports that face the parent and the children, by the tree table. -/
def Tray.upPort (t : Tray) : Option Nat := (smGet? t.u.tree t.u.parentLink).map (fun _ => t.u.linkPort t.u.parentLink)
def Tray.downPorts (t : Tray) : List Nat :=
  ((t.u.tree.filter (fun e => 2 ≤ e.1 && bit e.2.attr 31)).map (fun e => t.u.linkPort e.1)).dedup

/-- The ports that a message arriving on a port is forwarded to. -/
def Tray.ptpOuts (t : Tray) (p : Nat) : List Nat :=
  if t.upPort = some p then (t.downPorts.filter (fun x => t.ptpMode x = 1 || t.ptpMode x = 2)).filter (fun x => x ≠ p)
  else match t.upPort with | some x => [x] | none => []

/-- A message is forwarded: it is put on the time queue of each port that it goes to, with its ingress time. -/
def Tray.ptpSend (t : Tray) (p : Nat) (dst src : W48) (ptp : List Byte) : Tray :=
  let tag := if t.u.rb R.LNK_CTL 29 then beBytes 2 0x8100 ++ beBytes 2 (t.u.rf R.LNK_VLAN 0 16) else []
  let frame := beBytes 6 dst.toNat ++ beBytes 6 src.toNat ++ tag ++ beBytes 2 0x88F7 ++ ptp
  let pld : W64 := if t.ptpMode p = 2 && ptpType ptp = 0 then BitVec.ofNat 64 (t.u.rn64 (R.TBS_PLD + 8 * p) (R.TBS_PLD + 8 * p + 4)) else 0
  let ing := some (t.u.portRx p, pld)
  (t.ptpOuts p).foldl (fun (v : Tray) o => v.blk (fun u => u.enqueue o 0 { mkMsg 0 0 frame with ingress := ing })) t

/-- A time frame at a port, by the port's mode: TIME_FRAME_RECEIVE where it ends here, PTP_FORWARD where it goes on. -/
def Tray.timeFrame (t : Tray) (p : Nat) (dst src : W48) (ptp : List Byte) : Tray :=
  match ptpDo (t.ptpMode p) (ptpType ptp) with
  | .drop => { t with ptpDrop := smUpd t.ptpDrop p 0 (fun n => satAdd n 1 0xFFFFFFFF) }
  | .host => t.blk (fun u => u.timeMessage p ((u.portRx p).extractLsb' 32 64) ptp)
  | .correct | .forward => t.ptpSend p dst src ptp

end Sys2Proof.Machine
end

