-- ==== Sys2Proof/Syntax.lean ====
section
/-!
DEFINITION. The commands of the block: one constructor per row of spec/opcode_table.json, in its order. A command that both builds take names the build
it is for; the other operands are what the bus, the pins or the surroundings bring with it.
-/

namespace Sys2Proof

open Sys2Proof.Machine

/-- The commands. -/
inductive Instr where
  /-- REGISTER_WRITE (R13): A register write to a field with no behaviour of its own sets the field, subject to access type, reserved-field and refusal checks. -/
  | registerWrite (b : Build) (a : BitVec 25) (n : BitVec 4) (data : W64) (priv : Bool) (env : PortEnv)
  /-- RC_READ (R13): A read of a read-clear field returns its value and clears it, keeping any bit set by hardware in the same cycle. -/
  | rcRead (b : Build) (a : BitVec 25) (n : BitVec 4) (env : ReadEnv)
  /-- INC_FRAC_WRITE (R31): A write to TBS.INC_FRAC holds the fraction until INC_NS is written. -/
  | incFracWrite (b : Build) (w : W32)
  /-- INC_NS_WRITE (R31): A write to TBS.INC_NS commits the held increment pair, or refuses a zero increment, and counts as discipline ending holdover. -/
  | incNsWrite (b : Build) (ns : Byte)
  /-- OFFSET_STEP (R32): OFS_GO bit 0 adds the signed 96-bit offset to TB0, sets tb0_valid, fires passed actions late and writes a time step record. -/
  | offsetStep (b : Build)
  /-- LOAD (R32): OFS_GO bit 1 replaces TB0 with the 96-bit value, sets tb0_valid and writes a time step record. -/
  | load (b : Build)
  /-- HOLDOVER (R35): HOLDTO milliseconds pass without discipline; the leaf sets hold, a cause bit and writes a holdover record. -/
  | holdover (b : Build)
  /-- TB0_NSL_READ (R34): Reading TB0_NSL latches TB0_NSH, TB0_FRAC and the TB1 capture in one cycle; reading TB1_L latches TB1_H likewise. -/
  | tb0NslRead (b : Build) (tb1 : Bool)
  /-- TIMED_ACTION (R37): A queued action on TB0 or TB1 fires when its time is reached, in timestamp and then queue order. -/
  | timedAction (b : Build) (act : Option TimedAction)
  /-- STEP_MARK (R40): A port or register step mark on a slot is filtered, measures M, updates P, advances or sets the index and zeroes the angle. -/
  | stepMark (slots : BitVec 2) (viaPort : Bool)
  /-- LONG_STEP (R42): The time since the mark reaches P; the angle goes to overrun, the long flag sets and a long step record is written. -/
  | longStep (b : Build) (slot : Fin 64)
  /-- PSEED_WRITE (R41): A write to PSEED high half while the slot is disabled takes a nonzero seed into P and sets est_valid. -/
  | pseedWrite (slot : Fin 2) (hi : W16)
  /-- IDX_SET_WRITE (R40): A write to STEP.IDX_SET sets the pending bit so the index is taken at the next accepted mark. -/
  | idxSetWrite (slot : Fin 2) (w : W32)
  /-- STEP_SLOT_ENABLE (R41): Setting STEP.CTL.en attaches the slot, loads P from the seed, and makes pending swaps of that slot happen at once. -/
  | stepSlotEnable (slot : Fin 2) (w : W32)
  /-- ANG_READ (R43): Reading STEP.ANG_A or ANG_B latches the step index and the TB1 capture time in the same cycle. -/
  | angRead (b : Build) (slot : Fin 64)
  /-- SCHEDULE_ENTRY_FIRE (R45): An enabled angle-schedule entry fires when the slot's angle reaches its angle, acting as sample, arm, window or marker. -/
  | scheduleEntryFire (slot : Fin 2)
  /-- ASTB_SWAP (R47): Writing ASTB.CTL.swap requests that the editable bank become active at each slot's next accepted mark. -/
  | astbSwap
  /-- PPS_IN (R49): A rising edge on the T build's 1PPS input latches TB0 into PPSCAP and sets the pps status bit. -/
  | ppsIn
  /-- PPS_OUT_RISE (R49): TB0 reaches a whole second and the 1PPS output rises while tb0_valid is set. -/
  | ppsOutRise
  /-- PPS_OUT_FALL (R49): PPSW milliseconds after its rise the 1PPS output falls. -/
  | ppsOutFall
  /-- STEP_MARK_NOTICE (R51): A T build takes a step mark notice, applies it to the slot clock from its carried time, counts duplicates and gaps, and forwards it. -/
  | stepMarkNotice (link : Byte) (n : Notice)
  /-- STEP_SOURCE_SWITCHED (R52): No notice from the primary for 2 × P switches the slot to its secondary source and writes a record. -/
  | stepSourceSwitched (slot : Fin 64)
  /-- TIME_FRAME_RECEIVE (R54): A received IEEE 1588 message is timestamped and delivered to the host event queue as a carried time record. -/
  | timeFrameReceive (b : Build) (port : Fin 8) (dst : W48) (src : W48) (ptp : List Byte)
  /-- PTP_FORWARD (R56): A T-build port forwards, corrects or terminates an IEEE 1588 message by its port mode, adding residence time to correctionField. -/
  | ptpForward (port : Fin 8) (dst : W48) (src : W48) (ptp : List Byte)
  /-- RING_SLOT_ARRIVAL (R62): A counter ring slot arrives at ring-in and is checked and applied to its counter by mode, or discarded and counted. -/
  | ringSlotArrival (slot : W64)
  /-- STOP_INCREMENT (R418): A source presents an increment or gauge value to its ring stop, which accumulates it for a later free slot. -/
  | stopIncrement (base : BitVec 14) (src : Fin 64) (inc : W16) (gauge : Option W32)
  /-- STOP_BYPASS (R418): Raising stop_byp makes a ring stop pass slots unchanged and drop its accumulators. -/
  | stopBypass (base : BitVec 14) (byp : Bool)
  /-- HELD_SLOT_READ (R63): A held slot falls due L cycles after launch and the leaf performs its counter read, starting a latency measurement if the slot was lost. -/
  | heldSlotRead (lost : Bool)
  /-- RING_CALIBRATE (R64): Writing SMP.CTL.cal launches a latency marker to measure the ring latency L. -/
  | ringCalibrate
  /-- LATENCY_MARKER_RETURN (R64): The current latency marker returns, setting L and clearing any ring fault. -/
  | latencyMarkerReturn
  /-- RING_FAULT (R64): The latency marker has not returned after 65,536 cycles; the leaf declares a ring fault and writes a record. -/
  | ringFault
  /-- UNPRIVILEGED_COUNTER_ACCESS (R67): An unprivileged access to a privileged counter register returns zero or is ignored, is counted and writes a record. -/
  | unprivilegedCounterAccess
  /-- COUNTER_CAPTURE (R68): A write to CNT.IDX with clr clear requests a capture of the indexed counter through a held slot. -/
  | counterCapture (auto : Bool) (n : BitVec 13)
  /-- CAPTURE_COMPLETE (R68): A requested capture completes, filling VAL and CAP and setting rdy. -/
  | captureComplete
  /-- COUNTER_CLEAR (R68): A write to CNT.IDX with clr set clears the indexed counter and its overflow bit through one held slot. -/
  | counterClear (auto : Bool) (n : BitVec 13)
  /-- CLRALL (R68): Writing 1 to CNT.CLRALL clears every counter using 8,192 held slots. -/
  | clrall
  /-- CAP_H_AUTO_READ (R68): With IDX.auto set, reading CAP_H advances the index and requests the next capture. -/
  | capHAutoRead
  /-- WINDOW_EDGE (R69): A bandwidth-window unit reaches a TB1 edge and publishes its byte count to LAST, sets valid and restarts. -/
  | windowEdge (unit : Fin 64)
  /-- SEL_SWAP (R70): Writing SEL.SWAP requests activation of a slot's editable selection bank at its next accepted mark. -/
  | selSwap (slot : Fin 2)
  /-- SAMPLE_READ_COMPLETE (R74): The last feature of a sample read is read; baselines update, and the sample is decimated, withheld or built into a frame. -/
  | sampleReadComplete
  /-- CREDIT_MESSAGE (R83): A leaf receives a credit message, adds the grant and takes the level at the slot's next mark. -/
  | creditMessage (slot : Fin 2) (level : BitVec 2) (grant : W16)
  /-- CREDIT_RETURN (R84): The level-1 T build sends a credit message once 16 places are waiting or 1 ms after the first freed, setting the decimation level. -/
  | creditReturn (ring : Fin 2048)
  /-- TRACE_ITEM (R87): A trace source delivers an item that is filtered and turned into packets, or counted as lost. -/
  | traceItem (src : Fin 8) (item : TrcHead) (val : W64)
  /-- TRACE_LOSS_EXIT (R99): Once buffer space, FIFO and quota allow, a source leaves loss and writes a LOSS packet. -/
  | traceLossExit (src : Fin 8)
  /-- TRACE_ENABLE (R96): Setting TRC.CTL.en starts the system-memory ring at offset 0 and clears a DMA error. -/
  | traceEnable
  /-- TRACE_SOURCE_ENABLE (R94): A change of SRC_CFG.en marks the next SYNC reason 5 on a rise or writes STOP reason 2 on a fall. -/
  | traceSourceEnable (src : Fin 8) (w : W32)
  /-- TRACE_BLOCK_ACK (R96): The DMA port acknowledges a 64-byte trace block and WPTR advances. -/
  | traceBlockAck
  /-- TRACE_FLUSH (R97): Writing TRC.FLUSH closes runs, pads the buffer with IDLE words and writes out everything buffered. -/
  | traceFlush
  /-- TRACE_FLUSH_DONE (R97): The flush finishes and flush_busy clears. -/
  | traceFlushDone
  /-- TRACE_DMA_ERROR (R98): A DMA error on a trace write stops the ring, sets dma_err and writes a record. -/
  | traceDmaError
  /-- TRACE_LP_ENTRY (R101): A source enters a low-power state; the leaf writes its open run, drains its FIFO and writes GAP. -/
  | traceLpEntry (src : Fin 8)
  /-- TRACE_LP_EXIT (R101): A source leaves a low-power state; the leaf writes RESUME and a SYNC before its next item. -/
  | traceLpExit (src : Fin 8)
  /-- EVENT_REPORT (R107): A sub-block reports an event; the recorder folds it as a repeat or creates a record, losing it if the ring is full. -/
  | eventReport (b : Build) (page : Byte) (code : W16) (sev : BitVec 3) (flash : FlashRule) (slot : Option (Fin 64)) (payload : BitVec 160)
  /-- RECORD_WINDOW_END (R107): The open record's COAL window ends and the record closes for hand-off to the host event queue. -/
  | recordWindowEnd (b : Build)
  /-- FLASH_PROGRAM_DONE (R111): A flash program of a history record completes and the next program or block step starts. -/
  | flashProgramDone (b : Build) (fail : Bool)
  /-- FLASH_ERASE_DONE (R115): A flash block erase completes and waiting history records proceed. -/
  | flashEraseDone (b : Build) (fail : Bool)
  /-- HISTORY_ENABLE (R113): The first write of 1 to HIS.CTL.en after a cold reset starts the history scan. -/
  | historyEnable (b : Build) (susp : Bool)
  /-- HISTORY_SCAN_DONE (R113): The history scan ends, restoring the write position, power-cycle count, operating seconds and cones and writing history resumed. -/
  | historyScanDone (b : Build)
  /-- HISTORY_FORMAT (R113): Writing HIS.CTL.fmt erases the region and opens block 0 at generation 0. -/
  | historyFormat (b : Build)
  /-- OPERATING_MINUTE (R114): Each minute of operating time ticks the operating-time record's thermometer, or writes a new one at the 65th. -/
  | operatingMinute (b : Build)
  /-- HISTORY_READ (R117): A write to HIS.RPOS starts a flash read of one history place. -/
  | historyRead (b : Build) (w : W32)
  /-- HISTORY_READ_DONE (R117): The history read completes, filling RDATA and setting rdy. -/
  | historyReadDone (b : Build)
  /-- OPERATING_SECOND (R106): A second of powered time passes; operating seconds advance and every live cone adds its heat-work weight. -/
  | operatingSecond (b : Build) (codes : List (Option (BitVec 6)))
  /-- CONE_ENABLE (R119): Enabling a cone starts a read of its part's identity. -/
  | coneEnable (b : Build) (cone : Byte) (w : W32)
  /-- CONE_POLL (R119): The CONE.POLL interval passes and the leaf reads the cone's part identity. -/
  | conePoll (b : Build) (cone : Byte)
  /-- IDENTITY_READ_DONE (R119): A part identity read completes, fails or times out, and the cone matches, marks absent, or archives and rebinds. -/
  | identityReadDone (b : Build) (cone : Byte) (ident : Option (BitVec 128))
  /-- CONE_RESTART (R119): CONE.CMD.restart archives and restarts the selected cone with its identity. -/
  | coneRestart (b : Build)
  /-- CONE_CHECKPOINT (R121): Every CKPT minutes a checkpoint record is written for each cone whose state changed. -/
  | coneCheckpoint (b : Build) (cone : Byte)
  /-- HEARTBEAT (R122): A transition of ks_hb restarts the engine's watch timer, or is a late beat when the engine is hung. -/
  | heartbeat (engine : Fin 64) (beat : Bool) (idle : Bool)
  /-- ENGINE_EXPIRY (R124): An engine's watch timer reaches TO; it becomes hung, its suspects freeze, a dump may start and engine hung is written. -/
  | engineExpiry (engine : Fin 64)
  /-- CONTEXT_EVENT (R125): A context start or end event updates the engine's live context table. -/
  | contextEvent (engine : Fin 64) (start : Bool) (id : W32) (queue : W16)
  /-- RESET_DELAY_EXPIRY (R124): RSTDLY after an expiry passes before the dump ends, and the leaf raises the domain reset request. -/
  | resetDelayExpiry (engine : Fin 64)
  /-- RESET_DONE (R129): rst_done arrives for a domain; hung engines clear, timers restart, requests lower and reset done is written. -/
  | resetDone (dom : Fin 16) (answer : DomAnswer) (edges : BitVec 256)
  /-- RESET_ESCALATED (R127): The escalation time passes without done; the leaf raises the next domain's request or writes reset hung at top. -/
  | resetEscalated (dom : Fin 16)
  /-- HUNG_CLEAR (R129): KST.CMD with hclr clears an engine's hung state without a reset. -/
  | hungClear (engine : Fin 64)
  /-- SOFTWARE_RESET_REQUEST (R129): KST.CMD with rreq makes a software reset request on a domain. -/
  | softwareResetRequest (dom : Fin 16)
  /-- SUSPECT_CLEAR (R125): KST.CMD with sclr clears an engine's suspect list. -/
  | suspectClear (engine : Fin 64)
  /-- REPLAY_BEGIN (R130): Setting KST.RPL.en starts replay mode for an engine with a tag and shift and writes replay begin. -/
  | replayBegin (w : W32)
  /-- REPLAY_END (R130): Clearing KST.RPL.en ends replay mode and writes replay end. -/
  | replayEnd (w : W32)
  /-- DUMP_GO (R134): DMP.CMD.go triggers a software dump, or holds it pending while a dump runs. -/
  | dumpGo
  /-- DUMP_ABORT (R134): DMP.CMD.abort ends the current dump with trailer status 3. -/
  | dumpAbort
  /-- DUMP_RELEASE (R135): DMP.CMD.release releases the last DMA dump, clearing unread. -/
  | dumpRelease
  /-- DUMP_ACCESS_DONE (R131): A debug-master read returns to the dump walker, which records the word and issues the next access. -/
  | dumpAccessDone (v : W32) (err : Bool)
  /-- DUMP_ACCESS_TIMEOUT (R132): A dump access exceeds DMP.ATO and yields a placeholder, or skips the rest of the descriptor after four failures. -/
  | dumpAccessTimeout
  /-- WALK_TIMEOUT (R133): A walk reaches DMP.WTO and ends with trailer status 1. -/
  | walkTimeout
  /-- DUMP_WRITE_STALL (R135): A dump write is unacknowledged for DTO or errs, and the dump restarts on the fallback path or is lost. -/
  | dumpWriteStall (err : Bool)
  /-- DUMP_TRAILER_ACK (R136): The dump trailer write is acknowledged; dump done is written, unread is set and any pending trigger starts. -/
  | dumpTrailerAck
  /-- DUMP_SEGMENT_RECEIVE (R137): A T build stores a leaf dump segment in its dump area, writing leaf dump stored at the end, or refuses it. -/
  | dumpSegmentReceive (link : Byte) (leaf : W32) (body : List Byte)
  /-- DUMP_REFUSAL (R137): A leaf receives a dump refusal, ends the walk and writes dump lost. -/
  | dumpRefusal (id : W32)
  /-- SNAPSHOT_ARM (R145): An arm by schedule entry or SNG.CMD.arm is checked and starts copying, or is refused with a reason. -/
  | snapshotArm (slot : Option (Fin 2))
  /-- SNAPSHOT_ABORT (R150): SNG.CMD.abort while copying tears the snapshot with reason 2. -/
  | snapshotAbort
  /-- GUARD_DISABLE (R150): Writing SNG.CTL.en to 0 while copying tears the snapshot with reason 4. -/
  | guardDisable
  /-- GUARD_CHECK (R147): A write check arrives on the guard port and is answered pass or hold two cycles later, sending copy-first on a first hold. -/
  | guardCheck (a : W64) (len : BitVec 13)
  /-- WAITING_CHECK_ANSWER (R147): A check waiting for a free tag or copy-first place is answered once one frees. -/
  | waitingCheckAnswer
  /-- COPY_DONE (R148): A copier done notice sets the region copied, releases its held writes, or counts a stray notice. -/
  | copyDone (region : W32)
  /-- GUARD_TIMEOUT (R149): A region's hold timer reaches GTO and the snapshot tears with reason 1. -/
  | guardTimeout
  /-- CHUNK_SUBMISSION (R153): A copier submits a chunk header on a lane; the submission is rejected or hashing begins. -/
  | chunkSubmission (lane : Fin 4) (snap : W32) (chunk : W32) (len : W32) (data : List Byte)
  /-- CHUNK_HASHED (R153): A lane finishes hashing a chunk; its digest is kept or compared and an entry may be queued. -/
  | chunkHashed (lane : Fin 4)
  /-- FINGERPRINT_FRAME_TIMER (R154): 100 µs after the oldest queued entry a fingerprint frame is sent. -/
  | fingerprintFrameTimer
  /-- ELECTION_NOTICE (R155): A leaf receives an election notice and stores its decision codes, writing election complete when none is pending. -/
  | electionNotice (snap : W32) (first : W32) (codes : List (BitVec 2))
  /-- DECISION_QUERY (R156): The copier presents a chunk on the decision port and receives its code two cycles later. -/
  | decisionQuery (chunk : W32)
  /-- RECEIVE_PACKET (R160): A packet received on the frame port or an Ethernet port is checked, decrypted and dispatched, or discarded with a cause. -/
  | receivePacket (b : Build) (p : Packet)
  /-- CONTROL_RECEIVE (R166): A control message is accepted in lseq order, acted on or relayed, and acknowledged, or discarded. -/
  | controlReceive (b : Build) (link : Byte) (p : Packet)
  /-- LINK_ACKNOWLEDGEMENT (R166): A link acknowledgement releases retained control messages up to its lseq. -/
  | linkAcknowledgement (b : Build) (link : Byte) (lseq : W32)
  /-- ACK_TIMEOUT (R166): The oldest retained message goes ACKTO without release; the sender resends, or after RETRY declares the link down. -/
  | ackTimeout (b : Build) (link : Byte)
  /-- RESTART_RESEND (R166): While the link is down, every 16 × ACKTO the oldest retained message is resent with restart. -/
  | restartResend (b : Build) (link : Byte)
  /-- PACKET_SENT (R170): The port finishes a packet or is idle and the scheduler picks the next eligible message. -/
  | packetSent (b : Build) (port : Fin 8)
  /-- MAILBOX_SEND (R169): Writing LNK.TXCTL with go commits the mailbox body on queue 0, 1 or 7, or refuses it. -/
  | mailboxSend (b : Build) (w : W32)
  /-- GATE_SWAP (R172): Writing SCH.CTL.swap requests the gate-list bank swap at the next cycle start. -/
  | gateSwap (b : Build) (port : Fin 8)
  /-- GATE_ENTRY_CHANGE (R172): A gate-list entry's duration ends or a cycle starts and the gate mask in force changes. -/
  | gateEntryChange (b : Build) (port : Fin 8)
  /-- LAUNCH_TIME (R175): A timed message's launch time is reached and it becomes eligible. -/
  | launchTime (b : Build) (port : Fin 8)
  /-- QUEUE_SAMPLE (R176): Every 2^SPER cycles the scheduler samples each queue's depth and head delay. -/
  | queueSample (b : Build) (port : Fin 8)
  /-- TSQ_E3_READ (R177): Reading TSQ.E3 removes the head entry of the transmit timestamp queue. -/
  | tsqE3Read (b : Build)
  /-- SEGMENT_RECEIVE (R179): A T build reassembles a frame segment; complete frames pass the CRC and go to the ingest ring in seq order. -/
  | segmentReceive (leaf : W32) (body : List Byte)
  /-- REASSEMBLY_TIMEOUT (R179): ING.RTO passes after a frame's last segment and the incomplete frame is discarded and its credit returned. -/
  | reassemblyTimeout (k : BitVec 18)
  /-- ETHERNET_LINK_DOWN (R182): An Ethernet port's link drops; the port takes a link reset and re-enters auto-negotiation. -/
  | ethernetLinkDown (port : Fin 8)
  /-- ETHERNET_LINK_UP (R181): Auto-negotiation and training complete and the port's link comes up. -/
  | ethernetLinkUp (port : Fin 8) (ty : Fin 4)
  /-- DISTRIBUTE_FRAME (R199): A distributor takes a frame from an ingest ring and sends its projections to replicas, pan cores and stream batches. -/
  | distributeFrame (dist : Fin 64)
  /-- PROJECTION_ARRIVAL (R188): A projection arrives at a core in the projection class, or with `data` in the data class (R197), takes a window place and creates a work unit. -/
  | projectionArrival (way : CoreWay)
  /-- WORK_UNIT_END (R270): A core's work unit ends its traversals or folds, sends its partial and frees its window place. -/
  | workUnitEnd (core : Fin 81920) (idx : Byte)
  /-- FORCED_REFRESH (R193): A bank with no idle cycle within 512 cycles forces a refresh. -/
  | forcedRefresh (core : Fin 81920)
  /-- PATROL_SCRUB (R194): A line falls due for patrol scrub and is read and corrected. -/
  | patrolScrub (space : BitVec 2) (word : BitVec 33) (found : Fin 3)
  /-- CURRENT_INTERVAL (R202): A 10 µs current interval ends and the issue fraction falls, holds or rises. -/
  | currentInterval (mean : W32)
  /-- INGEST_RING_ENABLE (R205): Setting RCFG.en on an ingest ring allocates it, or is refused for overlap or double binding. -/
  | ingestRingEnable (ring : Fin 2048) (w : W32)
  /-- APERTURE_STAGE_WRITE (R207): A write to a queue's aperture without byte 0x3F stages its bytes. -/
  | apertureStageWrite (q : Fin 1536) (off : BitVec 6) (data : List Byte)
  /-- COMMAND_APPEND (R207): A write including byte 0x3F appends the staged command to the ring, or drops it. -/
  | commandAppend (q : Fin 1536) (off : BitVec 6) (data : List Byte)
  /-- COMMAND_DISPATCH (R213): A class dispatcher takes the next command from a ready queue and journals it. -/
  | commandDispatch (cls : Fin 6)
  /-- NOP (R209): NOP ends done with result 0. -/
  | nop (q : Fin 1536)
  /-- WAITQ (R212): WAITQ waits until another queue's QDONE reaches a count. -/
  | waitq (q : Fin 1536)
  /-- WAITAT (R212): WAITAT waits until a pod time or step stamp is reached. -/
  | waitat (q : Fin 1536)
  /-- WAIT_SATISFIED (R212): The condition of a waiting WAITQ or WAITAT is met and the command ends. -/
  | waitSatisfied (q : Fin 1536)
  /-- WAITQ_TIMEOUT (R209): A WAITQ's timeout expires and it ends with status 9. -/
  | waitqTimeout (q : Fin 1536)
  /-- TXCLOSE (R221): TXCLOSE fixes a transaction's commit point, applying it locally or starting a pod-wide prepare. -/
  | txclose (q : Fin 1536)
  /-- TXABORT (R220): TXABORT dooms an undecided transaction, releasing its reservations. -/
  | txabort (q : Fin 1536)
  /-- MARK (R209): MARK ends done with its code. -/
  | mark (q : Fin 1536)
  /-- MLOAD (R255): MLOAD checks a Gulti package and loads its images, multicast groups and projections. -/
  | mload (q : Fin 1536)
  /-- MUNLOAD (R255): MUNLOAD frees a package's cores, regions and multicast groups once its work ends. -/
  | munload (q : Fin 1536)
  /-- MBIND (R256): MBIND binds a handle to an attached slot. -/
  | mbind (q : Fin 1536)
  /-- MUNBIND (R209): MUNBIND removes a handle's binding from a slot. -/
  | munbind (q : Fin 1536)
  /-- PDEFINE (R227): PDEFINE validates a pan-set descriptor and reserves its cores, cells and groups. -/
  | pdefine (q : Fin 1536)
  /-- PFREE (R242): PFREE closes every open cut of a pan set and waits for its harvests to be acknowledged. -/
  | pfree (q : Fin 1536)
  /-- PFREE_RELEASE (R242): Every harvest of a freeing pan set is acknowledged and its resources are released. -/
  | pfreeRelease (pset : BitVec 10)
  /-- CUTCLOSE (R242): CUTCLOSE closes the named cut, opening it empty if needed. -/
  | cutclose (q : Fin 1536)
  /-- COPY (R209): COPY moves data between spaces. -/
  | copy (q : Fin 1536)
  /-- ZCOMP (R327): ZCOMP compresses a source range into one Zstandard frame within its output limit. -/
  | zcomp (q : Fin 1536)
  /-- ZDECOMP (R330): ZDECOMP decompresses Zstandard frames within its output limit. -/
  | zdecomp (q : Fin 1536)
  /-- MSEND (R209): MSEND sends a control message to a neighbour and waits for link release. -/
  | msend (q : Fin 1536)
  /-- START (R338): START validates a continuity descriptor and begins its start, teardown, checkpoint, spare or replay operation. -/
  | start (q : Fin 1536)
  /-- CONTAIN (R292): CONTAIN sends a containment request to a leaf, after a budget grant for expel-notice, and waits for its acknowledgement. -/
  | contain (q : Fin 1536)
  /-- SATTACH (R209): SATTACH attaches a T-build job slot with job, epoch, notice sources and period seed. -/
  | sattach (q : Fin 1536)
  /-- SDETACH (R209): SDETACH detaches a job slot with nothing bound. -/
  | sdetach (q : Fin 1536)
  /-- SEPOCH (R242): SEPOCH sets a slot's replay epoch and closes old-epoch cuts with reason 7. -/
  | sepoch (q : Fin 1536)
  /-- QUEUE_RESUME (R214): QMG.QCTL resume continues a stopped queue at its next command. -/
  | queueResume (q : Fin 1536)
  /-- QUEUE_FLUSH (R214): QMG.QCTL flush ends every held command with status 11 and continues. -/
  | queueFlush (q : Fin 1536)
  /-- THIEF_IDLE (R217): A core with no pending unit sends a steal request to its next victim. -/
  | thiefIdle (core : Fin 81920)
  /-- STEAL_REQUEST (R217): A victim grants half its pending units to a thief, or refuses. -/
  | stealRequest (core : Fin 81920)
  /-- STEAL_REFUSED (R217): A thief receives a refusal and waits BACKOFF before its next victim. -/
  | stealRefused (core : Fin 81920)
  /-- STEAL_BACKOFF_EXPIRY (R217): A thief's backoff or rest period ends and it may request again. -/
  | stealBackoffExpiry (core : Fin 81920)
  /-- STEAL_TRANSFER_DONE (R217): A granted projection's copy completes into the thief's window and the victim's place frees. -/
  | stealTransferDone (core : Fin 81920)
  /-- CLASS_UNIT_RESET (R219): ENG.CCTL.rst resets an engine class, processes its journal and writes recovery markers. -/
  | classUnitReset (cls : Fin 6) (pass : W32)
  /-- COMMIT_POINT (R221): A decided transaction's commit time or stamp is reached and every member applies in one cycle. -/
  | commitPoint (idx : Byte)
  /-- TX_PREPARE (R224): A T build receives prepare parts, forwards them and validates and reserves its members. -/
  | txPrepare (link : Byte) (m : TxMsg)
  /-- VOTE_TIME (R224): A node's vote time arrives and it sends its vote, counting missing children as no. -/
  | voteTime (job : W32) (txid : W32)
  /-- TX_VOTE (R224): A node receives a child's vote. -/
  | txVote (link : Byte) (m : TxMsg)
  /-- TX_DECISION (R225): The coordinator decides commit or abort by D and sends the decision copy. -/
  | txDecision (job : W32) (txid : W32)
  /-- TX_DECISION_COPY (R225): The alternate parent or standby stores a decision copy and acknowledges it. -/
  | txDecisionCopy (link : Byte) (m : TxMsg)
  /-- TX_DECISION_COPY_ACK (R225): The decision copy's acknowledgement arrives and the coordinator sends commit and abort. -/
  | txDecisionCopyAck (job : W32) (txid : W32)
  /-- TX_COMMIT (R225): A node receives commit, forwards it and holds the commit point. -/
  | txCommit (link : Byte) (m : TxMsg)
  /-- TX_ABORT (R225): A node receives abort, forwards it and releases its reservations. -/
  | txAbort (m : TxMsg)
  /-- TX_COMMIT_ACK (R225): A node receives a child's commit acknowledgement and forgets that child's outcome. -/
  | txCommitAck (link : Byte) (m : TxMsg)
  /-- TRANSACTION_IN_DOUBT (R226): No outcome by D + OUTTO; the node sends an outcome query and writes transaction in doubt. -/
  | transactionInDoubt (job : W32) (txid : W32)
  /-- TX_OUTCOME_QUERY (R226): A node holding the outcome or a decision copy answers an outcome query. -/
  | txOutcomeQuery (link : Byte) (m : TxMsg)
  /-- CUT_ANGLE_DEADLINE (R242): A cut's angle deadline is reached and it closes with reason 1, closing earlier cuts. -/
  | cutAngleDeadline (pset : BitVec 10)
  /-- CUT_TIME_DEADLINE (R242): A cut's pod-time deadline is reached and it closes with reason 2. -/
  | cutTimeDeadline (pset : BitVec 10)
  /-- HARVEST_PUBLISH (R243): After a closed cut's last in-time unit ends, its banks are read, merged and staged as a harvest. -/
  | harvestPublish (pset : BitVec 10)
  /-- HARVEST_RING_WRITE (R244): A staged harvest that fits its host harvest ring is written and harvest published follows. -/
  | harvestRingWrite (ring : Fin 64)
  /-- HARVEST_RELAY (R23): A harvest at the head of the relay queue with enough credit is sent to the parent in segments. -/
  | harvestRelay
  /-- HARVEST_SEGMENT_RECEIVE (R245): A parent reassembles a child's harvest and writes it to the child's ring, or discards it. -/
  | harvestSegmentReceive (child : Fin 192) (body : List Byte)
  /-- PARTIAL_RECEIVE (R264): A gatherer adds a tree core's partial to the sample's ensemble score, completing it when all have arrived. -/
  | partialReceive (handle : Fin 64) (gath : Fin 64)
  /-- SCORE_SEND (R267): The gatherer sends a frame's score features to the pan cores in frame order once earlier frames are sent. -/
  | scoreSend (handle : Fin 64) (gath : Fin 64)
  /-- SCORE_EXPIRED (R268): A score incomplete SWAIT after its frame's ring write is sent as missing. -/
  | scoreExpired (handle : Fin 64) (gath : Fin 64)
  /-- BATCH_READY (R271): A streamed group's batch fills with b projections and becomes ready. -/
  | batchReady (handle : Fin 64) (group : BitVec 14)
  /-- SHORT_BATCH (R271): A batch's oldest projection waits BWAIT and the batch becomes ready short. -/
  | shortBatch (handle : Fin 64) (group : BitVec 14)
  /-- STREAM_LOAD_DONE (R272): A stream span's image load from LPDDR5X completes and walking of the batch begins. -/
  | streamLoadDone (handle : Fin 64) (group : BitVec 14) (waited : W32)
  /-- STREAM_BATCH_DONE (R272): A stream span finishes walking a batch, releases its buffer and takes the next ready batch. -/
  | streamBatchDone (handle : Fin 64) (group : BitVec 14)
  /-- HEALTH_ENABLE (R277): Writing HLT.SCFG.en enables a slot's health unit after its checks, or is refused. -/
  | healthEnable (slot : Fin 64) (w : W32)
  /-- REFERENCE_MESSAGE (R281): A T build receives a job-wide reference, applies it if newer and forwards it. -/
  | referenceMessage (body : List Byte)
  /-- CONTAINMENT_REQUEST (R293): A leaf receives a containment request, applies it on the host handshake or acknowledges a duplicate. -/
  | containmentRequest (m : CtnMsg)
  /-- CONTAINMENT_HOST_ACK (R293): The host raises or lowers a containment acknowledge and the leaf acknowledges upward. -/
  | containmentHostAck (kind : Fin 3) (level : Bool)
  /-- CONTAINMENT_ACK_TIMEOUT (R293): The host does not answer within CTN.ACKTO and the leaf acknowledges with status 1. -/
  | containmentAckTimeout
  /-- CONTAINMENT_ACKNOWLEDGEMENT (R292): The T build receives a leaf's acknowledgement and ends the CONTAIN command. -/
  | containmentAcknowledgement (m : CtnMsg)
  /-- CONTAINMENT_UNACKNOWLEDGED (R292): No acknowledgement within HLT.ACKTO ends CONTAIN with status 9. -/
  | containmentUnacknowledged (q : Fin 1536)
  /-- STATE_QUERY (R295): A leaf answers a containment state query with its active outputs and last rseq. -/
  | stateQuery (m : CtnMsg)
  /-- STATE_QUERY_ANSWER (R295): The health unit sets a die's state from the query answer and writes health state restored. -/
  | stateQueryAnswer (m : CtnMsg)
  /-- GRANT_REQUEST (R297): A budget holder judges a grant request and grants or denies it, or a non-holder forwards it. -/
  | grantRequest (m : CtnMsg)
  /-- GRANT (R299): A granted die at the expel level is expelled, or the grant is returned. -/
  | grant (m : CtnMsg)
  /-- DENY (R299): A denied die becomes held and die held is written. -/
  | deny (m : CtnMsg)
  /-- GRANT_TIMEOUT (R299): No answer to a grant request within ACKTO is taken as a deny with status 3. -/
  | grantTimeout (slot : Fin 64) (member : Byte)
  /-- GRANT_RETURNED (R299): The holder receives a returned grant and subtracts it from g. -/
  | grantReturned (m : CtnMsg)
  /-- SPARES_WRITE (R300): A write to HLT.SPARES sets S, clears g and r and sends budget open. -/
  | sparesWrite (slot : Fin 64) (w : W32)
  /-- BUDGET_OPEN (R300): A budget-open message applies r, re-arms held dies and is forwarded, or reveals a duplicate holder. -/
  | budgetOpen (m : CtnMsg)
  /-- EVENT_RECORD_WRITE_ACK (R304): The leaf's DMA port acknowledges a record body or word-0 write and the next write or PI advance follows. -/
  | eventRecordWriteAck
  /-- EVENT_RECORD_STAGE (R310): A T-build record takes a staging place in its queue and is written to the host ring, or is lost and counted. -/
  | eventRecordStage
  /-- CI_WRITE (R303): Driver software writes a host event queue's consumer index, freeing places for waiting records. -/
  | ciWrite (b : Build) (evq : Fin 512) (w : W32)
  /-- COALESCING_TIMER (R306): The oldest unsignalled record has waited ctim and an interrupt is sent. -/
  | coalescingTimer (b : Build) (evq : Fin 512)
  /-- EVENT_DMA_ERROR (R307): A DMA error on an event write stops the leaf's host queue and sets dma_err. -/
  | eventDmaError
  /-- EVENT_QUEUE_ENABLE (R307): Setting HEV.CTL.en zeroes PI and CI and restarts writing records held in the RAM ring. -/
  | eventQueueEnable (b : Build) (evq : Fin 512) (w : W32)
  /-- COMPRESSION_GO (R335): CMP.CMD.go checks and starts a leaf compression job, or is refused. -/
  | compressionGo
  /-- COMPRESSION_ABORT (R334): CMP.CMD.abort stops a leaf job as its output limit would. -/
  | compressionAbort (produced : W32)
  /-- COMPRESSION_JOB_DONE (R334): A leaf compression job ends, sets done and writes compression job done. -/
  | compressionJobDone (dmaErr : Bool)
  /-- START_PART (R342): A T build receives start descriptor parts, caches them, acknowledges and forwards them. -/
  | startPart (link : Byte) (m : StartMsg)
  /-- HOP_ACKNOWLEDGEMENT (R344): A parent receives a child's hop acknowledgement, orphaning it on status 1 or counting coverage. -/
  | hopAcknowledgement (link : Byte) (m : StartMsg)
  /-- HOP_TIMEOUT (R344): No hop acknowledgement within HOPTO marks the child's subtree orphaned. -/
  | hopTimeout (job : W32) (bseq : W32) (link : Byte)
  /-- LEAF_ATTACH (R339): A leaf receives leaf attach, sets job, epoch and en, and acknowledges. -/
  | leafAttach (m : StartMsg)
  /-- LEAF_ACKNOWLEDGEMENT (R340): The level-1 T build receives a leaf's attach acknowledgement. -/
  | leafAcknowledgement (m : StartMsg)
  /-- LEAF_NOT_ATTACHED (R340): A leaf does not acknowledge attach within HOPTO and leaf not attached is written. -/
  | leafNotAttached (job : W32) (bseq : W32) (leaf : W32)
  /-- TEARDOWN_PART (R348): A T build receives teardown parts on the bulk queue and applies its members. -/
  | teardownPart (link : Byte) (m : StartMsg)
  /-- TEARDOWN_RESEND (R348): A teardown part's hop acknowledgement is missing after HOPTO and the part is resent or the child orphaned. -/
  | teardownResend (job : W32) (bseq : W32) (link : Byte)
  /-- LEAF_DETACH (R348): A leaf receives leaf detach, clears the slot's en and writes slot detached. -/
  | leafDetach (slot : Fin 2)
  /-- RELEASE_DEADLINE (R351): The start's release deadline passes with a claimed resource held and the node forces the release. -/
  | releaseDeadline (job : W32)
  /-- CENSUS_REPORT (R355): The census holder records a member's chunk digest and decides pairs and writers. -/
  | censusReport (body : List Byte)
  /-- HOLDER_STATE_REPORT (R356): A liveness change updates the census, replacing writers, raising thin chunks or failing the checkpoint. -/
  | holderStateReport (body : List Byte)
  /-- WRITTEN_REPORT (R357): A written report marks a chunk written and may complete the checkpoint and write the manifest. -/
  | writtenReport (body : List Byte)
  /-- CENSUS_DEADLINE (R358): The census deadline passes and the checkpoint fails with reason 3. -/
  | censusDeadline (slot : Fin 64)
  /-- COPIED_REPORT (R361): A copied report marks a spare chunk done and may write spare ready. -/
  | copiedReport (body : List Byte)
  /-- REPLAY_ARM (R362): A leaf receives replay arm, writes IDX_SET and takes the epoch at the next mark. -/
  | replayArm (m : StartMsg)
  /-- LADDER_STEP_END (R365): A warm-up ladder step ends and the next begins, moving the admission stage. -/
  | ladderStepEnd (b : Build) (flashOk : Bool) (crcOk : Bool) (fails : List (BitVec 13 × BitVec 17)) (chans : Byte)
  /-- LADDER_STEP_OVERRAN (R365): A ladder step not ended by twice its end time holds the ladder and sets stuck. -/
  | ladderStepOverran
  /-- HELLO (R366): A parent receives a hello and admits, refuses or drops it by stage, tokens, limits and identity. -/
  | hello (p : Packet)
  /-- TOKEN_REFILL (R366): Every millisecond each port's hello bucket refills to HRATE. -/
  | tokenRefill
  /-- HELLO_RETRY (R367): A child's backoff wait expires and it sends another hello. -/
  | helloRetry (b : Build)
  /-- ACCEPT (R406): A child receives an accept, verifies it and takes the new link keys. -/
  | accept (b : Build) (epoch : Byte) (peer : W32) (detail : Byte)
  /-- HELLO_REFUSE (R366): A child receives a hello refusal and backs off. -/
  | helloRefuse (b : Build)
  /-- LINK_ENABLE (R368): Setting LNK.CTL.en after the PUF step makes the leaf send its first hello. -/
  | linkEnable
  /-- KEEPALIVE (R376): KEEP microseconds after the last control message a keepalive is sent. -/
  | keepalive (b : Build) (link : Byte)
  /-- SUPPLY_WARNING_START (R369): The supply code falls to WARNLV; the warning begins and flash work is held. -/
  | supplyWarningStart (b : Build) (code : Byte) (rail : Byte)
  /-- SUPPLY_WARNING_END (R370): The code rises to WARNLV + HYST; flash work resumes and supply dip is written. -/
  | supplyWarningEnd (b : Build) (code : Byte) (rail : Byte) (took : Bool)
  /-- SUPPLY_WARNING_LONG (R370): A warning active for WLONG writes supply warning long. -/
  | supplyWarningLong (b : Build)
  /-- COLD_RESET (R373): Power-on, reset level, reset pin, clock loss or BLK.RST kind 1 take a cold reset. -/
  | coldReset (b : Build) (source : Byte)
  /-- WARM_RESET (R373): rst_warm_n or BLK.RST kind 2 take a warm reset. -/
  | warmReset (b : Build) (source : Byte)
  /-- UNIT_RESET (R373): BLK.RST kind 3 resets every engine of the leaf. -/
  | unitReset
  /-- LINK_RESET (R373): Link down, Ethernet link loss or PCI Express reset takes a link reset. -/
  | linkReset (b : Build) (pci : Bool) (port : Fin 8)
  /-- RESET_RELEASE (R374): A held reset cause is released and the block starts its ladder. -/
  | resetRelease (b : Build) (taHash : BitVec 384) (taValid : Bool)
  /-- PARK (R377): PWR.CMD.park completes history work, holds flash and stops sampling for removal. -/
  | park (b : Build)
  /-- UNPARK (R377): PWR.CMD.unpark undoes a park. -/
  | unpark (b : Build)
  /-- DEBUG_MODE_WRITE (R389): A keyed write to BLK.DBG changes debug mode and writes debug mode changed. -/
  | debugModeWrite (b : Build) (w : W32)
  /-- INJECTION_KEY (R390): A write of an arming key to PGINJSEL advances the arming sequence. -/
  | injectionKey (b : Build) (page : BitVec 8) (w : W32)
  /-- INJECTION_ARM (R390): A write of 1 to a PGINJ bit arms an injection, firing memory kinds at once. -/
  | injectionArm (b : Build) (page : BitVec 8) (w : W32)
  /-- CORRECTED_ERROR_SECOND (R385): A TB1 second ends and corrected errors at or above CELIM write a record. -/
  | correctedErrorSecond (b : Build)
  /-- ERROR_INTERRUPT_ENABLE (R383): Writing ERR.CTL.ie from 0 to 1 with a SUM bit set sends the error interrupt. -/
  | errorInterruptEnable (b : Build) (w : W32)
  /-- ENROLL (R396): IDN.CMD.enroll measures the PUF afresh and writes new helper data. -/
  | enroll (b : Build)
  /-- INSTALL_CERTS (R397): IDN.CMD.certs reads a certificate chain and writes it to flash, or refuses it. -/
  | installCerts (b : Build) (verdict : BitVec 3) (flashOk : Bool)
  /-- CONFIGURATION_APPLY (R401): IDN.CMD.apply verifies a configuration blob and writes and applies it, or refuses it. -/
  | configurationApply (b : Build) (v : SigVerdict) (flashOk : Bool)
  /-- REPORT_REQUEST (R404): IDN.CMD.report writes a signed attestation report to RPTADDR and sets rdy. -/
  | reportRequest (b : Build)
  /-- MEASUREMENT_EXTEND (R403): A write to IDN.EXTIDX extends M4 to M7 with EXTBUF. -/
  | measurementExtend (b : Build) (w : W32)
  /-- ATTESTATION_REQUEST (R404): A child receives an attestation request and answers with a report. -/
  | attestationRequest (b : Build) (nonce : List Byte)
  /-- ATTESTATION_REPORT (R404): A parent receives an attestation report or certificate part from a child. -/
  | attestationReport (link : Byte) (body : List Byte)
  /-- THERMAL_LIMIT (R435): TJ reaches TJHOT; the issue fraction is capped at 8/16 and thermal limit is written. -/
  | thermalLimit (tj : Byte) (sensor : Byte)
  /-- THERMAL_CLEAR (R435): TJ falls below TJHOT − 3 °C and the thermal cap lifts. -/
  | thermalClear (tj : Byte) (sensor : Byte)
  /-- THERMTRIP (R435): TJ reaches 115 °C; THERMTRIP_N falls and the T build holds in cold reset. -/
  | thermtrip (tj : Byte) (sensor : Byte)
  /-- DATA_COMMAND_COMPLETE (R218): A COPY, ZCOMP or ZDECOMP command running on its engine finishes its last byte, ends with its status and result and writes its completion record. -/
  | dataCommandComplete (q : Fin 1536) (engine : Fin 32)
  /-- HARVEST_RING_RCI_WRITE (R244): Driver software writes HRV.RCI of a host harvest ring, freeing room for waiting harvests and acknowledging delivered harvests for PFREE, or is refused when not a multiple of 16. -/
  | harvestRingRciWrite (ring : Fin 64) (v : W32)
  /-- TRACE_RPTR_WRITE (R97): Driver software writes TRC.RPTR, freeing ring space so that a full trace ring resumes writing and the occupancy notice re-arms, or is refused when not a multiple of 64. -/
  | traceRptrWrite (w : W32)
  /-- BUS_MASTER_ENABLE (R372): After a PCI Express link reset, host software sets Bus Master Enable again and the T build resumes writing records, harvests and manifests to host memory. -/
  | busMasterEnable
  /-- MSIX_VECTOR_UNMASK (R312): Host software unmasks an MSI-X vector whose pending bit is set, and the held interrupt message is sent. -/
  | msixVectorUnmask (vector : Fin 64)
  /-- DISTRIBUTOR_STALLED (R200): A distributor has waited on a stalled multicast for 2^20 consecutive cycles and sets NOC PGCAUSE bit 0. -/
  | distributorStalled (dist : Fin 64)
deriving DecidableEq, Repr

end Sys2Proof
end

