-- ==== Sys2Proof/Machine/Kiln.lean ====
section
/-!
DEFINITION. The kiln sitter and the dump walker (spec/06_kiln_sitter_dump.md, R122 to R140; segments as R163 gives them).
-/

namespace Sys2Proof.Machine

/-! ### Engines, domains and their registers -/

def Leaf.engine (l : Leaf) (e : Nat) : Engine := smGet l.kst.engines e Engine.reset
def Leaf.setEngine (l : Leaf) (e : Nat) (x : Engine) : Leaf := { l with kst := { l.kst with engines := smSet l.kst.engines e x Engine.reset } }
def Leaf.dom (l : Leaf) (d : Nat) : Dom := smGet l.kst.doms d Dom.reset
def Leaf.setDom (l : Leaf) (d : Nat) (x : Dom) : Leaf := { l with kst := { l.kst with doms := smSet l.kst.doms d x Dom.reset } }

def Leaf.engCfg (l : Leaf) (e : Nat) : W32 := l.u.reg (R.KST_ENG_CFG + 8 * e)
def Leaf.domCfg (l : Leaf) (d : Nat) : W32 := l.u.reg (R.KST_DOM_CFG + 16 * d)

/-- An engine's reset domain. -/
def Leaf.engDom (l : Leaf) (e : Nat) : Nat := fld (l.engCfg e) 16 4

/-- An engine is watched (R122). -/
def Leaf.watched (l : Leaf) (e : Nat) : Bool := l.u.rb R.KST_CTL 31 && bit (l.engCfg e) 31

/-- Replay mode is on for an engine (R130). -/
def Leaf.replaying (l : Leaf) (e : Nat) : Bool := l.u.rb R.KST_RPL 31 && l.u.rf R.KST_RPL 16 6 = e

/-- The timeout in units of 1,024 cycles (R123, R130). -/
def Leaf.engTo (l : Leaf) (e : Nat) : Nat :=
  let t := max 1 (l.u.rf (R.KST_TO + 8 * e) 0 24)
  if l.replaying e then max 1 (t / 2 ^ l.u.rf R.KST_RPL 26 4) else t

/-- The records of R142. -/
def rkHung : RecKind := rk 0x0B 0x0001 3 .always
def rkResetRequested : RecKind := rk 0x0B 0x0002 2 .always
def rkResetEscalated : RecKind := rk 0x0B 0x0003 3 .always
def rkResetDone : RecKind := rk 0x0B 0x0004 1 .always
def rkResetTop : RecKind := rk 0x0B 0x0005 4 .always
def rkLateBeat : RecKind := rk 0x0B 0x0006 1 .bySeverity
def rkReplayBegin : RecKind := rk 0x0B 0x0007 1 .always
def rkReplayEnd : RecKind := rk 0x0B 0x0008 1 .always
def rkDumpDone : RecKind := rk 0x0C 0x0001 1 .always
def rkDumpDropped : RecKind := rk 0x0C 0x0002 2 .bySeverity
def rkDumpLost : RecKind := rk 0x0C 0x0003 3 .always
def rkDumpAborted : RecKind := rk 0x0C 0x0004 2 .always

/-- The `rst_edge` inputs take levels, 16 bits a domain. -/
def Leaf.seeEdges (l : Leaf) (e : BitVec 256) : Leaf := { l with kst := { l.kst with edges := e } }

/-! ### Reset requests (R126 to R128) -/

/-- The edge-hazard sample of a domain: bit d is ignored (R128). -/
def Leaf.sampleEdges (l : Leaf) (d : Nat) : Nat := (setBit (BitVec.ofNat 16 (fld l.kst.edges (16 * d) 16)) d false).toNat

/-- Raise a domain's request: the hazards are sampled and kept. Answers the sample. -/
def Leaf.raise (l : Leaf) (d : Nat) (x : Dom) : Leaf × Nat :=
  let m := l.sampleEdges d
  let l := l.setDom d { x with req := true, raisedAt := l.u.clk.tb1 }
  (l.blk (fun u => ((u.modReg (R.KST_HAZ + 16 * d) (fun v => v ||| BitVec.ofNat 32 m)).emit (.pin .rstReq d 1))), m)

/-- Request a reset of a domain for an engine, 0xFF for software (R126): a raised request is joined. -/
def Leaf.requestReset (l : Leaf) (d engine : Nat) : Leaf :=
  if !bit (l.domCfg d) 31 then l.blk (fun u => u.cause 0x0B 0 2)
  else if (l.dom d).req then l
  else
    let r := l.raise d { Dom.reset with firstAt := l.u.clk.ival, first := d, ack := (l.dom d).ack, done := (l.dom d).done }
    r.1.blk (fun u => u.report rkResetRequested .dflt
      (pay [fd 0x24 1 d, fd 0x25 1 engine, fd 0x28 2 r.2, fd 0x2C 8 u.clk.tb1.toNat]))

/-- An owed request goes out (R124): only where the engine still owes one. -/
def Leaf.payOwed (l : Leaf) (e : Nat) : Leaf :=
  match (l.engine e).owed with
  | none => l
  | some _ => (l.setEngine e { l.engine e with owed := none }).requestReset (l.engDom e) e

/-! ### Dumps: bytes and segments (R135 to R139) -/

/-- The dump's size limit: the host buffer on the DMA path, none on the fallback path. -/
def Leaf.dumpLimit (l : Leaf) (r : DumpRun) : Option Nat := if r.fallback then none else some (l.u.rn R.DMP_BUFSZ)

/-- Queue the dump's bytes that are not yet in segments, as far as the dumps egress queue has room: whole segments, and the rest where `last`
(R137, R163, R169). -/
def Leaf.dumpSegs (l : Leaf) (r : DumpRun) (last : Bool) : Nat → Leaf × DumpRun
  | 0 => (l, r)
  | n + 1 =>
    let rest := r.out.drop r.sent
    if rest.length < 8176 && !(last && decide (0 < rest.length)) then (l, r)
    else
      let part := rest.take 8176
      let flags := (if r.segno = 0 then 128 else 0) + (if last && decide (rest.length ≤ 8176) then 64 else 0)
      let body := layout 16 [fd 0 1 3, fd 1 1 flags, fd 2 2 part.length, fd 4 4 r.id.toNat, fd 8 4 r.sent, fd 0xC 4 r.segno] ++ part
      let m := mkMsg 3 0 body
      if l.u.room 0 6 m.cells then
        Leaf.dumpSegs (l.blk (fun u => u.enqueue 0 6 m)) { r with sent := r.sent + part.length, segno := r.segno + 1 } last n
      else (l, r)

/-- A whole segment of the dump still waits for room (R169). -/
def DumpRun.backlog (r : DumpRun) : Bool := r.fallback && decide (8176 ≤ r.out.length - r.sent)

/-- The bytes of a dump that have reached their buffer or the egress queue. -/
def DumpRun.storedBytes (r : DumpRun) : Nat := if r.fallback then r.sent else r.out.length

/-- Bytes are added to the dump: written to the buffer, or queued as segments. -/
def Leaf.dumpPut (l : Leaf) (r : DumpRun) (bs : List Byte) (last : Bool) : Leaf × DumpRun :=
  let at' := r.out.length
  let r := { r with out := r.out ++ bs }
  if r.fallback then l.dumpSegs r last (r.out.length / 8176 + 2)
  else
    (l.blk (fun u => u.hostWrite (u.rn R.DMP_BUF_H * 2 ^ 32 + u.rn R.DMP_BUF_L + at') bs), { r with writeAt := l.u.clk.ival })

/-- The 64-byte header of a dump (R139). -/
def Leaf.dumpHeader (l : Leaf) (r : DumpRun) : List Byte :=
  let st := r.stamp
  let flags := r.restarted.toNat * 4 + r.fallback.toNat * 2 + r.zstd.toNat
  let h := layout 64 [fd 0 1 1, fd 1 1 r.trig.reason, fd 2 1 flags, fd 3 1 r.trig.engine, fd 4 4 r.id.toNat,
    fd 8 4 (l.u.rn R.SMP_LEAFNO), fd 0xC 1 r.suspects.length, fd 0xD 1 r.suspInc.toNat, fd 0xE 2 (l.u.rf R.DMP_NDESC 0 9),
    fd 0x10 8 r.tb0.toNat, fd 0x18 8 r.tb1.toNat, fd 0x20 4 st.idx.toNat, fd 0x24 4 st.ang.toNat,
    fd 0x28 1 (if st.ok then 128 + st.slot else 0), fd 0x29 1 st.epoch.toNat, fd 0x2A 2 r.trig.rtag, fd 0x2C 4 l.u.pgver.toNat]
  overlay h 0x3C (leBytes 4 (crc32c h).toNat)

/-- The suspect entries of a dump (R139). -/
def dumpSuspects (r : DumpRun) : List Byte :=
  r.suspects.flatMap (fun s => layout 16 [fd 0 4 s.id.toNat, fd 4 2 s.queue.toNat, fd 6 1 r.trig.engine, fd 8 8 s.tb1.toNat])

/-- The words of a poison map: bit i marks word i (R139). -/
def poisonMap (ps : List Bool) : List Byte :=
  let n := ceilDiv ps.length 32
  leBytes (4 * n) ((ps.zipIdx.map (fun (p : Bool × Nat) => if p.1 then 2 ^ p.2 else 0)).sum)

/-- A section with its words and poison map (R139). -/
def sectionBytes (w : Walk) (timeout : Bool) : List Byte :=
  let flags := w.ptrFail.toNat * 4 + w.skip.toNat * 2 + timeout.toNat
  layout 32 [fd 0 1 2, fd 1 1 w.op, fd 2 1 w.tag, fd 3 1 flags, fd 4 2 w.desc, fd 8 8 w.addr.toNat, fd 0x10 4 w.words.length,
    fd 0x14 4 (w.poison.filter id).length, fd 0x18 8 w.tb1.toNat] ++
  w.words.reverse.flatMap (fun x => leBytes 4 x.toNat) ++ poisonMap w.poison.reverse

/-- The bytes that a dump with `n` words in its open section takes, trailer included. -/
def dumpNeed (r : DumpRun) (n : Nat) : Nat := r.out.length + r.raw.length + 32 + 4 * n + 4 * ceilDiv n 32 + 32

/-- The output limit of a dump's compressed frame: what leaves 32 bytes of the buffer for the trailer (R136, R138). -/
def Leaf.zLimit (l : Leaf) (r : DumpRun) : Nat := match l.dumpLimit r with | some s => s - r.out.length - 32 | none => 2 ^ 32

/-- The dump can take a section, as it stands or as its bytes are stored where it is compressed: 32 bytes are left for the trailer (R136). -/
def Leaf.dumpFits (l : Leaf) (r : DumpRun) (w : Walk) : Bool :=
  match l.dumpLimit r with
  | none => true
  | some s =>
    if r.zstd then !(zCompress 0 (l.zLimit r) none none (r.raw ++ sectionBytes w false)).stopped else decide (dumpNeed r w.words.length ≤ s)

/-- A section with its oldest `n` words alone. -/
def Walk.cutTo (w : Walk) (n : Nat) : Walk := { w with words := w.words.drop (w.words.length - n), poison := w.poison.drop (w.poison.length - n) }

/-- The section with as many of its words as the dump can take (R136). -/
def Leaf.cutToFit (l : Leaf) (r : DumpRun) (w : Walk) : Walk :=
  w.cutTo (((List.range (w.words.length + 1)).reverse.find? (fun n => l.dumpFits r (w.cutTo n))).getD 0)

/-- A section closes: its bytes join the dump, or wait in `raw` to be compressed. -/
def Leaf.closeSection (l : Leaf) (r : DumpRun) (timeout : Bool) : Leaf × DumpRun :=
  match r.cur with
  | none => (l, r)
  | some w =>
    let bs := sectionBytes w timeout
    let r := { r with cur := none, nsect := r.nsect + 1, npoison := r.npoison + (w.poison.filter id).length }
    if r.zstd then (l, { r with raw := r.raw ++ bs }) else l.dumpPut r bs false

/-- The trailer of a dump with `status` (R139). -/
def dumpTrailer (r : DumpRun) (status : Nat) (tb1 : W64) : List Byte :=
  let t := layout 32 [fd 0 1 3, fd 1 1 status, fd 2 2 r.nsect, fd 4 4 r.id.toNat, fd 8 8 (r.out.length + 32),
    fd 0x10 4 r.npoison, fd 0x14 8 tb1.toNat]
  overlay t 0x1C (leBytes 4 (crc32c (r.out ++ t.take 0x1C)).toNat)

/-! ### Dumps: start and end (R134 to R138) -/

def Leaf.setRun (l : Leaf) (r : Option DumpRun) : Leaf := { l with dmp := { l.dmp with run := r } }

/-- The descriptor words of a descriptor (R131). -/
def Leaf.descWord (l : Leaf) (n w : Nat) : W32 := smGet l.dmp.desc (n * 4 + w) 0

/-- Issue the next access of the walk, the first of a section at the section's TB1 (R139); on the fallback path it waits while a whole segment waits for room (R169). -/
def Leaf.walkIssue (l : Leaf) (r : DumpRun) (w : Walk) : Leaf :=
  if r.backlog then l.setRun (some { r with cur := some w, stalled := true }) else
  let a : W64 := match w.phase, w.op with
    | .word, _ => w.base + BitVec.ofNat 64 (4 * w.word)
    | .ptrLo, 1 => w.addr + BitVec.ofNat 64 (8 * w.item)
    | .ptrHi, 1 => w.addr + BitVec.ofNat 64 (8 * w.item + 4)
    | .ptrLo, _ => w.base + BitVec.ofNat 64 w.link
    | .ptrHi, _ => w.base + BitVec.ofNat 64 (w.link + 4)
  let w := if w.begun then w else { w with begun := true, tb1 := l.u.clk.tb1 }
  let l := l.setRun (some { r with cur := some w, accessAt := l.u.clk.ival })
  l.blk (fun u => u.emit (.debugRead a 4))

/-- The walk over `n` more descriptors: unused ones are passed over, bad ones skipped whole (R131), empty ones make an empty
section; the first with something to read starts its reads. Answers the run where no descriptor is left to read. -/
def Leaf.nextDesc (l : Leaf) (r : DumpRun) : Nat → Leaf × Option DumpRun
  | 0 => (l, some r)
  | n + 1 =>
    if l.u.rf R.DMP_NDESC 0 9 ≤ r.next then (l, some r)
    else
      let i := r.next
      let w0 := l.descWord i 0
      let w3 := l.descWord i 3
      let addr : W64 := l.descWord i 2 ++ l.descWord i 1
      let op := fld w0 28 3
      let count := fld w0 0 16
      let len := fld w3 0 16
      let link := fld w3 16 16
      let r := { r with next := i + 1 }
      if !bit w0 31 then l.nextDesc r n
      else if 2 < op || addr.toNat % 4 ≠ 0 || link % 4 ≠ 0 then (l.blk (fun u => u.cause 0x0C 0 1)).nextDesc r n
      else
        let w : Walk := { begun := false, desc := i, op := op, tag := fld w0 16 8, count := count, link := link, len := len, addr := addr, base := addr,
                          item := 0, word := 0, phase := if op = 1 || (op = 2 && len = 0) then .ptrLo else .word, ptrLo := 0,
                          words := [], poison := [], fails := 0, skip := false, ptrFail := false, tb1 := l.u.clk.tb1 }
        if !l.dumpFits r w then (l, some { r with trailer := some 2 })
        else if count = 0 then
          let c := l.closeSection { r with cur := some w } false
          c.1.nextDesc c.2 n
        else (l.walkIssue r w, none)

/-- The dump that `t` triggered ends (R124, R134, R136, R137): the request that its hang still owes goes out, and the pending trigger is handed on. -/
def Leaf.dumpOver (l : Leaf) (t : DumpTrigger) : Leaf × Option DumpTrigger :=
  let p := l.dmp.pend
  let l := { l with dmp := { l.dmp with run := none, pend := none } }
  (if t.owes then l.payOwed t.engine else l, p)

/-- The registers of the last dump, as `DUMPID` names it (R142): whether it is complete, its stored bytes and its placeholders. -/
def Leaf.dumpRegs (l : Leaf) (complete : Bool) (bytes poison : Nat) : Leaf :=
  ({ l with dmp := { l.dmp with complete := complete } }).blk (fun u => (u.setN R.DMP_LEN bytes).setN R.DMP_POISON poison)

/-- "dump lost" (R135, R137). -/
def Leaf.dumpLost (l : Leaf) (id : W32) (cause : Nat) : Leaf :=
  l.blk (fun u => (u.cause 0x0C 0 3).report rkDumpLost .dflt (pay [fd 0x24 4 id.toNat, fd 0x28 1 cause]))

/-- "dump done" and the registers of the last dump (R136). -/
def Leaf.dumpDone (l : Leaf) (r : DumpRun) (status : Nat) : Leaf :=
  let flags := r.restarted.toNat * 4 + r.fallback.toNat * 2 + r.zstd.toNat
  let l := { l with dmp := { l.dmp with lastPath := r.fallback, unread := l.dmp.unread || !r.fallback } }
  (l.dumpRegs (decide (status = 0)) r.out.length r.npoison).blk (fun u => (u.cause 0x0C 0 0).report rkDumpDone .dflt
    (pay [fd 0x24 4 r.id.toNat, fd 0x28 1 status, fd 0x29 1 flags, fd 0x2C 4 r.out.length, fd 0x30 4 r.npoison]))

/-- "compression verify failed" (R337): the engine goes out of service. -/
def rkVerifyFailed : RecKind := rk 0x0F 0x0001 3 .always

/-- The leaf engine's verification fails (R329). -/
def Leaf.verifyFailed (l : Leaf) (block set : Nat) : Leaf :=
  let l := { l with cmp := { l.cmp with oos := true } }
  l.blk (fun u => ((u.bump R.CMP_VFAIL).cause 0x0F 0 0).report rkVerifyFailed .dflt
    (pay [fd 0x24 1 0, fd 0x28 4 block, fd 0x2C 1 set]))

/-- An injected verify failure is taken by the next block of the leaf's engine (R388). -/
def Leaf.takeVerifyInj (l : Leaf) : Leaf × Option Nat :=
  if l.u.armed 0x0F 0 0 && l.u.injParam 0x0F 0 % 32 = 0 then (l.blk (fun u => u.fire 0x0F 0 0 false), some 0) else (l, none)

/-- The walk is over: the dump's middle is compressed where it is to be, and the trailer written (R136, R138). A failed
verification answers the run to start again uncompressed (R334). -/
def Leaf.finishWalk (l : Leaf) (r : DumpRun) (status : Nat) : Leaf × Option DumpRun :=
  let limit := l.zLimit r
  let inj := if r.zstd && !r.raw.isEmpty then l.takeVerifyInj else (l, none)
  let l := inj.1
  let z := zCompress 0 limit none inj.2 r.raw
  if r.zstd && !r.raw.isEmpty && z.vfail.isSome then (l.verifyFailed 0 0, some r)
  else
    let c := if r.zstd && !r.raw.isEmpty then l.dumpPut { r with raw := [] } z.out false else (l, r)
    let status := if r.zstd && z.stopped && !r.raw.isEmpty then 2 else status
    let t := c.1.dumpPut c.2 (dumpTrailer c.2 status c.1.u.clk.tb1) true
    (t.1.setRun (some { t.2 with trailer := some status, cur := none }), none)

/-- Begin the walk of a run: header, suspects, and the first descriptor (R139). -/
def Leaf.beginWalk (l : Leaf) (r : DumpRun) : Leaf × Option DumpRun :=
  let r := { r with raw := [], out := [], sent := 0, segno := 0, nsect := 0, npoison := 0, next := 0, cur := none, trailer := none,
                    waiting := false, stalled := false }
  let sus := dumpSuspects r
  let fits := match l.dumpLimit r with | some s => decide (64 + sus.length + 32 ≤ s) | none => true
  if !fits then l.finishWalk r 2
  else
    let h := l.dumpPut r (l.dumpHeader r) false
    let c := if r.zstd then (h.1, { h.2 with raw := sus }) else h.1.dumpPut h.2 sus false
    let n := c.1.nextDesc c.2 257
    match n.2 with
    | none => (n.1, none)
    | some r => n.1.finishWalk r (r.trailer.getD 0)

/-- Begin a walk, once more uncompressed where its verification fails (R334). -/
def Leaf.beginDump (l : Leaf) (r : DumpRun) : Leaf :=
  let b := l.beginWalk r
  match b.2 with
  | none => b.1
  | some r => (b.1.beginWalk { r with zstd := false, restarted := true }).1

/-- A dump all of which, trailer included, has been queued on the fallback path is over; on the DMA path it waits for the acknowledgement. -/
def Leaf.settleDump (l : Leaf) : Leaf × Option DumpTrigger :=
  match l.dmp.run with
  | some r =>
    match r.trailer with
    | some st => if r.fallback && decide (r.sent = r.out.length) then (l.dumpDone r st).dumpOver r.trig else (l, none)
    | none => (l, none)
  | none => (l, none)

/-- A dump needs the fallback path (R135). -/
def Leaf.needsFallback (l : Leaf) (t : DumpTrigger) : Bool :=
  l.dmp.unread || l.dmp.dmaErr ||
  (l.u.rb R.DMP_CTL 28 && decide (t.engine < 64) && decide (l.engDom t.engine = l.u.rf R.DMP_CTL 24 4))

/-- Start a dump (R134, R135, R138). Answers a trigger that was pending where the dump is over at once. -/
def Leaf.startDump (l : Leaf) (t : DumpTrigger) : Leaf × Option DumpTrigger :=
  let l := (l.blk (fun u => u.count R.DMP_DUMPID 1)).dumpRegs false 0 0
  let fb := l.needsFallback t
  let e := l.engine t.engine
  if fb && !l.u.rb R.DMP_CTL 29 then (l.dumpLost (l.u.reg R.DMP_DUMPID) 0).dumpOver t
  else
    let z := l.u.rb R.DMP_CTL 30 && !l.cmp.oos
    let r : DumpRun :=
      { trig := t, id := l.u.reg R.DMP_DUMPID, fallback := fb, restarted := false, zstd := z, startIval := l.u.clk.ival, tb0 := l.u.clk.ns,
        tb1 := l.u.clk.tb1, stamp := l.u.stampOf .dflt, suspects := if t.engine < 64 then e.suspects else [],
        suspInc := t.engine < 64 && e.suspInc, waiting := z && l.cmp.running, next := 0, cur := none, accessAt := 0, raw := [], out := [],
        sent := 0, stalled := false, segno := 0, nsect := 0, npoison := 0, trailer := none, writeAt := 0 }
    if r.waiting then (l.setRun (some r), none) else (l.beginDump r).settleDump

/-- Start a dump and, where it is over at once, the one that was pending; a walker holds at most one pending trigger. -/
def Leaf.runTriggers (l : Leaf) (t : Option DumpTrigger) : Leaf :=
  match t with
  | none => l
  | some t =>
    let r := l.startDump t
    match r.2 with
    | none => r.1
    | some t' => (r.1.startDump t').1

/-- A trigger (R134): it starts a dump, is held as the one pending, or is dropped. A walker that is off takes none. -/
def Leaf.dumpTrigger (l : Leaf) (t : DumpTrigger) : Leaf :=
  if !l.u.rb R.DMP_CTL 31 then l
  else if l.dmp.run.isNone then l.runTriggers (some t)
  else if l.dmp.pend.isNone then { l with dmp := { l.dmp with pend := some t } }
  else
    l.blk (fun u => ((u.bump R.DMP_DROPPED).cause 0x0C 0 3).report rkDumpDropped .dflt
      (pay [fd 0x24 1 t.reason, fd 0x25 1 t.engine]))

/-- After a step of the dump: one that is over hands on to the pending trigger. -/
def Leaf.settle (l : Leaf) : Leaf :=
  let s := l.settleDump
  s.1.runTriggers s.2

/-- End the walk where it stands with a trailer status (R133, R134, R136). A dump that still waits for the compression engine is stored uncompressed, with
flag [0] clear (DESIGN CHOICE, log entry 121). -/
def Leaf.endWalk (l : Leaf) (status : Nat) (timeout : Bool) : Leaf :=
  match l.dmp.run with
  | none => l
  | some r =>
    if r.trailer.isSome then l
    else
      let r := if r.waiting then { r with waiting := false, zstd := false } else r
      let c := if r.out.isEmpty then (l.dumpPut r (l.dumpHeader r ++ dumpSuspects r) false) else (l, r)
      let c := c.1.closeSection c.2 timeout
      let f := c.1.finishWalk c.2 status
      match f.2 with
      | none => f.1.settle
      | some r => (f.1.beginDump { r with zstd := false, restarted := true }).settle

/-! ### Dumps: accesses (R131, R132, R416) -/

/-- How many words the descriptor still has after the present access fails for the fourth time (R132). -/
def Walk.remaining (w : Walk) : Nat :=
  match w.op, w.phase with
  | 0, _ => w.count - w.words.length
  | 1, .word => (w.count - w.item - 1) * w.len + (w.len - w.word)
  | 1, _ => (w.count - w.item - 1) * w.len
  | _, .word => w.len - w.word
  | _, _ => 0

/-- The walk of a descriptor after an access: the descriptor that goes on, or the finished one. -/
def Walk.advance (w : Walk) (v : W32) (failed : Bool) : Walk × Bool :=
  let w := { w with fails := if failed then w.fails + 1 else 0 }
  let isWord := w.phase == .word
  let w := if isWord then { w with words := (if failed then 0xFFFFFFFF#32 else v) :: w.words, poison := failed :: w.poison,
                                   word := w.word + 1 }
    else { w with ptrFail := w.ptrFail || failed }
  if 4 ≤ w.fails then
    let n := (if isWord then { w with word := w.word } else w).remaining
    ({ w with words := List.replicate n 0xFFFFFFFF#32 ++ w.words, poison := List.replicate n true ++ w.poison, skip := true }, true)
  else
    match w.op, w.phase with
    | 0, _ => ({ w with base := w.addr }, decide (w.count ≤ w.words.length))
    | 1, .word => if w.word < w.len then (w, false) else
        ({ w with item := w.item + 1, word := 0, phase := .ptrLo }, decide (w.count ≤ w.item + 1))
    | 1, .ptrLo => if failed then ({ w with item := w.item + 1, word := 0 }, decide (w.count ≤ w.item + 1)) else
        ({ w with ptrLo := v, phase := .ptrHi }, false)
    | 1, .ptrHi =>
      if failed || w.len = 0 then ({ w with item := w.item + 1, word := 0, phase := .ptrLo }, decide (w.count ≤ w.item + 1))
      else ({ w with base := (v ++ w.ptrLo : BitVec 64) + BitVec.ofNat 64 w.link, word := 0, phase := .word }, false)
    | _, .word => if w.word < w.len then (w, false) else ({ w with phase := .ptrLo }, false)
    | _, .ptrLo => if failed then (w, true) else ({ w with ptrLo := v, phase := .ptrHi }, false)
    | _, .ptrHi =>
      let p : W64 := v ++ w.ptrLo
      if failed || p = 0 || w.count ≤ w.item + 1 then (w, true)
      else ({ w with base := p, item := w.item + 1, word := 0, phase := if w.len = 0 then .ptrLo else .word }, false)

/-- An access of the walk ends with a word or a failure (R131, R132, R136). -/
def Leaf.walkResult (l : Leaf) (v : W32) (failed : Bool) : Leaf :=
  match l.dmp.run with
  | none => l
  | some r =>
    match r.cur with
    | none => l
    | some w =>
      if r.stalled then l
      else if w.phase == .word && !l.dumpFits r { w with words := (if failed then 0xFFFFFFFF#32 else v) :: w.words, poison := failed :: w.poison } then
        l.endWalk 2 false
      else
        let a := w.advance v failed
        if !l.dumpFits r a.1 then (l.setRun (some { r with cur := some (l.cutToFit r a.1) })).endWalk 2 false
        else if a.2 then
          let c := l.closeSection { r with cur := some a.1 } false
          let n := c.1.nextDesc c.2 257
          match n.2 with
          | none => n.1
          | some r =>
            let f := n.1.finishWalk r (r.trailer.getD 0)
            match f.2 with
            | none => f.1.settle
            | some r => (f.1.beginDump { r with zstd := false, restarted := true }).settle
        else l.walkIssue r a.1

/-- DUMP_ACCESS_DONE: the debug master's read returns, with a bus error where `err`. -/
def Leaf.dumpAccess (l : Leaf) (v : W32) (err : Bool) : Leaf := l.walkResult v err

/-- DUMP_ACCESS_TIMEOUT: time moves to `ATO` microseconds after the access was issued; 0 acts as 1. -/
def Leaf.dumpAccessTimeout (l : Leaf) : Leaf :=
  match l.dmp.run with
  | some r =>
    if r.cur.isNone || r.stalled then l
    else (l.blk (fun u => u.toIv (r.accessAt + usIv (max 1 (u.rf R.DMP_ATO 0 16))))).walkResult 0 true
  | none => l

/-- WALK_TIMEOUT: time moves to `WTO` milliseconds after the walk began; 0 acts as 1 (R133). -/
def Leaf.walkTimeout (l : Leaf) : Leaf :=
  match l.dmp.run with
  | some r => if r.trailer.isSome then l else (l.blk (fun u => u.toIv (r.startIval + msIv (max 1 (u.rf R.DMP_WTO 0 16))))).endWalk 1 true
  | none => l

/-- A dump on the DMA path changes to the fallback path, and starts over there where it has begun (R135); it is lost where that path is off. -/
def Leaf.toFallback (l : Leaf) (r : DumpRun) : Leaf :=
  if !l.u.rb R.DMP_CTL 29 then
    let o := ((l.dumpLost r.id 0).dumpRegs false r.storedBytes r.npoison).dumpOver r.trig
    o.1.runTriggers o.2
  else
    let l := l.blk (fun u => u.cause 0x0C 0 2)
    if r.waiting then l.setRun (some { r with fallback := true })
    else (l.beginDump { r with fallback := true, restarted := true }).settle

/-- After the DMA port has reported an error, a dump on the DMA path changes to the fallback path (R135). -/
def Leaf.dumpDmaCheck (l : Leaf) : Leaf :=
  match l.dmp.run with
  | some r => if l.dmp.dmaErr && !r.fallback then l.toFallback r else l
  | none => l

/-- The leaf's one DMA port reports an error, whoever uses it (R135, R415). -/
def Leaf.dmaPortError (l : Leaf) : Leaf := ({ l with dmp := { l.dmp with dmaErr := true } }).dumpDmaCheck

/-- DUMP_WRITE_STALL: a dump write is not acknowledged within `DTO`, or the port reports an error (R135). A `DTO` of 0 acts as 1 µs (DESIGN CHOICE, log
entry 121). -/
def Leaf.dumpStall (l : Leaf) (err : Bool) : Leaf :=
  if err then l.dmaPortError
  else
    match l.dmp.run with
    | none => l
    | some r =>
      if r.fallback || r.waiting || r.out.isEmpty then l
      else (l.blk (fun u => u.toIv (r.writeAt + usIv (max 1 (u.rf R.DMP_DTO 0 16))))).toFallback r

/-- Cells of the dumps egress queue are free (R169): waiting segments are queued, and a walk that waited goes on. -/
def Leaf.dumpRoom (l : Leaf) : Leaf :=
  match l.dmp.run with
  | none => l
  | some r =>
    if !r.fallback || r.waiting then l
    else
      let c := l.dumpSegs r r.trailer.isSome (r.out.length / 8176 + 2)
      let l := c.1.setRun (some c.2)
      match c.2.trailer, c.2.cur with
      | some _, _ => l.settle
      | none, some w => if c.2.stalled && !c.2.backlog then l.walkIssue { c.2 with stalled := false } w else l
      | none, none => l

/-- DUMP_TRAILER_ACK: the trailer's write is acknowledged (R136). An injected stall takes the acknowledgement away (R388). -/
def Leaf.dumpTrailerAck (l : Leaf) : Leaf :=
  match l.dmp.run with
  | none => l
  | some r =>
    match r.trailer with
    | none => l
    | some st =>
      if r.fallback then l
      else if l.u.armed 0x0C 0 2 then l.blk (fun u => u.fire 0x0C 0 2 false)
      else
        let o := (l.dumpDone r st).dumpOver r.trig
        o.1.runTriggers o.2

/-- DUMP_GO and DUMP_ABORT (R134), DUMP_RELEASE (R135). -/
def Leaf.dumpGo (l : Leaf) : Leaf := l.dumpTrigger ⟨0, 0xFF, 0, false⟩
def Leaf.dumpAbort (l : Leaf) : Leaf := l.endWalk 3 false
def Leaf.dumpRelease (l : Leaf) : Leaf := { l with dmp := { l.dmp with unread := false, dmaErr := false } }

/-- DUMP_REFUSAL: the parent refuses the dump; the walk ends (R137). -/
def Leaf.dumpRefused (l : Leaf) (id : W32) : Leaf :=
  match l.dmp.run with
  | none => l
  | some r =>
    if r.fallback && decide (r.id = id) then
      let o := ((l.dumpLost r.id 1).dumpRegs false r.storedBytes r.npoison).dumpOver r.trig
      o.1.runTriggers o.2
    else l

/-- A register job has ended: a dump that waited for the engine goes on (R334). -/
def Leaf.dumpAfterJob (l : Leaf) : Leaf :=
  match l.dmp.run with
  | some r => if r.waiting then (l.beginDump { r with zstd := r.zstd && !l.cmp.oos }).settle else l
  | none => l

/-- The walker through a warm or unit reset (R140): a dump ends with no trailer, a pending trigger is dropped, and the request owed at the
dump's end goes out (R124). -/
def Leaf.dumpReset (l : Leaf) : Leaf :=
  match l.dmp.run with
  | none => { l with dmp := { l.dmp with pend := none } }
  | some r =>
    let l := (l.dumpRegs false r.storedBytes r.npoison).blk (fun u => u.report rkDumpAborted .dflt (pay [fd 0x24 4 r.id.toNat]))
    (l.dumpOver r.trig).1

/-! ### Beats and expiry (R122 to R124, R130) -/

/-- An engine's timer stands: idle and honouring it (R122). -/
def Leaf.idles (l : Leaf) (e : Nat) : Bool := (l.engine e).idle && bit (l.engCfg e) 28

/-- The level of `ks_idle[e]` while a reset is held; beats are ignored then (R374, R412). -/
def Leaf.idleLevel (l : Leaf) (e : Nat) (idle : Bool) : Leaf := l.setEngine e { l.engine e with idle := idle }

/-- HEARTBEAT: a transition of `ks_hb[e]` where `beat`, with the level of `ks_idle[e]` (R122, R124). -/
def Leaf.heartbeat (l : Leaf) (e : Nat) (beat idle : Bool) : Leaf :=
  let x := l.engine e
  let now := l.u.clk.tb1
  if x.hung then
    let l := l.setEngine e { x with idle := idle }
    if beat then l.blk (fun u => u.report rkLateBeat .dflt (pay [fd 0x24 1 e])) else l
  else
    let restart := beat || l.idles e
    l.setEngine e { x with idle := idle, timerAt := if restart then now else x.timerAt, lastBeat := if beat then now else x.lastBeat }

/-- An engine expires (R124): it is hung, its suspects freeze, a dump may start, the record is written, a request may go out. -/
def Leaf.expire (l : Leaf) (e : Nat) : Leaf :=
  let x := l.engine e
  let cfg := l.engCfg e
  let rpl := l.replaying e
  let tag := if rpl then l.u.rf R.KST_RPL 0 16 else 0
  let l := l.setEngine e { x with hung := true, suspects := x.live, suspInc := x.liveInc, owed := none }
  let l := l.blk (fun u => u.cause 0x0B 0 0)
  let dump := if rpl then l.u.rb R.KST_RPL 30 else bit cfg 30
  let before := l.u.rn R.DMP_DUMPID
  let l := if dump then l.dumpTrigger ⟨if rpl then 2 else 1, e, tag, bit cfg 29⟩ else l
  let owing := fun (t : DumpTrigger) => t.owes && decide (t.engine = e)
  let mine := (l.dmp.run.map DumpRun.trig).any owing || l.dmp.pend.any owing
  let started := decide (l.u.rn R.DMP_DUMPID ≠ before)
  let flags := if rpl then 2 else x.liveInc.toNat
  let l := l.blk (fun u => u.report rkHung .dflt (pay [fd 0x24 1 e, fd 0x25 1 (fld cfg 16 4), fd 0x26 1 x.live.length, fd 0x27 1 flags,
    fd 0x28 8 x.lastBeat.toNat, fd 0x30 4 (if started then u.rn R.DMP_DUMPID else 0xFFFFFFFF), fd 0x34 2 tag]))
  if !bit cfg 29 then l
  else if dump && (mine || !started) then
    l.setEngine e { l.engine e with owed := some ⟨l.u.clk.ival + msIv (l.u.rf R.KST_RSTDLY 0 16)⟩ }
  else l.requestReset (l.engDom e) e

/-- ENGINE_EXPIRY: time moves to the cycle in which the watch timer reaches `TO`; an injection makes it the next cycle (R388). -/
def Leaf.engineExpiry (l : Leaf) (e : Nat) : Leaf :=
  if !l.watched e || (l.engine e).hung || l.idles e then l
  else if l.u.armed 0x0B 0 0 && l.u.injParam 0x0B 0 % 64 = e then
    (l.blk (fun u => (u.fire 0x0B 0 0 false).adv 1)).expire e
  else
    (l.blk (fun u => u.toTb1 ((l.engine e).timerAt + BitVec.ofNat 64 (1024 * l.engTo e)))).expire e

/-- RESET_DELAY_EXPIRY: time moves to `RSTDLY` after the expiry, and the owed request goes out (R124). -/
def Leaf.resetDelay (l : Leaf) (e : Nat) : Leaf :=
  match (l.engine e).owed with
  | none => l
  | some o => (l.blk (fun u => u.toIv o.due)).payOwed e

/-! ### Contexts (R125) -/

/-- An ignored context event is counted (R125). -/
def Leaf.ctxErr (l : Leaf) : Leaf :=
  l.blk (fun u => u.modReg R.KST_CTXERR (fun v => setFld v 0 16 (satAdd (fld v 0 16) 1 0xFFFF)))

/-- CONTEXT_EVENT: a context starts or ends on an engine. -/
def Leaf.context (l : Leaf) (e : Nat) (start : Bool) (id : W32) (q : W16) : Leaf :=
  let x := l.engine e
  let has := x.live.any (fun c => c.id = id)
  if start then
    if has then l.ctxErr
    else if 8 ≤ x.live.length then l.setEngine e { x with liveInc := true }
    else l.setEngine e { x with live := x.live ++ [⟨id, q, l.u.clk.tb1⟩] }
  else if has then
    let live := x.live.filter (fun c => c.id ≠ id)
    l.setEngine e { x with live := live, liveInc := x.liveInc && !live.isEmpty }
  else l.ctxErr

/-- SUSPECT_CLEAR. -/
def Leaf.suspectClear (l : Leaf) (e : Nat) : Leaf := l.setEngine e { l.engine e with suspects := [], suspInc := false }

/-- An engine's hung state clears and its timer restarts; a dump of that hang owes no request any more. -/
def Leaf.unhang (l : Leaf) (e : Nat) : Leaf :=
  let x := l.engine e
  let clear := fun (t : DumpTrigger) => if t.engine = e then { t with owes := false } else t
  let l := { l with dmp := { l.dmp with run := l.dmp.run.map (fun (r : DumpRun) => { r with trig := clear r.trig }),
                                        pend := l.dmp.pend.map clear } }
  l.setEngine e { x with hung := false, timerAt := l.u.clk.tb1, owed := none }

/-- HUNG_CLEAR (R129). -/
def Leaf.hungClear (l : Leaf) (e : Nat) : Leaf := if (l.engine e).hung then l.unhang e else l

/-! ### Resets completing and escalating (R127, R129) -/

/-- RESET_ESCALATED: time moves to the escalation time of domain `d` (R127); 0 acts as 1. -/
def Leaf.escalate (l : Leaf) (d : Nat) : Leaf :=
  let x := l.dom d
  if !x.req || x.into.isSome || x.topped then l
  else
    let cfg := l.domCfg d
    let l := l.blk (fun u => u.toTb1 (x.raisedAt + BitVec.ofNat 64 (1024 * max 1 (fld cfg 0 24))))
    let next := fld cfg 24 4
    let good := bit cfg 28 && decide (d < next)
    let l := if bit cfg 28 && !good then l.blk (fun u => u.cause 0x0B 0 2) else l
    if good && bit (l.domCfg next) 31 then
      let l := l.setDom d { x with into := some next, esc := x.esc + 1 }
      let r := if (l.dom next).req then (l, l.sampleEdges next)
        else l.raise next { Dom.reset with firstAt := x.firstAt, first := x.first, esc := x.esc + 1, ack := (l.dom next).ack,
                                           done := (l.dom next).done }
      let l := if (l.dom next).req then r.1.blk (fun u => u.modReg (R.KST_HAZ + 16 * next) (fun v => v ||| BitVec.ofNat 32 r.2)) else r.1
      l.blk (fun u => (u.cause 0x0B 0 1).report rkResetEscalated .dflt
        (pay [fd 0x24 1 next, fd 0x25 1 d, fd 0x28 2 r.2, fd 0x2C 8 u.clk.tb1.toNat]))
    else
      let l := if good then l.blk (fun u => u.cause 0x0B 0 2) else l
      let l := l.setDom d { x with topped := true }
      l.blk (fun u => u.report rkResetTop .dflt (pay [fd 0x24 1 d, fd 0x28 2 (u.rf (R.KST_HAZ + 16 * d) 0 16)]))

/-- The domains below `n` that escalated, in one step or several, into a set. -/
def Leaf.escalatedInto (l : Leaf) : Nat → List Nat → List Nat
  | 0, ds => ds
  | n + 1, ds =>
    let more := (List.range 16).filter (fun d => (l.dom d).req && !ds.contains d &&
      (match (l.dom d).into with | some e => ds.contains e | none => false))
    l.escalatedInto n (ds ++ more)

/-- A domain's request is lowered: its hazards clear. -/
def Leaf.lowerReq (l : Leaf) (d : Nat) : Leaf :=
  let l := l.setDom d { Dom.reset with ack := (l.dom d).ack, done := (l.dom d).done }
  l.blk (fun u => (u.setN (R.KST_HAZ + 16 * d) 0).emit (.pin .rstReq d 0))

/-- The levels of `rst_ack[d]`, `rst_done[d]` and the `rst_edge` vectors. -/
def Leaf.domLevels (l : Leaf) (d : Nat) (ack done : Bool) (edges : BitVec 256) : Leaf :=
  let l := l.seeEdges edges
  l.setDom d { l.dom d with ack := ack, done := done }

/-- RESET_DONE: `rst_ack[d]` and `rst_done[d]` and the sixteen `rst_edge` vectors take levels; a rise of done completes the domain and those
escalated into it (R126, R128, R129). -/
def Leaf.resetDone (l : Leaf) (d : Nat) (ack done : Bool) (edges : BitVec 256) : Leaf :=
  let x := l.dom d
  let rise := done && !x.done
  let l := l.domLevels d ack done edges
  if !rise then l
  else if !x.req then
    l.blk (fun u => u.modReg R.KST_CTXERR (fun v => setFld v 16 16 (satAdd (fld v 16 16) 1 0xFFFF)))
  else
    let ds := l.escalatedInto 16 [d]
    let l := ds.foldl (fun (a : Leaf) k => a.lowerReq k) l
    let l := (List.range 64).foldl (fun (a : Leaf) e => if ds.contains (a.engDom e) && (a.engine e).hung then a.unhang e else a) l
    l.blk (fun u => (u.count (R.KST_RSTCNT + 16 * d) 1).report rkResetDone .dflt
      (pay [fd 0x24 1 d, fd 0x25 1 x.first, fd 0x28 4 (ivUs (u.clk.ival - x.firstAt))]))

/-- SOFTWARE_RESET_REQUEST (R129). -/
def Leaf.softReset (l : Leaf) (d : Nat) : Leaf := l.requestReset d 0xFF

/-! ### Registers with behaviour -/

/-- After a change of configuration, the timers of the engines that have just become watched, or that were idle with `idle_en` until now, restart
(R122). -/
def Leaf.restartTimers (l old : Leaf) : Leaf :=
  (List.range 64).foldl (fun (a : Leaf) e =>
    if a.watched e && (!old.watched e || old.idles e) then a.setEngine e { a.engine e with timerAt := a.u.clk.tb1 } else a) l

/-- A write of `KST.CTL`. -/
def Leaf.kstCtl (l : Leaf) (w : W32) : Leaf := (l.blk (fun u => u.setReg R.KST_CTL (w &&& 0x80000000#32))).restartTimers l

/-- A write of `KST.ENG_CFG[e]`. -/
def Leaf.engCfgWrite (l : Leaf) (e : Nat) (w : W32) : Leaf :=
  (l.blk (fun u => u.setReg (R.KST_ENG_CFG + 8 * e) (w &&& 0xF00F0000#32))).restartTimers l

/-- REPLAY_BEGIN, REPLAY_END and every write of `KST.RPL` (R130). -/
def Leaf.replayWrite (l : Leaf) (w : W32) : Leaf :=
  let old := l.u.reg R.KST_RPL
  let w := w &&& 0xFC3FFFFF#32
  if bit old 31 && decide (fld old 0 22 ≠ fld w 0 22) then l.blk (fun u => u.cause 0x0B 0 3)
  else
    let l := l.blk (fun u => u.setReg R.KST_RPL w)
    if bit w 31 && !bit old 31 then
      l.blk (fun u => u.report rkReplayBegin .dflt (pay [fd 0x24 1 (fld w 16 6), fd 0x25 1 (fld w 26 4), fd 0x28 2 (fld w 0 16)]))
    else if bit old 31 && !bit w 31 then
      l.blk (fun u => u.report rkReplayEnd .dflt (pay [fd 0x24 1 (fld old 16 6), fd 0x28 2 (fld old 0 16)]))
    else l

/-- A write of `KST.CMD`. -/
def Leaf.kstCmd (l : Leaf) (w : W32) : Leaf :=
  let l := if bit w 31 then l.hungClear (fld w 0 6) else l
  let l := if bit w 29 then l.suspectClear (fld w 0 6) else l
  if bit w 30 then l.softReset (fld w 0 4) else l

/-- A write of `DMP.CMD`. -/
def Leaf.dmpCmd (l : Leaf) (w : W32) : Leaf :=
  let l := if bit w 2 then l.dumpRelease else l
  let l := if bit w 1 then l.dumpAbort else l
  if bit w 0 then l.dumpGo else l

/-- A write of `DMP.DVAL`: the addressed descriptor word; bits [27:24] of word 0 are reserved (R131). -/
def Leaf.dvalWrite (l : Leaf) (w : W32) : Leaf :=
  let w := if l.u.rf R.DMP_DIDX 8 2 = 0 then w &&& 0xF0FFFFFF#32 else w
  let k := l.u.rf R.DMP_DIDX 0 8 * 4 + l.u.rf R.DMP_DIDX 8 2
  { l with dmp := { l.dmp with desc := smSet l.dmp.desc k w 0 } }

/-- The kiln sitter through a warm or unit reset (R140): watch timers restart. -/
def Leaf.kilnReset (l : Leaf) : Leaf :=
  (List.range 64).foldl (fun (a : Leaf) e => if a.watched e then a.setEngine e { a.engine e with timerAt := a.u.clk.tb1 } else a) l

end Sys2Proof.Machine
end

