-- ==== Sys2Proof/Machine/LeafCmp.lean ====
section
/-!
DEFINITION. Register jobs of the leaf's compression engine (spec/15_compression.md, R334 and R335).
-/

namespace Sys2Proof.Machine

/-- "compression job done" (R337). -/
def rkJobDone : RecKind := rk 0x0F 0x0002 0 .bySeverity

/-- A dump holds the engine: it compresses, it has started and its trailer is not written (R334). -/
def Leaf.dumpHoldsEngine (l : Leaf) : Bool :=
  match l.dmp.run with
  | some r => r.zstd && !r.waiting && r.trailer.isNone
  | none => false

/-- A register job ends (R334): its result, `CMP.STS.done` and the record; a dump that waited for the engine goes on. -/
def Leaf.jobEnd (l : Leaf) (status reason out consumed : Nat) : Leaf :=
  let l := { l with cmp := { l.cmp with running := false, aborted := none, doneBit := true, status := status, reason := reason } }
  let l := l.blk (fun u => ((u.setN R.CMP_RES_OUT out).setN R.CMP_RES_IN consumed).report rkJobDone .dflt
    (pay [fd 0x24 1 status, fd 0x26 2 reason, fd 0x28 4 out, fd 0x2C 4 consumed]))
  l.dumpAfterJob

/-- The fields of `CMP.JOB` and the operands. -/
def Leaf.jobDec (l : Leaf) : Bool := l.u.rb R.CMP_JOB 31
def Leaf.jobHist (l : Leaf) : Bool := l.u.rb R.CMP_JOB 30
def Leaf.jobSet (l : Leaf) : Nat := l.u.rf R.CMP_JOB 0 2
def Leaf.jobSrc (l : Leaf) : Nat := l.u.rn64 R.CMP_SRC_L R.CMP_SRC_H
def Leaf.jobDst (l : Leaf) : Nat := l.u.rn64 R.CMP_DST_L R.CMP_DST_H
def Leaf.jobLen (l : Leaf) : Nat := l.u.rf R.CMP_LEN 0 25

/-- Why a job ends before it touches a byte (R328, R329, R335): status and reason. -/
def Leaf.jobBad (l : Leaf) : Option (Nat × Nat) :=
  let len := l.jobLen
  let lim := l.u.rn R.CMP_LIMIT
  if len = 0 || len % 4 ≠ 0 || 16777216 < len || lim = 0 || lim % 4 ≠ 0 || (l.jobDec && l.jobSet ≠ 0) || (!l.jobDec && l.jobSet = 3) then
    some (2, 0)
  else if !l.jobDec && l.jobSet = 2 then some (7, 0x0508)
  else if l.jobHist && decide (l.u.hisNblk * 65536 < l.jobSrc + len) then some (3, 0)
  else if l.cmp.oos then some (7, 0x0509)
  else none

/-- COMPRESSION_GO: a go is refused while a job or a dump holds the engine, else checked and started (R334, R335). -/
def Leaf.cmpGo (l : Leaf) : Leaf :=
  if l.cmp.running || l.dumpHoldsEngine then
    ({ l with cmp := { l.cmp with refused := true } }).blk (fun u => u.cause 0x0F 0 2)
  else
    match l.jobBad with
    | some b => l.jobEnd b.1 b.2 0 0
    | none => { l with cmp := { l.cmp with running := true, aborted := none } }

/-- COMPRESSION_ABORT: the running job stops as its output limit would stop it once `produced` output bytes are reached (R334). -/
def Leaf.cmpAbort (l : Leaf) (produced : Nat) : Leaf :=
  if l.cmp.running && l.cmp.aborted.isNone then { l with cmp := { l.cmp with aborted := some produced } } else l

/-- Bytes of the history region from an offset. -/
def Blk.historyBytes (u : Blk) (off n : Nat) : List Byte :=
  let first := off / 64
  let places := (List.range (n / 64 + 2)).flatMap (fun i => leBytes 64 (u.flashAt (u.hisKey 0 (first + i))).toNat)
  (places.drop (off % 64)).take n

/-- The input of the job. -/
def Leaf.jobInput (l : Leaf) : List Byte :=
  if l.jobHist then l.u.historyBytes l.jobSrc l.jobLen else l.u.hostRead l.jobSrc l.jobLen

/-- The output limit in force: an abort lowers it. -/
def Leaf.jobLimit (l : Leaf) : Nat :=
  match l.cmp.aborted with
  | some n => min (l.u.rn R.CMP_LIMIT) n
  | none => l.u.rn R.CMP_LIMIT

/-- The job's input is in the flash history, and the flash cannot be read now (R117, R334). -/
def Leaf.jobWaits (l : Leaf) : Bool := l.jobHist && l.u.flashReadWaits

/-- COMPRESSION_JOB_DONE: the running job ends, once its input can be read. `dmaErr` tells that a DMA error ended it (reason 0x050B), which a dump heeds too (R135). -/
def Leaf.cmpDone (l : Leaf) (dmaErr : Bool) : Leaf :=
  if !l.cmp.running then l
  else if dmaErr then l.dmaPortError.jobEnd 7 0x050B 0 0
  else if l.jobWaits then l
  else if l.jobDec then
    let z := zDecompress l.jobLimit 1048576 l.jobInput
    let fmt := decide (z.status = 7) && decide (0x0501 ≤ z.reason) && decide (z.reason ≤ 0x0506)
    let l := l.blk (fun u => ((if fmt then u.cause 0x0F 0 1 else u).hostWrite l.jobDst (z.bytes u.fresh)).freshen)
    l.jobEnd z.status z.reason z.out.length z.consumed
  else
    let inj := l.takeVerifyInj
    let l := inj.1
    let z := zCompress l.jobSet l.jobLimit none inj.2 l.jobInput
    let l := l.blk (fun u => (u.hostWrite l.jobDst (z.bytes u.fresh)).freshen)
    let l := match z.vfail with | some b => l.verifyFailed b l.jobSet | none => l
    l.jobEnd z.status z.reason (if z.vfail.isSome then 0 else z.out.length) (if z.vfail.isSome then 0 else z.consumed)

/-- A write of `CMP.CMD`: abort and go. An abort written with go acts first. `produced` is how far the engine has come. -/
def Leaf.cmpCmd (l : Leaf) (w : W32) (produced : Nat) : Leaf :=
  let l := if bit w 1 then l.cmpAbort produced else l
  if bit w 0 then l.cmpGo else l

/-- The value of `CMP.STS`. -/
def Leaf.cmpStsVal (l : Leaf) : W32 :=
  let c := l.cmp
  BitVec.ofNat 32 (c.doneBit.toNat * 2 ^ 31 + c.refused.toNat * 2 ^ 30 + c.running.toNat * 2 ^ 29 + c.oos.toNat * 2 ^ 28 +
    c.status % 256 * 2 ^ 16 + c.reason % 65536)

/-- A write of `CMP.STS`: done and refused clear by writing 1. -/
def Leaf.cmpSts (l : Leaf) (w : W32) : Leaf :=
  { l with cmp := { l.cmp with doneBit := l.cmp.doneBit && !bit w 31, refused := l.cmp.refused && !bit w 30 } }

/-- The engine through a warm or unit reset: the job is gone and the engine is in service again (R329). -/
def Leaf.cmpReset (l : Leaf) : Leaf := { l with cmp := { l.cmp with running := false, aborted := none, oos := false } }

end Sys2Proof.Machine
end

