-- ==== Sys2Proof/Machine/LeafHev.lean ====
section
/-!
DEFINITION. The leaf's host event queue: writing records, signalling, DMA errors, the consumer index and the recovery marker
(spec/14_host_events_ordering.md, R303 to R308 and R315).
-/

namespace Sys2Proof.Machine

/-- Places of the leaf's host ring: 2^(n − 6), none while n lies outside 12 to 24 (R303). -/
def Leaf.hevCap (l : Leaf) : Nat :=
  let n := l.u.rf R.HEV_CTL 16 5
  if 12 ≤ n && n ≤ 24 then 2 ^ (n - 6) else 0

/-- Records written and not consumed, PI − CI modulo 2^32. -/
def Leaf.hevHeld (l : Leaf) : Nat := (l.u.reg R.HEV_PI - l.u.reg R.HEV_CI).toNat

def Leaf.hevFull (l : Leaf) : Bool := decide (l.hevCap ≤ l.hevHeld)

/-- The leaf writes records: the queue is on and no DMA error stands (R307). -/
def Leaf.hevOn (l : Leaf) : Bool := l.u.rb R.HEV_CTL 31 && !l.hev.dmaErr

/-- The host address of the place of the record with index `i` (R303). -/
def Leaf.hevAddr (l : Leaf) (i : W32) : Nat := l.u.rn64 R.HEV_BASE_L R.HEV_BASE_H + 64 * (i.toNat % l.hevCap)

/-- The level of `hev_irq` (R307). -/
def Leaf.hevLevel (l : Leaf) : Bool := l.hev.pend && l.u.rb R.HEV_CTL 29

/-- `hev_irq` follows a change of `pend` or `ie`. -/
def Leaf.hevPin (l old : Leaf) : Leaf :=
  if l.hevLevel = old.hevLevel then l else l.blk (fun u => u.emit (.pin .hevIrq 0 l.hevLevel.toNat))

/-- An interrupt is sent: it signals every record written before it (R306, R307). -/
def Leaf.hevSignal (l : Leaf) : Leaf := ({ l with hev := { l.hev with pend := true, unsig := 0 } }).hevPin l

/-- The unsignalled records reach `ccnt` (R306). -/
def Leaf.hevCountDue (l : Leaf) : Bool :=
  l.u.rb R.HEV_CTL 29 && decide (l.hev.unsig ≠ 0) && decide (max 1 (l.u.rf R.HEV_CTL 8 8) ≤ l.hev.unsig)

/-! ### From the RAM ring through egress queue 3 to host memory (R170, R304, R307) -/

/-- The closed records of the ring, oldest first (R107): only closed records are handed on. -/
def Blk.ringClosed (u : Blk) : List Rec := if u.rcd.isOpen then u.rcd.ring.dropLast else u.rcd.ring

/-- The record that holds the read port. -/
def Blk.recordOnPort (u : Blk) : Option Msg := ((u.port 0).onPort.map OnPort.msg).filter (fun m => m.kind = kindRecord)

/-- Records of the ring that are handed to queue 3 or issued to the DMA port: the ring's oldest ones. -/
def Leaf.hevHanded (l : Leaf) : Nat := ((l.u.port 0).queue 3).length + l.u.recordOnPort.toList.length + l.hev.flight.length

/-- The next closed record is handed to queue 3 (R307), where the host ring has a place for it (R303) and the queue has room (R169). -/
def Leaf.hevHandOne (l : Leaf) : Leaf :=
  match l.u.ringClosed.drop l.hevHanded with
  | [] => l
  | r :: _ =>
    if l.hevOn && decide (l.hevHeld + l.hevHanded < l.hevCap) && l.u.room 0 3 1 then
      l.blk (fun u => u.commit 0 3 (mkMsg kindRecord 0 (leBytes 64 r.ramBits.toNat)))
    else l
def Leaf.hevHandN (l : Leaf) : Nat → Leaf
  | 0 => l
  | n + 1 => l.hevHandOne.hevHandN n

/-- Closed records are handed to queue 3 while they can be. -/
def Leaf.hevHand (l : Leaf) : Leaf := l.hevHandN 64

/-- What queue 3 holds goes back: the records stay in the RAM ring. -/
def Leaf.hevTakeBack (l : Leaf) : Leaf :=
  l.blk (fun u => u.modPort 0 (fun x => { x.setQueue 3 [] with
    deficit := smDel x.deficit 3,
    onPort := x.onPort.filter (fun o => o.msg.kind ≠ kindRecord) }))

/-- A DMA error on an event write (R307): the leaf stops writing the ring. The record whose write failed, at index `i`, and those
behind it stay in the RAM ring; those before it go on. A dump leaves the failing port (R135). -/
def Leaf.hevDmaError (l : Leaf) (i : W32) : Leaf :=
  let pi := l.u.reg R.HEV_PI
  let l := { l with hev := { l.hev with dmaErr := true, flight := l.hev.flight.filter (fun w => (w.idx - pi).toNat < (i - pi).toNat) } }
  (l.hevTakeBack.blk (fun u => (u.bump R.HEV_DMAERR).cause 0x16 0 1)).dmaPortError

/-- A record leaves queue 3: its body write is issued (R304). An armed injection reports it as an error, and it is not written (R388). -/
def Leaf.hevIssue (l : Leaf) (m : Msg) : Leaf :=
  let i := l.u.reg R.HEV_PI + BitVec.ofNat 32 l.hev.flight.length
  if l.u.armed 0x16 0 1 then (l.blk (fun u => u.fire 0x16 0 1 false)).hevDmaError i
  else
    { l with u := l.u.hostWrite (l.hevAddr i + 4) (m.body.drop 4), hev := { l.hev with flight := l.hev.flight ++ [⟨false, i, m.body⟩] } }

/-- A write is acknowledged or fails although none is outstanding: the record that holds the read port, or the first of queue 3, has
had its turn. -/
def Leaf.hevForce (l : Leaf) : Leaf :=
  if !l.hev.flight.isEmpty then l
  else
    let l := l.hevHand
    match l.u.recordOnPort, (l.u.port 0).queue 3 with
    | some m, _ => (l.blk (fun u => u.finishMsg 0)).hevIssue m
    | none, m :: _ =>
      (l.blk (fun u => ((u.takeHead 0 3).count (R.SCH_SENT + 96) 1).count64 (R.SCH_BYTES_L + 96) (R.SCH_BYTES_H + 96) m.size)).hevIssue m
    | none, [] => l

/-- The body of the oldest outstanding write is acknowledged: the word-0 write follows (R304). -/
def Leaf.hevBodyAck (l : Leaf) (w : HevWrite) (rest : List HevWrite) : Leaf :=
  { l with u := l.u.hostWrite (l.hevAddr w.idx) (w.bytes.take 4), hev := { l.hev with flight := rest ++ [{ w with word0 := true }] } }

/-- Word 0 is acknowledged (R304, R305, R306): PI advances and is written back, the record leaves the RAM ring, and an interrupt
goes out where one is due. -/
def Leaf.hevWord0Ack (l : Leaf) (rest : List HevWrite) : Leaf :=
  let u := l.u.count R.HEV_PI 1
  let u := if u.rb R.HEV_CTL 30 then u.hostWrite (u.rn64 R.HEV_WB_L R.HEV_WB_H) (leBytes 4 (u.rn R.HEV_PI)) else u
  let seq := u.rcd.ring.head?.map Rec.seq
  let u := u.ringPop
  let h := l.hev
  let l := { l with u := u, hev := { h with flight := rest, unsig := h.unsig + 1, lastAck := seq,
                                            unsigAt := if h.unsig = 0 then u.clk.ival else h.unsigAt } }
  let full := l.hevFull
  let l := if full then l.blk (fun u => u.cause 0x16 0 0) else l
  if l.hevCountDue || (full && l.u.rb R.HEV_CTL 29) then l.hevSignal else l

/-- EVENT_RECORD_WRITE_ACK: the oldest outstanding write is acknowledged. -/
def Leaf.hevAck (l : Leaf) : Leaf :=
  let l := l.hevForce
  match l.hev.flight with
  | [] => l
  | w :: rest => if w.word0 then (l.hevWord0Ack rest).hevHand else l.hevBodyAck w rest

/-- EVENT_DMA_ERROR: the oldest outstanding write ends in a DMA error. -/
def Leaf.hevError (l : Leaf) : Leaf :=
  let l := l.hevForce
  match l.hev.flight with
  | [] => l
  | w :: _ => l.hevDmaError w.idx

/-- COALESCING_TIMER: the oldest unsignalled record has waited `ctim` (R306). -/
def Leaf.hevTimer (l : Leaf) : Leaf :=
  if l.u.rb R.HEV_CTL 29 && decide (l.hev.unsig ≠ 0) && decide (l.u.rf R.HEV_CTL 0 8 ≠ 0) then
    (l.blk (fun u => u.toIv (l.hev.unsigAt + usIv (u.rf R.HEV_CTL 0 8)))).hevSignal
  else l

/-- CI_WRITE (R303): a value that would make PI − CI exceed the ring is ignored. -/
def Leaf.hevCi (l : Leaf) (w : W32) : Leaf :=
  if l.hevCap < (l.u.reg R.HEV_PI - w).toNat then l.blk (fun u => u.cause 0x16 0 3)
  else (l.blk (fun u => u.setReg R.HEV_CI w)).hevHand

/-- A write of `HEV.CTL` (R303, R307): n outside 12 to 24, or changed while the queue is on, stays; a rise of `en` sets PI and CI to
0 and clears a DMA error; a fall stops the writes, and what was not acknowledged stays in the RAM ring. -/
def Leaf.hevCtl (l : Leaf) (w : W32) : Leaf :=
  let old := l
  let en := l.u.rb R.HEV_CTL 31
  let n0 := l.u.rf R.HEV_CTL 16 5
  let n := fld w 16 5
  let inRange := decide (12 ≤ n) && decide (n ≤ 24)
  let bad := if en then decide (n ≠ n0) else !inRange
  let n' := if bad then n0 else n
  let want := bit w 31
  let nOk := decide (12 ≤ n') && decide (n' ≤ 24)
  let refusedEn := want && !en && !nOk
  let en' := want && (en || nOk)
  let u := if bad || refusedEn then l.u.cause 0x16 0 3 else l.u
  let u := u.setReg R.HEV_CTL (setFld (setBit (w &&& 0xE01FFFFF#32) 31 en') 16 5 n')
  let u := if en' && !en then (u.setReg R.HEV_PI 0).setReg R.HEV_CI 0 else u
  let h := l.hev
  let h := if en' && !en then { h with dmaErr := false, unsig := 0, flight := [] } else if en' then h else { h with flight := [] }
  let l := ({ l with u := u, hev := h }).hevPin old
  let l := if en' && en then l else l.hevTakeBack
  let l := l.hevHand
  if l.hevCountDue then l.hevSignal else l

/-- EVENT_QUEUE_ENABLE: `HEV.CTL.en` is set with the register's other fields as they stand. -/
def Leaf.hevEnable (l : Leaf) : Leaf := l.hevCtl (setBit (l.u.reg R.HEV_CTL) 31 true)

/-- A write of BASE or WB: ignored while the queue is on (R307). -/
def Leaf.hevAddrWrite (l : Leaf) (k : Nat) (w : W32) : Leaf :=
  if l.u.rb R.HEV_CTL 31 then l.blk (fun u => u.cause 0x16 0 3) else l.blk (fun u => u.setReg k w)

/-- A write of `HEV.STS`: `pend` clears by writing 1. -/
def Leaf.hevSts (l : Leaf) (w : W32) : Leaf :=
  if bit w 31 then ({ l with hev := { l.hev with pend := false } }).hevPin l else l

/-- The value of `HEV.STS`. -/
def Leaf.hevStsVal (l : Leaf) : W32 :=
  BitVec.ofNat 32 (l.hev.pend.toNat * 2 ^ 31 + l.hev.dmaErr.toNat * 2 ^ 30 + (l.u.rb R.HEV_CTL 31 && l.hevFull).toNat)

/-- "recovery marker" (R315, R323). -/
def rkRecovery : RecKind := rk 0x16 0x0002 1 .always

/-- The first record after a reset of the leaf (R315). -/
def Leaf.recoveryMarker (l : Leaf) (kind : Nat) : Leaf :=
  let last := match l.hev.lastAck with | some s => s.toNat | none => 0xFFFFFFFF
  l.blk (fun u => u.report rkRecovery .dflt (pay [fd 0x24 1 kind, fd 0x25 1 0xFF, fd 0x30 4 last]))

/-- The queue through a warm or unit reset (R308): a record whose word-0 write was not acknowledged is written again, whole. -/
def Leaf.hevReset (l : Leaf) : Leaf := ({ l with hev := { l.hev with flight := [] } }).hevTakeBack

end Sys2Proof.Machine
end

