-- ==== Sys2Proof/Machine/LeafCtn.lean ====
section
/-!
DEFINITION. Containment at the leaf: requests, the host handshake, timeouts and the state query
(spec/13_health_containment.md, R293 to R295; spec/20_integration_ports.md, R422).
-/

namespace Sys2Proof.Machine

/-- Records of the CTN page (R302 table of records). -/
def rkCtnRequested : RecKind := rk 0x17 0x0001 2 .always
def rkCtnAcked : RecKind := rk 0x17 0x0002 1 .bySeverity
def rkCtnTimeout : RecKind := rk 0x17 0x0003 3 .always
def rkCtnReleased : RecKind := rk 0x17 0x0004 1 .always

/-- The handshake of a kind: 1 throttle, 2 quiesce, 3 expel-notice. -/
def Ctn.shake (c : Ctn) (kind : Nat) : Shake := if kind = 1 then c.throttle else if kind = 2 then c.quiesce else c.expel

def Ctn.setShake (c : Ctn) (kind : Nat) (s : Shake) : Ctn :=
  if kind = 1 then { c with throttle := s } else if kind = 2 then { c with quiesce := s } else { c with expel := s }

/-- The request pin of a kind. -/
def ctnPin (kind : Nat) : Pin := if kind = 1 then .ctThrottle else if kind = 2 then .ctQuiesce else .ctExpel

/-- Raise or lower the request of a kind. -/
def Leaf.ctnReq (l : Leaf) (kind : Nat) (b : Bool) : Leaf :=
  if (l.ctn.shake kind).req = b then l
  else
    let l := { l with ctn := l.ctn.setShake kind { l.ctn.shake kind with req := b } }
    l.blk (fun u => u.emit (.pin (ctnPin kind) 0 b.toNat))

/-- Raise the throttle request with a level beside it. -/
def Leaf.ctnThrottle (l : Leaf) (level : Nat) : Leaf :=
  let l := { l with ctn := { l.ctn with level := level } }
  (l.blk (fun u => u.emit (.pin .ctLevel 0 level))).ctnReq 1 true

/-- The leaf acknowledges a request upward with a status (R293): 0 applied, 1 timeout, 2 no slot of that job, 3 kind refused. -/
def Leaf.ctnAck (l : Leaf) (m : CtnMsg) (status : Nat) : Leaf :=
  l.blk (fun u => u.sendUp 5 ({ m with sub := 1, status := bv status }).rest)

/-- A task waits for the acknowledge that has not come yet. -/
def Leaf.ctnTask (l : Leaf) (m : CtnMsg) (w : CtnWait) : Leaf :=
  { l with ctn := { l.ctn with tasks := l.ctn.tasks ++ [⟨m, w, l.u.clk.ival⟩] } }

/-- What a task still owes upward. -/
def CtnTask.owes (t : CtnTask) : Bool :=
  match t.wait with
  | .fall _ o => o
  | _ => true

/-- The host has answered what a task waited for: the acknowledgement and its record, or the next step of a level change. -/
def Leaf.ctnFinish (l : Leaf) (t : CtnTask) : Leaf :=
  match t.wait with
  | .rise k =>
    (l.ctnAck t.req 0).blk (fun u => u.report rkCtnAcked .dflt
      (pay [fd 0x24 1 k, fd 0x28 4 t.req.rseq.toNat, fd 0x2C 4 (ivUs (u.clk.ival - t.since))]))
  | .bothLow =>
    (l.ctnAck t.req 0).blk (fun u => u.report rkCtnReleased .dflt (pay [fd 0x28 4 t.req.rseq.toNat]))
  | .fall level owes =>
    let l := l.ctnThrottle level
    if owes then { l with ctn := { l.ctn with tasks := l.ctn.tasks ++ [{ t with wait := .rise 1 }] } } else l

/-- What a task waits for holds. -/
def Ctn.ready (c : Ctn) (w : CtnWait) : Bool :=
  match w with
  | .rise k => (c.shake k).req && (c.shake k).ack
  | .fall _ _ => !c.throttle.ack
  | .bothLow => !c.throttle.ack && !c.quiesce.ack

/-- Finish every task whose condition holds. -/
def Leaf.ctnSettle (l : Leaf) : Leaf :=
  let done := l.ctn.tasks.filter (fun t => l.ctn.ready t.wait)
  let l := { l with ctn := { l.ctn with tasks := l.ctn.tasks.filter (fun t => !l.ctn.ready t.wait) } }
  done.foldl Leaf.ctnFinish l

/-- Older level changes that still wait for the throttle acknowledge to fall are overtaken: what they owe upward they owe for the
throttle request as it now stands. -/
def Leaf.ctnOvertake (l : Leaf) : Leaf :=
  { l with ctn := { l.ctn with tasks := l.ctn.tasks.filterMap (fun t => match t.wait with
    | .fall _ true => some { t with wait := .rise 1 }
    | .fall _ false => none
    | _ => some t) } }

/-- Apply a request of kind 0 to 3 on the host handshake (R293, R422). -/
def Leaf.ctnApply (l : Leaf) (m : CtnMsg) : Leaf :=
  let k := m.kind.toNat
  let level := m.arg.toNat % 256
  if k = 0 then
    (((l.ctnOvertake.ctnReq 1 false).ctnReq 2 false).ctnTask m .bothLow).ctnSettle
  else if k = 1 then
    let t := l.ctn.throttle
    if t.req && decide (l.ctn.level = level) then (l.ctnTask m (.rise 1)).ctnSettle
    else ((l.ctnOvertake.ctnReq 1 false).ctnTask m (.fall level true)).ctnSettle.ctnSettle
  else ((l.ctnReq k true).ctnTask m (.rise k)).ctnSettle

/-- The slot of a job (R76, R293). -/
def Leaf.jobSlot (l : Leaf) (job : W32) : Option Nat :=
  (List.range 2).find? (fun s => (l.u.step s).en && l.u.reg (R.SMP_JOB + 4 * s) = job)

/-- CONTAINMENT_REQUEST (R293). -/
def Leaf.ctnRequest (l : Leaf) (m : CtnMsg) : Leaf :=
  if 3 < m.kind.toNat then l.ctnAck m 3
  else if (l.jobSlot m.job).isNone then l.ctnAck m 2
  else if !stepAfter m.rseq (l.u.reg R.CTN_RSEQ) then
    if l.ctn.tasks.any (fun t => t.req.rseq = m.rseq && t.owes) then l else l.ctnAck m 0
  else
    let l := l.blk (fun u => (((u.setReg R.CTN_RSEQ m.rseq).setReg R.CTN_JOB m.job).bump R.CTN_REQS).cause 0x17 0 0)
    let l := l.blk (fun u => u.report rkCtnRequested .dflt
      (pay [fd 0x24 1 m.kind.toNat, fd 0x26 2 m.arg.toNat, fd 0x28 4 m.rseq.toNat, fd 0x2C 4 m.job.toNat]))
    l.ctnApply m

/-- The level of the acknowledge of a kind. -/
def Leaf.ctnLevel (l : Leaf) (kind : Nat) (b : Bool) : Leaf := { l with ctn := l.ctn.setShake kind { l.ctn.shake kind with ack := b } }

/-- CONTAINMENT_HOST_ACK: the host drives the acknowledge of a kind to a level. -/
def Leaf.ctnHostAck (l : Leaf) (kind : Nat) (b : Bool) : Leaf := (l.ctnLevel kind b).ctnSettle

/-- CONTAINMENT_ACK_TIMEOUT: the oldest request that is owed has waited `CTN.ACKTO` (R293): status 1, and the request stays raised. -/
def Leaf.ctnTimeout (l : Leaf) : Leaf :=
  match l.ctn.tasks.find? CtnTask.owes with
  | none => l
  | some t =>
    let l := l.blk (fun u => u.toIv (t.since + msIv (max 1 (u.rf R.CTN_ACKTO 0 16))))
    let tasks := l.ctn.tasks.filterMap (fun x => if x = t then
      match x.wait with
      | .fall v _ => some { x with wait := .fall v false }
      | _ => none
      else some x)
    let l := ({ l with ctn := { l.ctn with tasks := tasks } }).ctnAck t.req 1
    l.blk (fun u => ((u.bump R.CTN_TIMEOUTS).cause 0x17 0 1).report rkCtnTimeout .dflt
      (pay [fd 0x24 1 t.req.kind.toNat, fd 0x28 4 t.req.rseq.toNat]))

/-- STATE_QUERY (R295): the leaf answers with its active requests and the last rseq it applied. -/
def Leaf.ctnQuery (l : Leaf) (m : CtnMsg) : Leaf :=
  let c := l.ctn
  let st := c.throttle.req.toNat + 2 * c.quiesce.req.toNat + 4 * c.expel.req.toNat
  l.blk (fun u => u.sendUp 5 ({ m with sub := 6, rseq := u.reg R.CTN_RSEQ, status := bv st }).rest)

/-- The value of `CTN.STS`. -/
def Leaf.ctnStsVal (l : Leaf) : W32 :=
  let c := l.ctn
  BitVec.ofNat 32 (c.throttle.req.toNat * 2 ^ 31 + c.quiesce.req.toNat * 2 ^ 30 + c.expel.req.toNat * 2 ^ 29 + c.level % 256 * 2 ^ 16 +
    c.expel.ack.toNat * 4 + c.quiesce.ack.toNat * 2 + c.throttle.ack.toNat)

end Sys2Proof.Machine
end

