-- ==== Sys2Proof/Machine/LeafLink.lean ====
section
/-!
DEFINITION. The leaf's control link: receiving packets, acting on control messages, attach, detach and replay arm, and the loss of
its parent (spec/08_frames_links_scheduling.md, R160, R165, R166; spec/16_job_continuity.md, R339, R346, R348, R362).
-/

namespace Sys2Proof.Machine

/-! ### Attach, detach, replay arm -/

/-- "slot attached", "slot detached", "replay armed" (R339, R348, R362). -/
def rkSlotAttached : RecKind := rk 0x02 0x0010 1 .always
def rkSlotDetached : RecKind := rk 0x02 0x0011 1 .always
def rkReplayArmed : RecKind := rk 0x02 0x0012 1 .always

/-- The leaf's acknowledgement of an attach: sub 3 with a status (R339, R342). -/
def Leaf.leafAck (l : Leaf) (m : StartMsg) (status : Nat) : Leaf :=
  l.blk (fun u => u.sendUp 6 ({ m with sub := 3, status := bv status, leaf := u.reg R.SMP_LEAFNO, data := [] }).rest)

/-- LEAF_ATTACH (R339): job, replay epoch, notice and en, in one cycle; a slot that is on already is left unchanged. -/
def Leaf.leafAttach (l : Leaf) (m : StartMsg) : Leaf :=
  let s := m.slot.toNat % 2
  let c := l.u.step s
  if c.en then
    if l.u.reg (R.SMP_JOB + 4 * s) = m.job && c.bseq = m.bseq then l.leafAck m 0 else l.leafAck m 2
  else
    let l := if l.u.reg (R.SMP_JOB + 4 * s) = m.job then l else l.blk (fun u => u.bumpSeq 0x03 0)
    let l := l.blk (fun u => ((u.setReg (R.SMP_JOB + 4 * s) m.job).bumpSeq 0x02 0).setStep s
      { u.step s with epoch := m.epoch, epochNext := none, notice := bit m.flags 3, bseq := m.bseq, armBseq := 0 })
    let l := (l.attach s).leafAck m 0
    l.blk (fun u => u.report rkSlotAttached (.slot s) (pay [fd 0x24 1 s, fd 0x25 1 m.epoch.toNat, fd 0x28 4 m.job.toNat]))

/-- LEAF_DETACH (R348): en of the named slot is cleared. -/
def Leaf.leafDetach (l : Leaf) (slot : Nat) : Leaf :=
  let s := slot % 2
  if (l.u.step s).en then
    let job := l.u.rn (R.SMP_JOB + 4 * s)
    (l.detach s).blk (fun u => (u.bumpSeq 0x02 0).report rkSlotDetached (.slot s) (pay [fd 0x24 1 s, fd 0x28 4 job]))
  else l

/-- REPLAY_ARM (R343, R362): the step goes to `STEP.IDX_SET`, and the epoch is taken at the same accepted mark. A further copy of the
same descriptor, or one of an earlier number (R36), does nothing more. -/
def Leaf.replayArm (l : Leaf) (m : StartMsg) : Leaf :=
  let s := m.slot.toNat % 2
  let held := (l.u.step s).armBseq
  if held ≠ 0 && m.bseq ≠ 0 && decide ((m.bseq - held).toInt ≤ 0) then l
  else
    let l := l.idxSet s m.step
    let l := l.blk (fun u => u.setStep s { u.step s with epochNext := some m.epoch, armBseq := m.bseq })
    l.blk (fun u => (u.bumpSeq 0x02 0).report rkReplayArmed (.slot s) (pay [fd 0x24 1 s, fd 0x25 1 m.epoch.toNat, fd 0x28 4 m.step.toNat]))

/-! ### The parent (R346, R373) -/

/-- A link reset of the frame port: the slot credits are zero and the numbering restarts (R373). -/
def Leaf.creditZero (l : Leaf) : Leaf := l.blk (fun u => (u.setN R.SMP_CRED 0).setN (R.SMP_CRED + 4) 0)

/-- The link to the parent is declared down (R166, R346): the leaf takes the alternate parent where it has one. -/
def Leaf.linkLost (l : Leaf) : Leaf :=
  let l := (l.blk (fun u => u.linkDown 0)).creditZero
  if l.u.rn64 R.LNK_PMAC1_L R.LNK_PMAC1_H ≠ 0 && !l.u.rb R.LNK_CTL 30 then l.blk Blk.toAlternate else l

/-- ACK_TIMEOUT of the leaf's link. -/
def Leaf.ackTimeout (l : Leaf) : Leaf :=
  let r := l.u.ackTimeout 0
  let l := { l with u := r.1 }
  if r.2 then l.linkLost else l

/-- LINK_RESET of the leaf's frame port: sent numbering restarts, retained messages stay, credits are zero (R373). -/
def Leaf.linkResetAll (l : Leaf) : Leaf :=
  (l.blk (fun u => ((u.linkReset 0).disarmPage 0x10 0).setN R.BLK_RSTCAUSE (3 * 2 ^ 30 + 16))).creditZero

/-- PACKET_SENT at the leaf: a record of queue 3 that had the read port is issued to the DMA port (R170), a dump that waited for room goes on (R169); a link whose envelope counter is used up is declared down (R409). -/
def Leaf.packetSent (l : Leaf) : Leaf :=
  let done := l.u.recordOnPort
  let l := l.hevHand.blk (fun u => u.packetSent 0)
  let l := (match done with | some m => l.hevIssue m | none => l).dumpRoom
  if l.u.usedUp 0 then l.linkLost else l

/-! ### Control messages (R165) -/

/-- The 2-bit codes of an election notice, `n` of them. -/
def electionCodes (l : List Byte) (n : Nat) : List (BitVec 2) :=
  (List.range n).map (fun i => bv (fld (l.getD (i / 4) 0) (2 * (i % 4)) 2))

/-- A control message that the leaf acts on, or reports as unknown. -/
def Leaf.control (l : Leaf) (body : List Byte) (verdict : Byte) : Leaf :=
  let code := ctlCode body
  let sub := ctlSub body
  match code with
  | 1 => l.blk (fun u => u.linkAck 0 (bv (numAt body 4 4)))
  | 2 => l.credit (numAt body 4 1 % 2) (numAt body 5 1 % 4) (numAt body 6 2)
  | 3 => l.election (numAt body 4 4) (numAt body 8 4) (electionCodes (body.drop 0x10) (numAt body 0x0C 4))
  | 4 => l.dumpRefused (bv (numAt body 4 4))
  | 5 =>
    match sub with
    | 0 => l.ctnRequest (CtnMsg.read body)
    | 6 => l.ctnQuery (CtnMsg.read body)
    | _ => l.blk (fun u => u.unknownControl code)
  | 6 =>
    match sub with
    | 2 => l.leafAttach (StartMsg.read body)
    | 4 => l.leafDetach (numAt body 0x14 1)
    | 5 => l.replayArm (StartMsg.read body)
    | _ => l.blk (fun u => u.unknownControl code)
  | 8 =>
    match sub with
    | 1 => l.blk (fun u => u.accept (bv (numAt body 7 1)) (bv (numAt body 8 4)) verdict.toNat)
    | 2 => l.blk Blk.helloRefused
    | 3 => l.blk (fun u => u.attestAnswer (bytesAt body 8 32))
    | 6 => l
    | _ => l.blk (fun u => u.unknownControl code)
  | _ => l.blk (fun u => u.unknownControl code)

/-- CONTROL_RECEIVE: a control message is judged by its lseq, acknowledged, and acted on (R166). -/
def Leaf.controlReceive (l : Leaf) (lseq : W32) (restart : Bool) (body : List Byte) (verdict : Byte) : Leaf :=
  if !ctlLenOk body then l.blk (fun u => u.rxDiscard 2)
  else if ctlCode body = 1 then (l.blk (fun u => u.count R.LNK_RXFRM 1)).control body verdict
  else
    let r := l.u.rxCtlSeq 0 lseq restart
    let l := { l with u := r.1 }
    if r.2 then (l.blk (fun u => u.count R.LNK_RXFRM 1)).control body verdict else l

/-! ### Packets (R160) -/

/-- An item carries a word with bad parity or a poison tag (R158, R160). -/
def Item.bad (i : Item) : Bool :=
  decide (i.poison ≠ 0) || (List.range 16).any (fun j => wordParity (bytesAt i.data (4 * j) 4) != bit i.parity j)

/-- The bytes of a frame that came in items: 64 in each, and the byte count's in the last (R158). -/
def itemBytes (is : List Item) : Nat := 64 * (is.length - 1) + ((is.getLast?.map (fun i => i.count.toNat)).getD 0)

/-- What arrived is the idle item, which is no packet (R159). -/
def Packet.isIdle (p : Packet) : Bool := match p.items with | [i] => i.isIdle | _ => false

/-- A start mark came before the packet's end mark: the packet is cut (R160). -/
def Packet.isCut (p : Packet) : Bool := !(p.items.getLast?.any Item.stop)

/-- A saggar frame's length agrees with its link header: 54 bytes more on the port, or 58 with an 802.1Q tag (R162, R173). -/
def Packet.lengthOk (p : Packet) : Bool :=
  decide (p.len.toNat = p.body.length) && (itemBytes p.items = p.len.toNat + 54 || itemBytes p.items = p.len.toNat + 58)

/-- Why the leaf discards a packet before decryption, if it does (R160). -/
def Leaf.rxBad (l : Leaf) (p : Packet) (upset : Bool) : Option Nat :=
  if upset || p.items.any Item.bad then some 0
  else if p.isCut then some 1
  else if p.etherType = 0x88F7 then none
  else if p.etherType.toNat ≠ l.u.rf R.LNK_ETYPE 0 16 then some 3
  else if !p.lengthOk || (p.kind = 4 && !ctlLenOk p.body) then some 2
  else if p.kind ≠ 4 || p.queue ≠ 1 then some 4
  else none

/-- RECEIVE_PACKET at the leaf: an idle item is discarded (R159). An armed injection takes the first word as bad parity (R388). -/
def Leaf.receive (l : Leaf) (p : Packet) : Leaf :=
  if p.isIdle then l else
  let inj := l.u.armed 0x10 0 1
  let l := if inj then l.blk (fun u => u.fire 0x10 0 1 false) else l
  match l.rxBad p inj with
  | some c => l.blk (fun u => u.rxDiscard c)
  | none =>
    if p.etherType = 0x88F7 then l.blk (fun u => u.timeMessage 0xF u.rxStamp p.body)
    else
      let r := l.u.rxEnvelope 0 0xF p
      let l := { l with u := r.1 }
      if r.2 then l.controlReceive p.lseq p.restart p.body p.verdict else l

end Sys2Proof.Machine
end

