-- ==== Sys2Proof/Machine/Resets.lean ====
section
/-!
DEFINITION. What a reset does to the state that both builds hold, and the warm-up ladder's steps (spec/17_power_reset_hotplug.md, R365,
R368, R372 to R374; spec/19_identity_protection.md, R395, R402, R403).
-/

namespace Sys2Proof.Machine

/-- What a cold reset keeps of the identity: the flash region (R397). -/
def Identity.cold (i : Identity) : Identity :=
  { Identity.reset with devPub := i.devPub, helper := i.helper, copyA := i.copyA, copyB := i.copyB, inCopyB := i.inCopyB,
                        chain := i.chain }

/-- A flash program that a cold reset cuts short leaves its place started and not valid (R371). -/
def Blk.flashCut (u : Blk) : Blk :=
  match u.his.op <|> u.his.cut with
  | some (.program stage i key) => u.setFlash key (u.flashAt key &&& stageBits (min stage 1) i.raw)
  | _ => u

/-- The unit's state after a cold reset (R373): reset values, but for the flash, the host's memory, the readings of the supply and of the temperature, and the log. -/
def Blk.cold (u : Blk) (source : Nat) : Blk :=
  let v := Blk.reset u.build
  let v := { v with his := History.reset u.flashCut.his.flash false, idn := u.idn.cold, pw := { v.pw with code := u.pw.code, rail := u.pw.rail, tj := u.pw.tj, tjSensor := u.pw.tjSensor }, host := u.host,
                    fresh := u.fresh, out := u.out, arrived := u.arrived, held := some .cold }
  (v.setN R.BLK_RSTCAUSE source).setN R.PWR_MINCODE u.pw.code

/-- Injection and debug mode are cleared by a cold or warm reset (R389, R392). -/
def Blk.clearInjection (u : Blk) : Blk :=
  let u := u.disarmAll
  (u.regs.filter (fun e => e.1 % 0x1000 == 0x0C)).foldl (fun (v : Blk) e => v.setReg e.1 0) u

/-- A link through a warm reset (R164, R373): numbering restarts, no base, nothing retained, admission to be renewed. -/
def Link.warm (l : Link) : Link :=
  { l with sendSeq := [], restartDue := 0xFF, base := [], retained := [], resends := 0, acked := none, down := false,
           admitted := false, handshake := none }

/-- A port through a warm reset (R168, R178): the egress buffer and the timestamp queue are emptied. -/
def Port.warm (p : Port) : Port :=
  { p with queues := [], waiting := [], deficit := [], round := 2, granted := false, onPort := none, tsq := [] }

/-- What a warm reset does to the unit's common state (R373); `source` as R374 gives it. -/
def Blk.warm (u : Blk) (source : Nat) : Blk :=
  let dbg := u.rb R.BLK_DBG 0
  let u := { u with ports := smMap Port.warm u.ports, links := smMap Link.warm u.links }
  let u := u.clearInjection
  let u := if dbg then (u.setN R.BLK_DBG 0).report rkDebugMode .dflt (pay [fd 0x24 1 0]) else u
  let i := { u.idn with meas := [], valid := false, secrets := false, rdy := false, busy := false, pending := [] }
  let p := { u.pw with step := 0, stage := .ladder, pufDone := false, helloSent := false, admitted := false, tries := 0, waiting := false,
                       stuck := false, ladderLate := none }
  ({ u with idn := i, pw := p, held := some .warm }).setN R.BLK_RSTCAUSE (2 ^ 30 + source)

/-- A cold reset is held on while the supply stands at its reset level (R369, R374). -/
def Blk.supplyHolds (u : Blk) : Bool := decide (u.held = some .cold) && u.atResetLevel u.pw.code

/-- A held reset is released (R365, R374, R398, R402, R403): time 0 of the ladder. A cold reset samples the trust anchor; the reset
measures, and applies the newest configuration copy. -/
def Blk.release (u : Blk) (taHash : BitVec 384) (taValid : Bool) : Blk :=
  let u := match u.held with
    | some .cold =>
      let i := { u.idn with taHash := taHash, taValid := taValid, anchor := taValid && decide (taHash ≠ 0) }
      { u with idn := i }
    | _ => u
  ({ u with held := none, pw := { u.pw with ladderAt := u.clk.ival } }).measureReset.cfgReset

/-- Milliseconds since time 0 of the ladder. -/
def Blk.ladderMs (u : Blk) : Nat := ivMs (u.clk.ival - u.pw.ladderAt)

/-- A write of `BLK.RST` (R372): the kind it asks for, or none where the key or the kind is wrong. -/
def rstKind (b : Build) (w : W32) : Option ResetKind :=
  if fld w 16 16 ≠ 0xB10C then none
  else match fld w 0 2 with
    | 1 => some .cold
    | 2 => some .warm
    | 3 => match b with | .leaf => some .unit | .tray => none
    | _ => none

end Sys2Proof.Machine
end

