-- ==== Sys2Proof/Machine/LeafReset.lean ====
section
/-!
DEFINITION. Resets of the leaf and its ladder (spec/17_power_reset_hotplug.md, R368, R372 to R374; the chapters' own rules of what a
reset keeps: R60, R64, R74, R103, R140, R150, R168, R293, R308, R315).
-/

namespace Sys2Proof.Machine

/-- The input levels that the host die drives on, whatever the reset: trace sources' low-power levels, engines' idle levels, reset-domain answers and containment
acknowledges. -/
def Leaf.inputs (l : Leaf) : Leaf :=
  let r := Leaf.reset
  let eng := smMap (fun (e : Engine) => { Engine.reset with idle := e.idle }) l.kst.engines
  let doms := smMap (fun (d : Dom) => { Dom.reset with ack := d.ack, done := d.done }) l.kst.doms
  let c := { r.ctn with throttle := ⟨false, l.ctn.throttle.ack⟩, quiesce := ⟨false, l.ctn.quiesce.ack⟩, expel := ⟨false, l.ctn.expel.ack⟩ }
  { r with kst := { r.kst with edges := l.kst.edges,
                               engines := eng.filter (fun e => decide (e.2 ≠ Engine.reset)),
                               doms := doms.filter (fun e => decide (e.2 ≠ Dom.reset)) },
           trc := l.trc.inputs, ctn := c }

/-- The outputs that stood high before a cold reset fall with what held them: `hev_irq` and `err_irq` (R307, R383), raised reset requests (R140) and
containment requests (R293). -/
def Leaf.outputsFall (l was : Leaf) : Leaf :=
  let l := l.hevPin was
  let l := if l.u.errLevel = was.u.errLevel then l else l.blk (fun u => u.emit (.pin .errIrq 0 u.errLevel.toNat))
  let l := (was.kst.doms.filter (fun e => e.2.req)).foldl (fun (v : Leaf) e => v.blk (fun u => u.emit (.pin .rstReq e.1 0))) l
  ([1, 2, 3].filter (fun k => (was.ctn.shake k).req)).foldl (fun (v : Leaf) k => v.blk (fun u => u.emit (.pin (ctnPin k) 0 0))) l

/-- COLD_RESET of the leaf (R373): it is held until its cause is released. The recovery marker is the first record (R315). -/
def Leaf.coldReset (l : Leaf) (source : Nat) : Leaf :=
  let r := l.inputs
  (({ r with u := l.u.cold source }).outputsFall l).recoveryMarker 0

/-- What a warm and a unit reset of the leaf do alike to its sub-blocks. -/
def Leaf.engineReset (l : Leaf) (kind : Nat) : Leaf :=
  let l := l.recoveryMarker kind
  let l := l.abandon (fun _ => true)
  let l := l.traceReset.guardReset.kilnReset.hevReset
  l.dumpReset.cmpReset.creditZero

/-- WARM_RESET of the leaf (R373): it is held until its cause is released. -/
def Leaf.warmReset (l : Leaf) (source : Nat) : Leaf := (l.blk (fun u => u.warm source)).engineReset 1

/-- UNIT_RESET of the leaf (R168, R373, R392, R426): the packet on the port is cut short, what is not yet committed is not sent, the frame port sends
idle items, and injections are disarmed. -/
def Leaf.unitReset (l : Leaf) : Leaf :=
  let l := l.blk (fun u => (((u.modPort 0 (fun p => { p with onPort := none, waiting := [] })).emit .idleItem).disarmAll).setN R.BLK_RSTCAUSE (2 * 2 ^ 30 + 8))
  l.engineReset 3

/-- LADDER_STEP_END at the leaf (R368): step 0 waits for the clock, step 1 is the PUF step; then the leaf is ready. -/
def Leaf.ladderStep (l : Leaf) (flashOk crcOk : Bool) : Leaf :=
  match l.u.pw.step with
  | 0 => l.blk (fun u => { u with pw := { u.pw with step := 1 } })
  | 1 => l.blk (fun u => (({ u with pw := { u.pw with step := 2 } }).pufStep flashOk crcOk).helloCheck)
  | _ => l

/-- A reset kind asked for by `BLK.RST` (R372). -/
def Leaf.rstWrite (l : Leaf) (w : W32) : Leaf :=
  match rstKind .leaf w with
  | some .cold => l.coldReset 8
  | some .warm => l.warmReset 8
  | some .unit => l.unitReset
  | _ => l

/-- The supply code of the leaf takes a value: a cold reset at the reset level (R369). A code that comes in a held cold reset waits for its release. -/
def Leaf.supply (l : Leaf) (code : Nat) (took : Bool) : Leaf :=
  if l.u.held = some .cold then l.blk (fun u => u.supplyInput code 0)
  else if l.u.atResetLevel code then (l.blk (fun u => u.supplyInput code 0)).coldReset 2
  else l.blk (fun u => (u.supplyCode code 0 took).idnResume)

/-- RESET_RELEASE at the leaf: the ladder begins, the supply code in force is judged, L is measured, and containment acknowledges that came
meanwhile are seen (R64, R293, R368, R369). -/
def Leaf.release (l : Leaf) (taHash : BitVec 384) (taValid : Bool) : Leaf :=
  if l.u.held.isNone || l.u.supplyHolds then l
  else
    let l := l.blk (fun u => u.release taHash taValid)
    ((l.supply l.u.pw.code false).launchMarker).ctnSettle

end Sys2Proof.Machine
end

