-- ==== Sys2Proof/Machine/LeafPort.lean ====
section
/-!
DEFINITION. The leaf's register port (spec/20_integration_ports.md, R414; spec/21_register_pages.md, R439 to R448; spec/03_counters_sampler.md,
R67): every read and write of every page.
-/

namespace Sys2Proof.Machine

/-! ### Reads -/

/-- A read of a slot's registers of the STEP page (R43); `k` is the slot A key. -/
def Leaf.readStepSlot (l : Leaf) (s k : Nat) : Leaf × W32 :=
  let c := l.u.step s
  if k = R.STEP_CTL then
    (l, w32 (c.en.toNat * 2 ^ 31 + c.notice.toNat * 2 ^ 30 + c.k % 8 * 256 + c.regOnly.toNat * 2 + c.estValid.toNat))
  else if k = R.STEP_IDX then (l, c.latIdx)
  else if k = R.STEP_ANG then (l.blk (fun u => u.angRead s), l.u.angle s)
  else if k = R.STEP_PER_L then (l, lo32 c.per.toNat)
  else if k = R.STEP_PER_H then (l, hi32 c.per.toNat)
  else if k = R.STEP_LASTM_L then (l, lo32 c.lastM.toNat)
  else if k = R.STEP_LASTM_H then (l, hi32 c.lastM.toNat)
  else if k = R.STEP_PSEED_L then (l, c.seedL)
  else if k = R.STEP_PSEED_H then (l, c.seedH.setWidth 32)
  else if k = R.STEP_IDX_SET then (l, c.idxSet)
  else if k = R.STEP_CNT then (l, w32 (c.cntShort * 2 ^ 24 + c.cntLong * 2 ^ 16 + c.cntIgn * 256 + c.cntSkip))
  else if k = R.STEP_CAP_L then (l, lo32 c.latTb1.toNat)
  else if k = R.STEP_CAP_H then (l, hi32 c.latTb1.toNat)
  else (l, 0)

/-- A read of the STEP page. -/
def Leaf.readStep (l : Leaf) (k : Nat) : Leaf × W32 :=
  let a := l.u.step 0
  let b := l.u.step 1
  if k = R.STEP_MINPER then (l, l.u.reg k)
  else if k = R.STEP_STS then (l, w32 (b.short.toNat * 8 + a.short.toNat * 4 + b.long.toNat * 2 + a.long.toNat))
  else if k < 0x2080 then l.readStepSlot 0 k
  else if k < 0x20B8 then l.readStepSlot 1 (k - 0x40)
  else (l, 0)

/-- A read of the SMP page. -/
def Leaf.readSmp (l : Leaf) (k : Nat) : Leaf × W32 :=
  if k = R.SMP_STS then
    (l, w32 (l.ctr.fault.toNat * 2 ^ 31 + l.storeBusy.toNat * 2 ^ 30 + l.level 1 * 64 + l.level 0 * 16 + l.ctr.calDone.toNat))
  else if k = R.SMP_CNT ∨ k = R.SMP_CNT + 4 then
    let r := l.u.readClear k
    ({ l with u := r.1 }, r.2)
  else (l, l.u.reg k)

/-- A read of the CNT page by a privileged access, or of its open registers (R68). -/
def Leaf.readCnt (l : Leaf) (k : Nat) : Leaf × W32 :=
  if k = R.CNT_VAL_L then
    let v := l.capturesDone
    (v, v.u.reg k)
  else if k = R.CNT_CAP_H then (l.capHRead, l.u.reg k)
  else if k = R.CNT_STS then (l, (l.u.reg k &&& 7#32) ||| w32 (l.ctr.fault.toNat * 2 ^ 31))
  else if k = R.CNT_MAPVAL then (l, l.mapVal)
  else (l, l.u.reg k)

/-- A read of the BWW page (R69). -/
def Leaf.readBww (l : Leaf) (k : Nat) : W32 :=
  if k < 0x5040 ∨ 0x5440 ≤ k then 0
  else
    let w := smGet l.ctr.windows ((k - 0x5040) / 16) BwUnit.reset
    match (k - 0x5040) % 16 / 4 with
    | 0 => w.cfg
    | 1 => lo32 w.last.toNat
    | 2 => w32 (w.valid.toNat * 2 ^ 31 + w.last.toNat / 2 ^ 32 % 2 ^ 16)
    | _ => w.wseq

/-- A read of the TRC page. -/
def Leaf.readTrc (l : Leaf) (k : Nat) : W32 :=
  if k = R.TRC_STS then
    let loss := (List.range 8).any (fun s => (l.src s).loss.isSome)
    w32 (l.trc.dmaErr.toNat * 8 + (l.u.rb R.TRC_CTL 31 && l.trcFull).toNat * 4 + (decide (l.trc.flushLeft ≠ 0)).toNat * 2 + loss.toNat)
  else if k = R.TRC_FILL then w32 (8 * l.trc.buf.length)
  else if k = R.TRC_WIN then l.trc.windows.setWidth 32
  else if R.TRC_SRC_USE ≤ k ∧ k < R.TRC_SRC_USE + 128 ∧ (k - R.TRC_SRC_USE) % 16 = 0 then w32 (l.srcUse ((k - R.TRC_SRC_USE) / 16))
  else l.u.reg k

/-- A read of the KST page. -/
def Leaf.readKst (l : Leaf) (k : Nat) : W32 :=
  let hung := fun (e : Nat) => (l.engine e).hung
  let mask := fun (lo : Nat) => (List.range 32).foldl (fun (a : Nat) i => if hung (lo + i) then a + 2 ^ i else a) 0
  let e := l.engine (l.u.rf R.KST_SIDX 8 6)
  let s := e.suspects.getD (l.u.rf R.KST_SIDX 0 3) ⟨0, 0, 0⟩
  if k = R.KST_STS then
    let esc := (List.range 16).any (fun d => (l.dom d).into.isSome)
    w32 (esc.toNat * 2 + ((List.range 64).any hung).toNat)
  else if k = R.KST_HUNG_L then w32 (mask 0)
  else if k = R.KST_HUNG_H then w32 (mask 32)
  else if k = R.KST_SVAL then s.id
  else if k = R.KST_SVAL + 4 then w32 (e.suspects.length * 2 ^ 24 + e.suspInc.toNat * 2 ^ 16 + s.queue.toNat)
  else if k = R.KST_SVAL + 8 then lo32 s.tb1.toNat
  else if k = R.KST_SVAL + 12 then hi32 s.tb1.toNat
  else if R.KST_DOM_STS ≤ k ∧ k < R.KST_DOM_STS + 256 ∧ (k - R.KST_DOM_STS) % 16 = 0 then
    let d := l.dom ((k - R.KST_DOM_STS) / 16)
    w32 (d.req.toNat * 2 ^ 31 + d.ack.toNat * 2 ^ 30 + d.done.toNat * 2 ^ 29 + d.esc % 16)
  else if k = R.KST_CMD then 0
  else l.u.reg k

/-- A read of the DMP page. -/
def Leaf.readDmp (l : Leaf) (k : Nat) : W32 :=
  let d := l.dmp
  if k = R.DMP_STS then
    let path := match d.run with | some r => r.fallback | none => d.lastPath
    w32 (d.unread.toNat * 16 + d.pend.isSome.toNat * 8 + path.toNat * 4 + d.run.isSome.toNat * 2 + d.complete.toNat)
  else if k = R.DMP_DVAL then l.descWord (l.u.rf R.DMP_DIDX 0 8) (l.u.rf R.DMP_DIDX 8 2)
  else if k = R.DMP_CMD then 0
  else l.u.reg k

/-- A read of the SNG page. -/
def Leaf.readSng (l : Leaf) (k : Nat) : W32 :=
  let g := l.sng
  if k = R.SNG_STS then
    w32 (g.state.num * 2 ^ 30 + g.reason % 16 * 2 ^ 24 + g.held.length * 256 + g.timers.length)
  else if k = R.SNG_CMD then 0
  else l.u.reg k

/-- A read of the FPR page. -/
def Leaf.readFpr (l : Leaf) (k : Nat) : Leaf × W32 :=
  if k = R.FPR_STS then
    let draining := l.sng.state = .copied && !l.fpr.drained
    (l, w32 (l.fpr.drained.toNat * 2 ^ 31 + draining.toNat * 2 ^ 30 +
      (List.range 4).foldl (fun (a : Nat) i => if (smGet? l.fpr.lanes i).isSome then a + 2 ^ i else a) 0))
  else if k = R.FPR_BYTES_L then ({ l with fpr := { l.fpr with bytesH := l.u.reg R.FPR_BYTES_H } }, l.u.reg k)
  else if k = R.FPR_BYTES_H then (l, l.fpr.bytesH)
  else if k = R.FPR_DVAL then (l, (l.code (l.u.rf R.FPR_DIDX 0 20)).setWidth 32)
  else if k = R.FPR_NWRITE then (l, w32 (l.codeCount 1))
  else if k = R.FPR_NSKIP then (l, w32 (l.codeCount 2))
  else if k = R.FPR_NEXCL then (l, w32 (l.codeCount 3))
  else (l, l.u.reg k)

/-- A read of the ASTB page (R44, R47, R448). -/
def Leaf.readAstb (l : Leaf) (k : Nat) : W32 :=
  if k = R.ASTB_CTL then l.u.reg k
  else if k = R.ASTB_STS then w32 (l.sch.pend.toNat * 2 ^ 31 + l.sch.shown.toNat)
  else if 0x18040 ≤ k ∧ k < 0x18240 then l.astbRead ((k - 0x18040) / 8) (decide ((k - 0x18040) % 8 = 4))
  else 0

/-- A read of the SEL page (R70, R448). -/
def Leaf.readSel (l : Leaf) (k : Nat) : W32 :=
  let a := l.selList 0
  let b := l.selList 1
  let s := l.selList (l.u.rf R.SEL_IDX 14 1)
  if k = R.SEL_ENT then smGet (s.entries (!s.active)) (l.u.rf R.SEL_IDX 0 13) 0
  else if k = R.SEL_LEN then w32 a.elen
  else if k = R.SEL_LEN + 4 then w32 b.elen
  else if k = R.SEL_GEN then a.gen
  else if k = R.SEL_GEN + 4 then b.gen
  else if k = R.SEL_STS then w32 (b.pend.toNat * 2 + a.pend.toNat)
  else if k = R.SEL_ALEN then w32 (b.alen * 2 ^ 16 + a.alen)
  else if k = R.SEL_IDX then l.u.reg k
  else 0

/-- Registers of the CNT and BWW pages that only a privileged access reaches (R67). -/
def needsPriv (k : Nat) : Bool :=
  (0x4040 ≤ k && k ≤ 0x4050) || k = R.CNT_CLRALL || k = R.CNT_MAPIDX || k = R.CNT_MAPVAL || (0x5040 ≤ k && k < 0x6000)

/-- The answer is the read's second part; the state is the first. -/
def Leaf.readPage (l : Leaf) (k : Nat) : Leaf × W32 :=
  let p := k / 0x1000
  if p = 0x02 then l.readStep k
  else if p = 0x03 then l.readSmp k
  else if p = 0x04 then l.readCnt k
  else if p = 0x05 then (l, l.readBww k)
  else if p = 0x06 then let l := l.merge; (l, l.readTrc k)
  else if p = 0x0B then (l, l.readKst k)
  else if p = 0x0C then (l, l.readDmp k)
  else if p = 0x0D then (l, l.readSng k)
  else if p = 0x0E then l.readFpr k
  else if k = R.CMP_STS then (l, l.cmpStsVal)
  else if k = R.HEV_STS then (l, l.hevStsVal)
  else if k = R.CTN_STS then (l, l.ctnStsVal)
  else if p = 0x18 then (l, l.readAstb k)
  else if p = 0x19 then (l, l.readSel k)
  else
    let r := l.u.portRead k
    ({ l with u := r.1 }, r.2)

/-- An access outside the used pages: it reads zero, ignores a write and sets `reg_err` (R414). -/
def Leaf.regErr (l : Leaf) : Leaf := l.blk (fun u => u.emit (.pin .regErr 0 1))

/-- A read through the register port at byte address `k` (R414). -/
def Leaf.read (l : Leaf) (k : Nat) (priv : Bool) : Leaf × W32 :=
  if 0x1A000 ≤ k then (l.regErr, 0)
  else if needsPriv k && !priv then (l.unprivileged, 0)
  else if k % 0x1000 < 0x40 then (l, l.u.headRead (k / 0x1000) 0 (k % 0x1000))
  else l.readPage k

/-! ### Writes -/

/-- A write of a slot's registers of the STEP page. -/
def Leaf.writeStepSlot (l : Leaf) (s k : Nat) (w : W32) : Leaf :=
  if k = R.STEP_CTL then l.stepCtl s w
  else if k = R.STEP_MARK then (if bit w 0 then l.stepMarks (BitVec.ofNat 2 (s + 1)) false else l)
  else if k = R.STEP_PSEED_L then l.pseedLow s w
  else if k = R.STEP_PSEED_H then l.pseedHigh s (w.setWidth 16)
  else if k = R.STEP_IDX_SET then l.idxSet s w
  else l

def Leaf.writeStep (l : Leaf) (k : Nat) (w : W32) : Leaf :=
  if k = R.STEP_MINPER then l.blk (fun u => u.writePlain k w)
  else if k < 0x2080 then l.writeStepSlot 0 k w
  else if k < 0x20B8 then l.writeStepSlot 1 (k - 0x40) w
  else l

def Leaf.writeCnt (l : Leaf) (k : Nat) (w : W32) : Leaf :=
  if k = R.CNT_IDX then
    if bit w 30 then l.clearReq (bit w 31) (fld w 0 13) else l.capture (bit w 31) (fld w 0 13)
  else if k = R.CNT_STS then (if bit w 2 then l.blk (fun u => u.setRb k 2 false) else l)
  else if k = R.CNT_CLRALL then (if bit w 0 then l.clrAll else l)
  else if k = R.CNT_MAPVAL then l.mapWrite w
  else l.blk (fun u => u.writePlain k w)

/-- A write of the TRC page (R96). -/
def Leaf.writeTrc (l : Leaf) (k : Nat) (w : W32) : Leaf :=
  if k = R.TRC_CTL then l.trcCtl w
  else if k = R.TRC_RBASE_L ∨ k = R.TRC_RBASE_H then
    if l.u.rb R.TRC_CTL 31 then l.blk (fun u => u.cause 0x06 0 4) else l.blk (fun u => u.writePlain k w)
  else if k = R.TRC_RSIZE then
    let n := fld w 0 6
    if l.u.rb R.TRC_CTL 31 ∨ n < 16 ∨ 32 < n then l.blk (fun u => u.cause 0x06 0 4) else l.blk (fun u => u.writePlain k w)
  else if k = R.TRC_RPTR then l.trcRptr w
  else if k = R.TRC_NOTE then (l.blk (fun u => u.writePlain k w)).trcNotice
  else if k = R.TRC_FLUSH then (if bit w 0 then l.trcFlush else l)
  else if R.TRC_SRC_CFG ≤ k ∧ k < R.TRC_SRC_CFG + 128 ∧ (k - R.TRC_SRC_CFG) % 16 = 0 then l.srcCfgWrite ((k - R.TRC_SRC_CFG) / 16) w
  else l

/-- The bits that the registers of the TRF page hold (R87 to R92). -/
def trfMask (off : Nat) : W32 :=
  if 0x40 ≤ off ∧ off < 0x140 then
    match (off - 0x40) % 16 / 4 with
    | 0 => 0xF81F00FF#32
    | 1 => 0
    | _ => 0xFFFFFFFF#32
  else if 0x140 ≤ off ∧ off < 0x240 then
    match (off - 0x140) % 32 / 4 with
    | 0 => 0xF80000FF#32
    | 2 | 3 | 4 | 5 => 0xFFFFFFFF#32
    | _ => 0
  else if 0x240 ≤ off ∧ off < 0x2C0 then
    match (off - 0x240) % 32 / 4 with
    | 0 => 0xE00000FF#32
    | 2 | 3 | 4 | 5 => 0xFFFFFFFF#32
    | _ => 0
  else 0

def Leaf.writeTrf (l : Leaf) (k : Nat) (w : W32) : Leaf := l.trfWrite k (w &&& trfMask (k % 0x1000))

def Leaf.writeKst (l : Leaf) (k : Nat) (w : W32) : Leaf :=
  if k = R.KST_CTL then l.kstCtl w
  else if k = R.KST_RPL then l.replayWrite w
  else if k = R.KST_CMD then l.kstCmd w
  else if R.KST_ENG_CFG ≤ k ∧ k < R.KST_ENG_CFG + 512 ∧ (k - R.KST_ENG_CFG) % 8 = 0 then l.engCfgWrite ((k - R.KST_ENG_CFG) / 8) w
  else l.blk (fun u => u.writePlain k w)

def Leaf.writeDmp (l : Leaf) (k : Nat) (w : W32) : Leaf :=
  if k = R.DMP_CMD then l.dmpCmd w
  else if k = R.DMP_DVAL then l.dvalWrite w
  else l.blk (fun u => u.writePlain k w)

/-- A write of `SNG.CTL`: while the state is copying, rsz and slot stay and the write sets the page's cause (R143); a fall of en tears the
snapshot (R150). -/
def Leaf.sngCtl (l : Leaf) (w : W32) : Leaf :=
  let copying := l.sng.state = .copying
  let fixed : W32 := 0x4000001F#32
  let old := l.u.reg R.SNG_CTL
  let l := l.sngLocked
  let w := if copying then (w &&& ~~~fixed) ||| (old &&& fixed) else w
  let l := if !bit w 31 && bit old 31 then l.guardDisable else l
  l.blk (fun u => u.writePlain R.SNG_CTL w)

def Leaf.writeSng (l : Leaf) (k : Nat) (w : W32) : Leaf :=
  if k = R.SNG_CTL then l.sngCtl w
  else if k = R.SNG_NREG ∨ k = R.SNG_BASE_L ∨ k = R.SNG_BASE_H then
    if l.sng.state = .copying then l.blk (fun u => u.cause 0x0D 0 2) else l.blk (fun u => u.writePlain k w)
  else if k = R.SNG_CMD then
    let l := if bit w 1 then l.snapAbort else l
    if bit w 0 then l.arm none else l
  else l.blk (fun u => u.writePlain k w)

def Leaf.writeHev (l : Leaf) (k : Nat) (w : W32) : Leaf :=
  if k = R.HEV_CTL then l.hevCtl w
  else if k = R.HEV_STS then l.hevSts w
  else if k = R.HEV_BASE_L then l.hevAddrWrite k (w &&& 0xFFFFF000#32)
  else if k = R.HEV_WB_L then l.hevAddrWrite k (w &&& 0xFFFFFFFC#32)
  else if k = R.HEV_BASE_H ∨ k = R.HEV_WB_H then l.hevAddrWrite k w
  else if k = R.HEV_CI then l.hevCi w
  else l

def Leaf.writeAstb (l : Leaf) (k : Nat) (w : W32) : Leaf :=
  if k = R.ASTB_CTL then
    let l := l.blk (fun u => u.writePlain k w)
    if bit w 1 then l.astbSwap else l
  else if 0x18040 ≤ k ∧ k < 0x18240 then l.astbWrite ((k - 0x18040) / 8) (decide ((k - 0x18040) % 8 = 4)) w
  else l

def Leaf.writeSel (l : Leaf) (k : Nat) (w : W32) : Leaf :=
  if k = R.SEL_IDX then (if bit w 13 then l else l.blk (fun u => u.setReg k (w &&& 0x5FFF#32)))
  else if k = R.SEL_ENT then l.selEnt w
  else if k = R.SEL_LEN then l.selLen 0 (fld w 0 14)
  else if k = R.SEL_LEN + 4 then l.selLen 1 (fld w 0 14)
  else if k = R.SEL_SWAP then l.selSwapWrite w
  else l

/-- REPORT_REQUEST at the leaf: the report goes to host memory at `RPTADDR`, and `rdy` is set (R404). -/
def Leaf.report (l : Leaf) : Leaf :=
  l.blk (fun u =>
    let r := u.attestation (u.regBytes R.IDN_NONCE 8)
    let u := (u.hostWrite u.rptAddr r).freshen
    { u with idn := { u.idn with rdy := true } })

/-- CONFIGURATION_APPLY and INSTALL_CERTS at the leaf read host memory at `CFGADDR` (R397, R401). -/
def Leaf.cfgApply (l : Leaf) (v : SigVerdict) (flashOk : Bool) : Leaf :=
  l.blk (fun u => u.cfgApply (u.hostRead u.cfgAddr u.cfgLen) v flashOk)
def Leaf.installCerts (l : Leaf) (verdict : Nat) (flashOk : Bool) : Leaf :=
  l.blk (fun u => u.installCerts (u.hostRead u.cfgAddr u.cfgLen) verdict flashOk)

/-- A write of `IDN.CMD`. -/
def Leaf.idnCmd (l : Leaf) (w : W32) (e : PortEnv) : Leaf :=
  let l := if bit w 0 then l.blk Blk.enroll else l
  let l := if bit w 1 then l.cfgApply e.sig e.flashOk else l
  let l := if bit w 2 then l.report else l
  if bit w 3 then l.installCerts e.chain.toNat e.flashOk else l

/-- A register of a page is written beyond the arming sequence (R390). -/
def Leaf.pageWritten (l : Leaf) (p : Nat) : Leaf := l.blk (fun u => u.pageWritten p 0)

/-- A write beyond the header of a page. -/
def Leaf.writePage (l : Leaf) (k : Nat) (w : W32) (e : PortEnv) : Leaf :=
  let p := k / 0x1000
  if p = 0x02 then l.writeStep k w
  else if k = R.SMP_CTL then
    let l := l.blk (fun u => u.writePlain k w)
    if bit w 1 then l.calibrate else l
  else if p = 0x04 then l.writeCnt k w
  else if p = 0x05 then
    if 0x5040 ≤ k ∧ k < 0x5440 ∧ (k - 0x5040) % 16 = 0 then l.windowCfg ((k - 0x5040) / 16) w else l
  else if p = 0x06 then l.writeTrc k w
  else if p = 0x07 then l.writeTrf k w
  else if p = 0x0B then l.writeKst k w
  else if p = 0x0C then l.writeDmp k w
  else if p = 0x0D then l.writeSng k w
  else if k = R.CMP_CMD then l.cmpCmd w e.produced.toNat
  else if k = R.CMP_STS then l.cmpSts w
  else if p = 0x16 then l.writeHev k w
  else if p = 0x18 then l.writeAstb k w
  else if p = 0x19 then l.writeSel k w
  else if k = R.BLK_RST then l.rstWrite w
  else if k = R.IDN_CMD then l.idnCmd w e
  else if k = R.PWR_LEVELS then
    let l := l.blk (fun u => u.levelsWrite w)
    l.supply l.u.pw.code e.flashOk
  else if R.SCH_QLIM ≤ k ∧ k < R.SCH_QLIM + 32 then (l.blk (fun u => u.portWrite k w e)).dumpRoom
  else l.blk (fun u => u.portWrite k w e)

/-- An injection that fires in the cycle of arming acts: the parity of the counter in `IADDR_L` [12:0] is inverted (R388). -/
def Leaf.injectNow (l : Leaf) (bits : List Nat) : Leaf :=
  if bits.contains 3 then
    let n := l.u.rf R.ERR_IADDR_L 0 13
    { l with ctr := { l.ctr with parity := smSet l.ctr.parity n (!smGet l.ctr.parity n false) false } }
  else l

/-- A write of a header register (R441 to R443). -/
def Leaf.writeHead (l : Leaf) (p off : Nat) (w : W32) : Leaf :=
  let r := l.u.headWrite p 0 off w
  ({ l with u := r.1 }).injectNow r.2

/-- A write through the register port at byte address `k` (R414), in a cycle of its own. -/
def Leaf.writeAt (l : Leaf) (k : Nat) (w : W32) (priv : Bool) (e : PortEnv) : Leaf :=
  if 0x1A000 ≤ k then l.regErr
  else if needsPriv k && !priv then l.unprivileged
  else if k % 0x1000 < 0x40 then l.writeHead (k / 0x1000) (k % 0x1000) w
  else (l.pageWritten (k / 0x1000)).writePage k w e

/-- A write through the register port: one that meets hardware updates of its cycle loses to them, field by field (R446). -/
def Leaf.write (l : Leaf) (k : Nat) (w : W32) (priv : Bool) (e : PortEnv) : Leaf :=
  let r := l.writeAt k w priv e
  if e.same then r.blk (fun u => u.keepHardware l.u k) else r

/-- A read as a command: the value read leaves the port. A read in the cycle of hardware updates answers the value from before them, and clears none
of what they have set (R13, R446). -/
def Leaf.readOut (l : Leaf) (k : Nat) (priv same : Bool) : Leaf :=
  let r := l.read k priv
  if same then
    let old := (l.blk Blk.beforeCycle).read k priv
    r.1.blk (fun u => (u.keepHardware l.u k).emit (.read k (old.2.setWidth 64)))
  else r.1.blk (fun u => u.emit (.read k (r.2.setWidth 64)))

end Sys2Proof.Machine
end

