-- ==== Sys2Proof/Machine/TrayLink.lean ====
section
/-!
DEFINITION. The tray build's links: children lost and admitted, link timers, and stored leaf dumps (spec/17_power_reset_hotplug.md, R365, R366, R376 to
R381; spec/19_identity_protection.md, R405 to R407; spec/01_pod_role.md, R17; spec/06_kiln_sitter_dump.md, R137).
-/

namespace Sys2Proof.Machine

def rkChildAdmitted : RecKind := rk 0x10 0x0008 1 .bySeverity
def rkChildLost : RecKind := rk 0x10 0x0009 3 .always
def rkHelloRefused : RecKind := rk 0x10 0x000A 1 .bySeverity
def rkStageC : RecKind := rk 0x14 0x0005 1 .bySeverity

/-! ### After a port or a link moved on -/

/-- PFREEs whose last harvest is acknowledged end (R242). -/
def Tray.freeAll (t : Tray) : Tray := (t.psets.map (·.1)).foldl (fun (v : Tray) p => v.freeCheck p) t

/-- What messages that left a port or were released let go on: relayed harvests, MSENDs, PFREEs and teardowns. -/
def Tray.afterPort (t : Tray) : Tray := t.relayGone.msendCheck.freeAll.teardownCheck

/-! ### Adoption rings (R379, R380) -/

/-- The rings with adopt set that bind a source: a leaf (kind 0) or a child (kind 1). -/
def Tray.adoptRings (t : Tray) (kind : Nat) (bound : W32) : List Nat :=
  (List.range 2048).filter (fun r => t.qb (2048 + r) 7 && decide (t.qf (2048 + r) 30 1 = kind) && decide ((t.ring r).bound = bound))

/-- Adoption rings are enabled or disabled by the T build itself in one cycle, which changes the configuration of their pages (R445). -/
def Tray.setAdopt (t : Tray) (on : Bool) (rs : List Nat) : Tray :=
  let ch := rs.filter (fun r => t.qb (2048 + r) 31 ≠ on)
  let t := ch.foldl (fun (v : Tray) r => v.ringCfg r (setBit (v.u.reg (qcfgKey (2048 + r))) 31 on)) t
  ((ch.map (fun r => (2048 + r) / 128)).dedup).foldl (fun (v : Tray) k => v.blk (fun u => u.bumpSeq 0x2D k)) t

/-- What a child's rings bind: the leaf number of a leaf, the child number of a T build. -/
def Tray.childSrc (t : Tray) (link : Nat) : Nat × W32 :=
  let e := t.u.treeAt link
  if bit e.attr 29 then (0, e.node) else (1, BitVec.ofNat 32 (link - 2))

/-! ### Losing a link (R166, R346, R376, R381) -/

/-- What waits for the parent goes to the alternate parent: retained messages, what is committed and not sent, and MSENDs that wait for release. -/
def Tray.moveLink (t : Tray) (a b : Nat) : Tray :=
  let u := t.u
  let here := fun (m : Msg) => m.kind ≠ 0 && decide (m.link = a)
  let old := u.port (u.linkPort a)
  let moved := (List.range 8).map (fun q => ((old.queue q ++ old.wait q).filter (fun m => here m && !(m.kind == 4 && m.lseq.isSome))).map
    (fun m => { m with link := b }))
  let kept := (u.link a).retained.map (fun (m : Msg) => { m with link := b })
  let u := u.modPort (u.linkPort a) (fun x => { x with
    queues := smMap (fun (l : List Msg) => l.filter (fun m => !here m)) x.queues,
    waiting := smMap (fun (l : List Msg) => l.filter (fun m => !here m)) x.waiting })
  let u := u.modLink a (fun l => { l with retained := [] })
  let u := u.modLink b (fun l => { l with retained := renumber 0 kept, sendSeq := if kept.isEmpty then [] else [(1, BitVec.ofNat 32 kept.length)],
                                          restartDue := if kept.isEmpty then 0xFF else 0xFD#8, acked := none, down := !kept.isEmpty,
                                          downAt := u.clk.ival, restartAt := u.clk.ival, resends := 0 })
  let u := u.requeue b ((u.link b).retained.take 1)
  let u := (List.range 8).foldl (fun (v : Blk) q =>
    (v.modPort (v.linkPort b) (fun x => x.setWait q (x.wait q ++ moved.getD q []))).promote (v.linkPort b) q) u
  { t with u := u, flights := smMap (fun (f : Flight) => if cOp f.body = 0x50 && f.aux = a then { f with aux := b } else f) t.flights }

/-- A link of the T build is declared down: a child is lost, and its adoption rings are disabled; a parent that is lost gives way to the alternate, and the
harvest credit is zero. -/
def Tray.linkLost (t : Tray) (link : Nat) : Tray :=
  let adopted := (t.u.link link).adopted
  let t := t.blk (fun u => u.linkDown link)
  if 2 ≤ link then
    let t := t.blk (fun u => u.report rkChildLost .dflt (pay [fd 0x24 4 (u.treeAt link).node.toNat]))
    if adopted then
      let s := t.childSrc link
      t.setAdopt false (t.adoptRings s.1 s.2)
    else t
  else
    let t := t.relayZero
    if link = 0 && !t.u.rb R.LNK_CTL 30 && bit (t.u.treeAt 1).attr 31 then (t.moveLink 0 1).blk Blk.toAlternate else t

/-- A write of `LNK.CTL` of the T build: alt changes which parent its messages go to. -/
def Tray.lnkCtl (t : Tray) (w : W32) : Tray :=
  let old := t.u.parentLink
  let t := if bit w 30 = t.u.rb R.LNK_CTL 30 then t else t.moveLink old (1 - old)
  t.blk (fun u => u.lnkCtl w)

/-- PACKET_SENT at a port of the T build: a port whose link is down starts nothing. -/
def Tray.packetSent (t : Tray) (p : Nat) : Tray :=
  let t := t.blk (fun u => if u.portDown p then u.finishMsg p else u.packetSent p)
  let used := (t.u.links.map (·.1)).filter (fun l => t.u.linkPort l = p && t.u.usedUp l)
  (used.foldl (fun (v : Tray) l => v.linkLost l) t).afterPort

/-- LINK_ACKNOWLEDGEMENT at the T build. -/
def Tray.linkAck (t : Tray) (link : Nat) (lseq : W32) : Tray := (t.blk (fun u => u.linkAck link lseq)).afterPort

/-- ACK_TIMEOUT of a link of the T build. -/
def Tray.ackTimeout (t : Tray) (link : Nat) : Tray :=
  let r := t.u.ackTimeout link
  let t := { t with u := r.1 }
  if r.2 then t.linkLost link else t

/-! ### The admission stages (R365) -/

/-- The known children: native entries of the tree table that are valid. -/
def Tray.known (t : Tray) : List Nat := (t.u.tree.filter (fun e => 2 ≤ e.1 && bit e.2.attr 31 && bit e.2.attr 30)).map (·.1)

/-- Children admitted and not lost, native or adopted. -/
def Tray.kids (t : Tray) (adopted : Bool) : List Nat :=
  (t.u.links.filter (fun e => 2 ≤ e.1 && e.1 ≠ 255 && e.2.admitted && !e.2.down && e.2.adopted == adopted)).map (·.1)

/-- Stage C begins. -/
def Tray.enterC (t : Tray) : Tray :=
  let ms := t.u.ladderMs
  let t := t.blk (fun u => ({ u with pw := { u.pw with stage := .c } }).setN R.PWR_STAGEC ms)
  t.blk (fun u => u.report rkStageC .dflt
    (pay [fd 0x24 4 ms, fd 0x28 2 ((t.kids false).length + (t.kids true).length), fd 0x2A 2 t.known.length]))

/-- Stage C begins as soon as every known child is admitted; with an empty tree table it waits for its time. -/
def Tray.stageCheck (t : Tray) : Tray :=
  if t.u.pw.stage = .b && !t.known.isEmpty && t.known.all (fun l => (t.u.link l).admitted) then t.enterC else t

/-! ### Hellos (R17, R366, R378, R380, R405 to R407) -/

/-- The node that a hello names, and whether it is a T build's. -/
def helloNode (body : List Byte) : W32 := bv (numAt body 8 4)
def helloTray (body : List Byte) : Bool := Nat.testBit (numAt body 5 1) 1

/-- The tree-table entry of a hello's sender. -/
def Tray.helloEntry (t : Tray) (body : List Byte) : Option Nat :=
  (t.u.tree.find? (fun e => 2 ≤ e.1 && bit e.2.attr 31 && decide (e.2.node = helloNode body) && bit e.2.attr 29 == !helloTray body)).map (·.1)

/-- How a hello's sender is known: its link and whether it comes as an adopted child; a leaf that only adoption rings bind has link none. -/
def Tray.helloKnown (t : Tray) (body : List Byte) : Option (Option Nat × Bool) :=
  match t.helloEntry body with
  | some l =>
    if bit (t.u.treeAt l).attr 30 then some (some l, false)
    else
      let s := t.childSrc l
      if (t.adoptRings s.1 s.2).isEmpty then none else some (some l, true)
  | none => if helloTray body || (t.adoptRings 0 (helloNode body)).isEmpty then none else some (none, true)

/-- The children that a role takes (R17): native and adopted leaves count apart at level 1. DESIGN CHOICE (log entry 97): role 0, which the spec gives no
limit, takes none, so every hello is refused with child limit until a role is configured. -/
def Tray.childLimit (t : Tray) : Nat := [0, 96, 64, 32].getD t.u.idn.role 0

/-- One more child fits. -/
def Tray.childFits (t : Tray) (link : Option Nat) (adopted : Bool) : Bool :=
  let others := fun (a : Bool) => ((t.kids a).filter (fun l => some l ≠ link)).length
  if t.u.idn.role = 1 then decide (others adopted < t.childLimit) else decide (others true + others false < t.childLimit)

/-- The link that stands for a sender the tree table does not name. -/
def strangerLink : Nat := 255

/-- A hello is refused with a reason and a detail (R366, R405): the refusal is sent once. -/
def Tray.helloRefuse (t : Tray) (p : Packet) (link : Option Nat) (reason detail : Nat) : Tray :=
  let node := helloNode p.body
  t.blk (fun u =>
    let u := (u.bump R.PWR_HREF).report rkHelloRefused .dflt (pay [fd 0x24 4 node.toNat, fd 0x28 1 reason])
    let u := if reason = 4 then u.handshakeFailed node detail else u
    u.enqueue p.port.toNat 1 { mkMsg 4 (link.getD strangerLink) (ctlBody 8 (layout 8 [fd 0 1 2, fd 4 1 reason, fd 5 1 detail])) with
      isAck := true, lseq := some 0, restart := true, dest := some p.src })

/-- The detail that the identity in a hello is refused with; 0 admits. Detail 3 refuses only under policy bit 0. -/
def Tray.helloDetail (t : Tray) (p : Packet) : Nat :=
  let d := p.verdict.toNat
  let d := if d = 3 && !bit t.u.idn.policy 0 then 0 else d
  if d = 0 && Nat.testBit (numAt p.body 5 1) 0 && !bit t.u.idn.policy 1 then 4 else d

/-- What the T build kept of a child's numbering starts afresh: no gap is counted for its next frames or harvests (R378). -/
def Tray.childFresh (t : Tray) (kind : Nat) (bound : W32) : Tray :=
  let rs := (t.rings.map (·.1)).filter (fun r => decide (t.qf (2048 + r) 30 1 = kind) && decide ((t.ring r).bound = bound))
  let t := rs.foldl (fun (v : Tray) r => v.setRing r { v.ring r with lastSeq := none, gone := [], hseqs := [] }) t
  { t with psets := smMap (fun (s : Pset) =>
      match (if kind = 0 then pMemberOf s.desc bound else none) with
      | some m => { s with members := smMod s.members m (fun (x : Member) => { x with lastSeq := none }) }
      | none => s) t.psets }

/-- The health units that have the leaf as a member query its containment state before they evaluate it (R295, R378). -/
def Tray.queryLeaf (t : Tray) (leaf : W32) : Tray :=
  (List.range 64).foldl (fun (v : Tray) s =>
    match v.hmember s leaf with
    | some m => if v.hon s then (v.setDie s m { v.die s m with known := false }).queryDie s m else v
    | none => v) t

/-- The accept is sent, and the new keys are current: retained messages are numbered afresh behind it (R406, R407). -/
def Tray.sendAccept (t : Tray) (link : Nat) (epoch : Byte) (node : W32) (adopted : Bool) : Tray :=
  t.blk (fun u =>
    let was := (u.link link).down
    let acc := { mkMsg 4 link (ctlBody 8 (u.helloRest 1 epoch)) with commitAt := u.clk.ival, sentAt := u.clk.ival }
    let u := u.freshen.modLink link (fun l =>
      let ms := renumber 0 (acc :: l.retained.filter (fun (m : Msg) => !m.bootstrap))
      { l.newEpoch epoch with retained := ms, sendSeq := smPut l.sendSeq 1 (BitVec.ofNat 32 ms.length), restartDue := setBit l.restartDue 1 false,
                              acked := none, resends := 0, keepAt := u.clk.ival, node := node, adopted := adopted })
    if was then u.linkUp link else u.requeue link (u.link link).retained)

/-- A child that is admitted again gets what it has not acknowledged: pod-wide commits, and starts with their parts (R226, R342). -/
def Tray.resendOutcomes (t : Tray) (link : Nat) : Tray :=
  let t := t.txReplay link
  t.nodes.foldl (fun (v : Tray) n =>
    if n.start && n.unacked.contains link then
      let v := match v.startDesc n.job n.txid with | some x => v.sendParts x link true | none => v
      v.sendTx link { TxMsg.plain 2 n.job n.txid with flags := 1 }
    else v) t

/-- The entry, from 256 up, that an adopted leaf gets where the tree table does not name it. -/
def Tray.strayEntry (t : Tray) (p : Packet) (link : Option Nat) : Tray × Nat :=
  let i := link.getD (256 + ((t.u.tree.map (·.1)).filter (fun i => 256 ≤ i)).length)
  if i < 256 then (t, i)
  else (t.blk (fun u => { u with tree := smPut u.tree i ⟨helloNode p.body, BitVec.ofNat 32 (5 * 2 ^ 29 + p.port.toNat), p.src⟩ }), i)

/-- The rings of an adopted child are enabled, and each slot has a credit message at level `DEC_MIN` (R380): one that an attach from the start cache goes
before is sent with it, the others grant the places that are free. -/
def Tray.adopt (t : Tray) (link : Nat) : Tray :=
  let s := t.childSrc link
  let rs := t.adoptRings s.1 s.2
  let t := t.setAdopt true rs
  if s.1 ≠ 0 then t
  else
    let was := rs.map (fun r => (r, (t.ring r).slot))
    let t := rs.foldl (fun (v : Tray) r => v.setRing r { v.ring r with slot := none }) t
    was.foldl (fun (v : Tray) e =>
      if (v.ring e.1).slot.isSome then v
      else (v.setRing e.1 { v.ring e.1 with slot := e.2, freed := 0, level := v.u.rf (inst R.ING_DEC_MIN (e.2.getD 0)) 0 2 }).sendCredit e.1
        (v.ringPlaces e.1 - v.ringFill e.1)) (t.adoptLeaf s.2)

/-- A hello is admitted: its lseq is the base of its sender's control queue (R164). -/
def Tray.helloAdmit (t : Tray) (p : Packet) (link : Option Nat) (adopted : Bool) : Tray :=
  let r := t.strayEntry p link
  let t := r.1
  let l := r.2
  let s := t.childSrc l
  let returning := decide ((t.u.link l).epoch ≠ 0) ||
    (t.rings.map (·.1)).any (fun r => t.qb (2048 + r) 31 && decide (t.qf (2048 + r) 30 1 = s.1) && decide ((t.ring r).bound = s.2))
  let t := t.blk (fun u => { u with pw := { u.pw with tokens := smUpd u.pw.tokens p.port.toNat 0 (· + 1) } })
  let t := if p.verdict = 3 then t.blk (fun u => { u with idn := { u.idn with unverified := true } }) else t
  let t := t.blk (fun u => u.modLink l (fun x => { x with base := smPut x.base 1 p.lseq }))
  let t := t.sendAccept l (bv (numAt p.body 7 1)) (helloNode p.body) adopted
  let t := t.childFresh s.1 s.2
  let t := if adopted then t.adopt l else t
  let t := if s.1 = 0 then t.queryLeaf s.2 else t.resendOutcomes l
  let t := t.blk (fun u => u.report rkChildAdmitted .dflt
    (pay [fd 0x24 4 (helloNode p.body).toNat, fd 0x28 1 (adopted.toNat + 2 * returning.toNat)]))
  t.stageCheck

/-- HELLO (R365, R366): dropped in stage A, else judged by name, limit, rate and identity. -/
def Tray.hello (t : Tray) (p : Packet) : Tray :=
  match t.u.pw.stage with
  | .ladder => t
  | .a => t.blk (fun u => u.bump R.PWR_HDROP)
  | _ =>
    match t.helloKnown p.body with
    | none => t.helloRefuse p (t.helloEntry p.body) 3 0
    | some (link, adopted) =>
      if !t.childFits link adopted then t.helloRefuse p link 1 0
      else if max 1 (t.u.rf R.PWR_HRATE 0 8) ≤ smGet t.u.pw.tokens p.port.toNat 0 then t.helloRefuse p link 2 0
      else if t.helloDetail p ≠ 0 then t.helloRefuse p link 4 (t.helloDetail p)
      else t.helloAdmit p link adopted

/-- TOKEN_REFILL: a millisecond of TB1 starts, and every port's bucket is full (R366). `perMs` is the cycles of a millisecond. -/
def Tray.tokenRefill (t : Tray) (perMs : Nat) : Tray :=
  t.blk (fun u =>
    let u := u.toTb1 (u.pw.refillAt + BitVec.ofNat 64 perMs)
    let at0 := u.pw.refillAt
    { u with pw := { u.pw with tokens := [], refillAt := at0 + BitVec.ofNat 64 (perMs * ((u.clk.tb1 - at0).toNat / perMs)) } })

/-! ### Leaf dumps (R137, R180) -/

/-- The bytes of the dump area that dumps take: where each begins, where it ends, and whether it still grows. -/
def Tray.dumpSpans (t : Tray) : List (Nat × Nat × Bool) :=
  (t.dumps.filter (fun (d : LeafDump) => !d.refused)).map (fun d => (d.base, d.base + d.len, !d.stored))

/-- The end of the dump area. -/
def Tray.dmpEnd (t : Tray) : Nat := t.dmpBase + t.dmpLen

/-- The free bytes from an address of the dump area up to the next dump or the area's end. -/
def Tray.dumpGap (t : Tray) (a : Nat) : Nat :=
  ((t.dumpSpans.filter (fun e => a ≤ e.1)).foldl (fun n e => min n e.1) t.dmpEnd) - a

/-- Where a new dump is placed (DESIGN CHOICE, log 106): in the widest free part of the area, at its middle where an open dump grows in front of it. -/
def Tray.dumpPlace (t : Tray) : Nat :=
  let starts := (t.dmpBase, false) :: t.dumpSpans.map (·.2)
  let cand := starts.map (fun e => if e.2 then (e.1 + t.dumpGap e.1 / 2) else e.1)
  cand.foldl (fun best a => if t.dumpGap best < t.dumpGap a then a else best) t.dmpBase

/-- The dump of a leaf that is open. -/
def Tray.dumpOpen (t : Tray) (leaf : W32) : Option LeafDump := t.dumps.find? (fun (d : LeafDump) => d.leaf = leaf && !d.stored)

/-- An open dump of a leaf is replaced. -/
def Tray.setDump (t : Tray) (d : LeafDump) : Tray :=
  { t with dumps := t.dumps.filter (fun (x : LeafDump) => !(x.leaf = d.leaf && !x.stored)) ++ [d] }

/-- `n` bytes at an offset of an open dump lie in the dump area and meet no other dump. -/
def Tray.dumpFits (t : Tray) (d : LeafDump) (off n : Nat) : Bool :=
  let a := d.base + off
  decide (t.dmpBase ≤ a) && decide (a + n ≤ t.dmpEnd) &&
    (t.dumps.filter (fun (x : LeafDump) => !x.refused && (x.stored || x.leaf ≠ d.leaf))).all (fun (x : LeafDump) =>
      decide (x.base + x.len ≤ a) || decide (a + n ≤ x.base))

/-- A dump ends, and "leaf dump stored" is written: the spec gives the record no code. -/
def Tray.dumpEnd (t : Tray) (d : LeafDump) : Tray :=
  let whole := match d.last with | some n => (List.range (n + 1)).all (fun i => d.segs.contains i) | none => false
  (t.setDump { d with stored := true }).blk (fun u =>
    u.reportOpen 0x0C 1 .dflt [d.leaf.toNat, d.dumpid.toNat, d.base, d.len, d.last.isSome.toNat, whole.toNat])

/-- A segment of another dump of the leaf ends an open one: without a trailer, or, if it was refused, without a record. -/
def Tray.dumpSupersede (t : Tray) (leaf id : W32) : Tray :=
  match t.dumpOpen leaf with
  | none => t
  | some d =>
    if d.dumpid = id then t
    else if d.refused then { t with dumps := t.dumps.filter (fun (x : LeafDump) => !(x.leaf = leaf && !x.stored)) }
    else t.dumpEnd d

/-- DUMP_SEGMENT_RECEIVE: a segment of a leaf's dump is written at its offset (R180). A dump that the area has no room for is refused in the control
class (R137). -/
def Tray.dumpSegment (t : Tray) (link : Nat) (leaf : W32) (b : List Byte) : Tray :=
  let id : W32 := bv (numAt b 4 4)
  let off := numAt b 8 4
  let part := b.drop 16
  let t := t.dumpSupersede leaf id
  let d := (t.dumpOpen leaf).getD ⟨leaf, id, t.dumpPlace, 0, [], none, false, false⟩
  if numAt b 2 2 ≠ part.length || part.isEmpty || d.refused then t
  else if !t.dumpFits d off part.length then
    (t.setDump { d with refused := true }).blk (fun u => u.sendCtl link 4 (leBytes 4 id.toNat))
  else
    let seg := numAt b 0xC 4
    let d := { d with segs := d.segs ++ [seg], len := max d.len (off + part.length),
                      last := if Nat.testBit (numAt b 1 1) 6 then some seg else d.last }
    let t := (t.lpWrite (d.base + off) part).setDump d
    if d.last.isSome then t.dumpEnd d else t

end Sys2Proof.Machine
end

