-- ==== Sys2Proof/Machine/TrayReset.lean ====
section
/-!
DEFINITION. Resets of the tray build, its ladder, supply, temperature, Ethernet ports and PCI Express (spec/17_power_reset_hotplug.md, R365, R369 to R375;
spec/20_integration_ports.md, R435; spec/08_frames_links_scheduling.md, R181, R182; spec/09_tray_architecture.md, R187, R203).
-/

namespace Sys2Proof.Machine

/-! ### Resets -/

/-- COLD_RESET of the T build (R373): everything takes its reset value; the flash and what stands in host memory stay. After a thermal trip only
power-on (source bit 0) ends `THERMTRIP_N` low (R435). Every record goes to event queue 0 until software routes it elsewhere: it has its recovery
marker at once (R315). -/
def Tray.coldReset (t : Tray) (source : Nat) : Tray :=
  let trip := t.u.pw.thermtrip && !Nat.testBit source 0
  let u := t.u.cold source
  let u := { u with pw := { u.pw with thermtrip := trip } }
  let u := if t.u.pw.thermtrip && !trip then u.emit (.pin .thermtripN 0 1) else u
  let u := if t.u.clk.ppsOut then u.emit (.pin .ppsOut 0 0) else u
  ({ Tray.reset with u := u }).markNew 0

/-- Rings through a warm reset: configuration, binding and the count of frames written stay, the rings are empty (R15, R375). -/
def IRing.warm (x : IRing) : IRing := { IRing.reset with bound := x.bound, written := x.written }

/-- An open census fails with reason 5; the retained census stays (R358, R375). -/
def JSlot.warm (j : JSlot) : JSlot :=
  { j with census := j.census.map (fun c => if c.complete || c.failed.isSome then c else { c with failed := some 5 }) }

/-- A start cache entry through a warm reset: the broadcast it came from is no longer in flight. -/
def Desc.warm (x : Desc) : Desc :=
  { x with queue := none, hops := [], leaves := [], deferred := if x.kind = 1 then x.deferred else [], relAt := none }

/-- WARM_RESET of the T build (R373, R375): it is held until its cause is released. -/
def Tray.warmReset (t : Tray) (source : Nat) : Tray :=
  let t := t.accrueAll.drain
  let t := (t.evqs.filter (fun e => e.2.marked)).foldl (fun (v : Tray) e => v.markWarm e.1) t
  let u := t.u.warm source
  let u := (List.range 64).foldl (fun (v : Blk) s => v.setRb (inst R.HLT_SCFG s) 31 false) u
  { t with
    u := u,
    tier := { t.tier with slice := [], brine := [], bad := t.tier.bad.filter (fun e => e.1 < 2 ^ 40), used := [] },
    rings := smMap IRing.warm t.rings,
    asm := [],
    dists := smMap (fun (d : Dist) => { Dist.reset with flits := d.flits }) t.dists,
    cores := [], transit := [], dataWay := [], mct := t.mct.filter (fun e => e.2.model), thieves := [], credSince := none, credCounted := 0,
    queues := smMap (fun (c : CmdQ) => { CmdQ.reset with stopped := c.stopped, full := c.full, last := c.last, done := c.done }) t.queues,
    served := [], flights := [], txs := [], nodes := [], copies := [], due := [],
    models := smMap (fun (m : Model) => { m with unloading := none }) t.models,
    scores := [], partials := [], gNoted := false, batches := [], spans := [],
    psets := [], staged := [], relay := 0, relayRem := 0,
    thr := { Throttle.reset with total := t.thr.total },
    hlt := smMap HSlot.kept t.hlt,
    job := smMap JSlot.warm t.job,
    descs := (t.descs.filter Desc.complete).map Desc.warm }

/-- A write of `BLK.RST` (R372): kind 3 is reserved in the T build. -/
def Tray.rstWrite (t : Tray) (w : W32) : Tray :=
  match rstKind .tray w with
  | some .cold => t.coldReset 8
  | some .warm => t.warmReset 8
  | _ => t

/-! ### The ladder (R365) -/

/-- The self-test's result: the failing physical places of each router group that has any (R187), and the LPDDR5X channels that failed training, each
reported as an uncorrectable error of space 0 (R432). -/
def Tray.selfTest (t : Tray) (fails : SMap Nat) (chans : Byte) : Tray :=
  let t := { t with tier := { t.tier with groups := fails.filter (fun e => e.1 < 5120 && e.2 ≠ 0), chans := chans } }
  let t := ((List.range 8).filter (fun i => bit chans i)).foldl (fun (v : Tray) i =>
    v.blk (fun u => u.report rkUncorrectable .dflt (pay [fd 0x24 1 0, fd 0x28 8 i]))) t
  (t.tier.groups.filter (fun e => groupOff e.2)).foldl (fun (v : Tray) e =>
    v.blk (fun u => (u.cause 0x28 0 1).reportOpen 0x28 2 .dflt [e.1])) t

/-- LADDER_STEP_END at the T build: 0 is reset release and clock lock, 1 self-test and memory tier, 2 the PUF step; then come stages A, B and C, none before
its time. In stage A packages are restored (R257); the T build's own hello goes out from stage B on. -/
def Tray.ladderStep (t : Tray) (flashOk crcOk : Bool) (fails : SMap Nat) (chans : Byte) : Tray :=
  let next := fun (v : Tray) (n : Nat) => v.blk (fun u => { u with pw := { u.pw with step := n } })
  let atMs := fun (v : Tray) (ms : Nat) => v.blk (fun u => u.toIv (u.pw.ladderAt + msIv ms))
  let stage := fun (v : Tray) (s : Stage) => v.blk (fun u => { u with pw := { u.pw with stage := s } })
  if t.u.pw.stuck then t
  else match t.u.pw.step with
    | 0 => next t 1
    | 1 => next (t.selfTest fails chans) 2
    | 2 => ((stage (atMs (next (t.blk (fun u => u.pufStep flashOk crcOk)) 3) 60) .a)).restoreModels
    | 3 => ((stage (atMs (next t 4) 200) .b).blk Blk.helloCheck).stageCheck
    | 4 => if t.u.pw.stage = .b then (atMs (next t 5) 900).enterC else next t 5
    | _ => t

/-- "ladder step overran". -/
def rkOverran : RecKind := rk 0x14 0x0004 4 .always

/-- The end times of the steps that can overrun, in milliseconds. -/
def stepEnds : List Nat := [5, 40, 60]

/-- LADDER_STEP_OVERRAN: a step has not ended by twice its end time, and the ladder holds. -/
def Tray.ladderOverran (t : Tray) : Tray :=
  match stepEnds[t.u.pw.step]? with
  | none => t
  | some e =>
    if t.u.pw.stuck then t
    else t.blk (fun u =>
      let u := u.toIv (u.pw.ladderAt + msIv (2 * e))
      let u := { u with pw := { u.pw with stuck := true } }
      (u.cause 0x14 0 2).report rkOverran .dflt (pay [fd 0x24 1 u.pw.step, fd 0x28 4 u.ladderMs]))

/-! ### Supply and temperature -/

/-- The T build's supply code, the lowest of its rails, takes a value (R369, R370). A code that comes in a held cold reset waits for its release. -/
def Tray.supply (t : Tray) (code rail : Nat) (took : Bool) : Tray :=
  if t.u.held = some .cold then t.blk (fun u => u.supplyInput code rail)
  else if t.u.atResetLevel code then (t.blk (fun u => u.supplyInput code rail)).coldReset 2
  else (t.blk (fun u => (u.supplyCode code rail took).idnResume)).holdIssue

/-- "thermal limit" (R435). -/
def rkThermal : RecKind := rk 0x14 0x0006 3 .always

/-- `PWR.TJHOT`: values above 105 act as 105. -/
def Tray.tjHot (t : Tray) : Nat := min 105 (t.u.rf R.PWR_TJHOT 0 8)

/-- TJ is judged by `TJHOT` (R435): the cap begins at it and ends 3 °C below it. The first crossing sets the cause and writes the record; a later one repeats
that record. -/
def Tray.thermJudge (t : Tray) : Tray :=
  let tj := t.u.pw.tj
  if t.tjHot ≤ tj then
    if t.u.pw.thermCap then t
    else
      let p := t.u.pw.thermRec.getD (pay [fd 0x24 1 tj, fd 0x28 1 t.u.pw.tjSensor])
      let first := t.u.pw.thermRec.isNone
      let t := (t.blk (fun u => { u with pw := { u.pw with thermCap := true, thermRec := some p } })).holdIssue
      t.blk (fun u => (if first then u.cause 0x14 0 5 else u).report rkThermal .dflt p)
  else if tj + 3 < t.tjHot then t.blk (fun u => { u with pw := { u.pw with thermCap := false } })
  else t

/-- TJ takes a value, read by a sensor (R435): the thermal limit begins or ends, or the package trips. A reading that comes while a cold reset is held
waits for its release, but for the trip. -/
def Tray.junction (t : Tray) (tj sensor : Nat) : Tray :=
  if t.u.held = some .cold then
    t.blk (fun u =>
      let v := { u with pw := { u.pw with tj := tj, tjSensor := sensor, thermtrip := u.pw.thermtrip || decide (115 ≤ tj) } }
      if v.pw.thermtrip && !u.pw.thermtrip then v.emit (.pin .thermtripN 0 0) else v)
  else
  let t := t.blk (fun u => ({ u with pw := { u.pw with tj := tj, tjSensor := sensor } }).peak R.PWR_TJPEAK tj)
  if 115 ≤ tj then (t.coldReset 0).blk (fun u => { u with pw := { u.pw with thermtrip := true } }.emit (.pin .thermtripN 0 0))
  else t.thermJudge

/-- RESET_RELEASE at the T build: time 0 of the ladder (R365, R374). A thermal trip holds the reset; the supply code and the
temperature are judged at once (R369, R435). -/
def Tray.release (t : Tray) (taHash : BitVec 384) (taValid : Bool) : Tray :=
  if t.u.held.isNone || t.u.pw.thermtrip || t.u.supplyHolds then t
  else
    let t := t.blk (fun u => u.release taHash taValid)
    (t.supply t.u.pw.code t.u.pw.rail false).thermJudge

/-! ### Ethernet ports (R181, R182) -/

def rkCodewords : RecKind := rk 0x2C 0x0001 2 .bySeverity
def rkPortLost : RecKind := rk 0x2C 0x0002 3 .always

/-- The links that a port reaches. -/
def Tray.linksAt (t : Tray) (p : Nat) : List Nat := (t.u.links.map (·.1)).filter (fun l => l ≠ strangerLink && t.u.linkPort l = p)

/-- Reassemblies that a link feeds: of the rings that bind it. -/
def Tray.asmOf (t : Tray) (link : Nat) : List Nat :=
  let s := t.childSrc link
  (t.asm.map (·.1)).filter (fun k =>
    if s.1 = 0 then k < 2048 && decide ((t.ring k).bound = s.2) else decide (2048 ≤ k ∧ (k - 2048) / 1024 = s.2.toNat))

/-- The link reset of a port: send numbering restarts on every queue of its links, and its reassembly is reset (R164, R182). -/
def Tray.portReset (t : Tray) (p : Nat) : Tray :=
  (t.linksAt p).foldl (fun (v : Tray) l =>
    let v := (v.asmOf l).foldl (fun (w : Tray) k => w.incomplete k (w.asmRing k)) v
    v.blk (fun u => u.linkReset l)) (t.relayZero.blk (fun u => u.disarmPage 0x2C p))

/-- ETHERNET_LINK_DOWN: a port's link drops, and what was on the port is cut: it is not counted as sent. -/
def Tray.etherDown (t : Tray) (p : Nat) : Tray :=
  if !(t.u.port p).linkUp then t
  else
    let t := if t.u.armed 0x2C p 0 then t.blk (fun u => u.fire 0x2C p 0 false) else t
    let t := t.blk (fun u =>
      let u := u.modPort p (fun x => { x with linkUp := false, anDone := false, trained := false, phy := 0, onPort := none })
      let u := ((u.bump (inst R.ETH_LINKDN p)).cause 0x2C p 0).report rkPortLost .dflt (pay [fd 0x24 1 p])
      u.setN R.BLK_RSTCAUSE (3 * 2 ^ 30 + 16))
    t.portReset p

/-- ETHERNET_LINK_UP: auto-negotiation and training have ended with a type that `ETHp.CTL` enables. -/
def Tray.etherUp (t : Tray) (p ty : Nat) : Tray :=
  let k := inst R.ETH_CTL p
  if t.u.rb k 31 && t.u.rb k ty then
    t.blk (fun u => u.modPort p (fun x => { x with linkUp := true, anDone := !u.rb k 30, trained := true, phy := BitVec.ofNat 4 (2 ^ ty) }))
  else t

/-! ### PCI Express (R372) -/

/-- LINK_RESET of the PCI Express port: the function's configuration space takes its reset state, the harvest credit is zero (R23, R373), and nothing is written to host memory until Bus
Master Enable is set again. -/
def Tray.pciReset (t : Tray) : Tray :=
  t.relayZero.blk (fun u => (({ u with pw := { u.pw with busMaster := false } }.bump R.PCI_LINKDN).disarmPage 0x29 0).setN R.BLK_RSTCAUSE (3 * 2 ^ 30 + 32))

/-- BUS_MASTER_ENABLE: what waits for host memory goes on: held interrupts, event records, harvests, and manifests and plans. -/
def Tray.busMaster (t : Tray) : Tray :=
  let t := t.blk (fun u => { u with pw := { u.pw with busMaster := true } })
  let t := t.blk (fun u => (List.range 64).foldl (fun (v : Blk) i => v.msixFree i) u)
  ((t.evqs.map (·.1)).foldl (fun (v : Tray) j => v.evServe j) t).censusBus

end Sys2Proof.Machine
end

