-- ==== Sys2Proof/Machine/TrayRecv.lean ====
section
/-!
DEFINITION. Packets that arrive at the tray build's Ethernet ports, and the control messages it acts on or relays (spec/08_frames_links_scheduling.md, R163
to R166, R181; spec/01_pod_role.md, R21; spec/17_power_reset_hotplug.md, R365; spec/18_errors_injection.md, R387).
-/

namespace Sys2Proof.Machine

/-- The link whose tree-table entry has a source address. -/
def Tray.linkOf (t : Tray) (src : W48) : Option Nat := (t.u.tree.find? (fun e => bit e.2.attr 31 && decide (e.2.mac = src))).map (·.1)

/-- A message for a leaf is relayed toward it (R21): to the leaf where it is a child, else down every child T build. -/
def Tray.relayDown (t : Tray) (leaf : W32) (code : Nat) (rest : List Byte) : Tray :=
  match t.leafLink leaf with
  | some l => t.blk (fun u => u.sendCtl l code rest)
  | none => t.down code rest

/-- A control message that the T build acts on, relays, or reports as unknown. `p` is the packet it came in. -/
def Tray.control (t : Tray) (link : Nat) (p : Packet) : Tray :=
  let body := p.body
  let code := ctlCode body
  let sub := ctlSub body
  let unknown := t.blk (fun u => u.unknownControl code)
  let fromParent := decide (link < 2)
  match code with
  | 1 => t.linkAck link (bv (numAt body 4 4))
  | 3 => if fromParent then t.noticeRelay body else unknown
  | 5 =>
    let m := CtnMsg.read body
    if fromParent && (sub = 0 || sub = 6) then t.relayDown m.leaf 5 (body.drop 4) else t.ctnMessage link m
  | 6 =>
    let m := StartMsg.read body
    if fromParent && (sub = 2 || sub = 4 || sub = 5) then t.relayDown m.leaf 6 (body.drop 4) else t.startMessage link m
  | 7 => t.refReceive body
  | 8 =>
    match sub with
    | 0 => t.hello p
    | 1 => if link = t.u.parentLink then t.blk (fun u => u.accept (bv (numAt body 7 1)) (bv (numAt body 8 4)) p.verdict.toNat) else t
    | 2 => if link = t.u.parentLink then t.blk Blk.helloRefused else t
    | 3 => if link = t.u.parentLink then t.blk (fun u => u.attestAnswer (bytesAt body 8 32)) else t
    | 4 => t
    | 5 => t
    | 6 => t
    | _ => unknown
  | 9 => t.txMessage link (TxMsg.read body)
  | _ => unknown

/-- CONTROL_RECEIVE at the T build: a control message is judged by its lseq, acknowledged, and acted on (R166). -/
def Tray.controlReceive (t : Tray) (link : Nat) (p : Packet) : Tray :=
  if !ctlLenOk p.body then t.blk (fun u => u.rxDiscard 2)
  else if ctlCode p.body = 1 then (t.blk (fun u => u.count R.LNK_RXFRM 1)).control link p
  else
    let r := t.u.rxCtlSeq link p.lseq p.restart
    let t := { t with u := r.1 }
    if r.2 then (t.blk (fun u => u.count R.LNK_RXFRM 1)).control link p else t

/-- A hello in the bootstrap epoch: its sender may be one that the tree table does not name. Its lseq is judged as that of any control message (R164,
R166): the restart flag, or one past the base that is held. -/
def Tray.helloPacket (t : Tray) (p : Packet) : Tray :=
  match t.u.pw.stage with
  | .ladder => t
  | .a => t.hello p
  | _ =>
    let ack := fun (v : Tray) (l : Nat) => v.blk (fun u => (u.count R.LNK_RXFRM 1).enqueue p.port.toNat 1
      { mkMsg 4 l (ctlBody 1 (leBytes 4 p.lseq.toNat)) with isAck := true, dest := some p.src })
    match (t.helloKnown p.body).bind (·.1) with
    | none => if p.restart then (ack t strangerLink).hello p else t
    | some l =>
      let base := smGet? (t.u.link l).base 1
      if p.restart || base = some (p.lseq - 1) then
        (ack (t.blk (fun u => u.modLink l (fun x => { x with base := smPut x.base 1 p.lseq }))) l).hello p
      else if base.any (fun b => !stepAfter p.lseq b) then t.blk (fun u => u.bump R.LNK_RXDUP)
      else t

/-- A segment that carries a fingerprint frame: such a frame fits in one segment, and its data begins with fmt 2 (R154). -/
def fprSegment (b : List Byte) : Bool := segOk b && decide (numAt b 1 1 = 1) && decide (numAt b 16 1 = 2)

/-- SEGMENT_RECEIVE: a frame segment of a leaf (R79, R179). A fingerprint frame goes to the census (R154), and a brine frame under assembly, which it
does not continue, is incomplete. -/
def Tray.segment (t : Tray) (leaf : W32) (b : List Byte) : Tray :=
  if fprSegment b then
    let t := match t.ringOf 0 (numAt b 0xC 1 % 2) leaf with | some r => t.incomplete r r | none => t
    t.fprFrame (b.drop 16)
  else t.brineSegment leaf b

/-- A message of a kind other than control goes where its kind belongs. -/
def Tray.deliver (t : Tray) (link : Nat) (p : Packet) : Tray :=
  let b := p.body
  let node := (t.u.treeAt link).node
  match p.kind.toNat with
  | 1 => t.segment node b
  | 2 => t.blk (fun u => u.carry 0x06 u.clk.ns p.port.toNat b)
  | 3 => t.dumpSegment link node b
  | 5 => if 2 ≤ link then t.harvestSegment (link - 2) b else t
  | 6 => t.bulk link b
  | 7 => t.notice link (Notice.read b)
  | _ => t

/-- A child's saggar frame before stage C is discarded, but for a hello or what attestation carries (R365). -/
def Tray.early (t : Tray) (link : Nat) (p : Packet) : Bool :=
  decide (2 ≤ link) && decide (t.u.pw.stage ≠ .c) && !(p.kind = 4 && ctlCode p.body = 8)

/-- A saggar frame from a link (R387). -/
def Tray.saggar (t : Tray) (link : Nat) (p : Packet) : Tray :=
  if t.early link p then t.blk (fun u => u.bump R.PWR_EARLY)
  else if p.epoch ≠ 0 && !(t.u.link link).admitted then t.blk (fun u => u.authFailed p.port.toNat p.ctr.toNat)
  else
    let r := t.u.rxEnvelope link p.port.toNat p
    let t := { t with u := r.1 }
    if !r.2 then t
    else if p.len.toNat ≠ p.body.length then t.blk (fun u => u.rxDiscard 2)
    else if kindQueue p.kind.toNat ≠ some p.queue then t.blk (fun u => u.rxDiscard 4)
    else if p.kind = 4 then t.controlReceive link p
    else
      let r := t.u.rxSeq link p.queue p.lseq p.restart
      let t := { t with u := r.1 }
      if r.2 then (t.blk (fun u => u.count R.LNK_RXFRM 1)).deliver link p else t

/-- `n` codewords of a port are uncorrectable: each is counted, raises the page's cause, and makes a record (R181, R182). -/
def Blk.codewords (u : Blk) (port n : Nat) : Blk :=
  (List.range n).foldl (fun (v : Blk) _ =>
    ((v.bump (inst R.ETH_FECUNC port)).cause 0x2C port 1).report rkCodewords .dflt (pay [fd 0x24 1 port])) u

/-- RECEIVE_PACKET at an Ethernet port (R181): the codewords corrected and found uncorrectable with the frame are counted, and a frame that an
uncorrectable one touches is discarded. An armed injection makes the next codeword uncorrectable (R388). -/
def Tray.receive (t : Tray) (p : Packet) : Tray :=
  let n := p.port.toNat
  if !(t.u.port n).linkUp then t
  else
    let inj := t.u.armed 0x2C n 1
    let t := if inj then t.blk (fun u => u.fire 0x2C n 1 false) else t
    let t := t.blk (fun u => (u.bumpBy (inst R.ETH_FECCOR n) p.fecCor.toNat).codewords n (p.fecUnc.toNat + inj.toNat))
    if p.errored || inj then t
    else if p.size.toNat < 64 || 9216 < p.size.toNat then t.blk (fun u => u.bump (inst R.ETH_RXSIZE n))
    else if p.etherType = 0x8808 then t.blk (fun u => u.bump (inst R.ETH_RXMACC n))
    else if p.etherType ≠ 0x88F7 && decide (p.etherType.toNat ≠ t.u.rf R.LNK_ETYPE 0 16) then t.blk (fun u => u.bump (inst R.ETH_RXETYPE n))
    else
      let t := t.blk (fun u => u.count (inst R.ETH_RXOK n) 1)
      if p.etherType = 0x88F7 then (if t.u.pw.stage = .ladder then t else t.timeFrame n p.dst p.src p.body)
      else if p.kind = 4 && ctlCode p.body = 8 && ctlSub p.body = 0 && p.epoch = 0 then
        if !p.tagOk then t.blk (fun u => u.authFailed n p.ctr.toNat)
        else if !ctlLenOk p.body || p.len.toNat ≠ p.body.length then t.blk (fun u => u.rxDiscard 2)
        else if p.queue ≠ 1 then t.blk (fun u => u.rxDiscard 4)
        else t.helloPacket p
      else match t.linkOf p.src with
        | some l => t.saggar l p
        | none => t.blk (fun u => u.authFailed n p.ctr.toNat)

end Sys2Proof.Machine
end

