-- ==== Sys2Proof/Machine/TrayRead.lean ====
section
/-!
DEFINITION. Reads of the tray build's registers (spec/21_register_pages.md, R439, R440, R447, R449 to R451; the register tables of chapters 9 to 20).
-/

namespace Sys2Proof.Machine

/-- The page type and instance at a page number of BAR0 (R449). -/
def trayPage (n : Nat) : Option (Nat × Nat) :=
  if n < 26 then
    some ([0x00, 0x01, 0x02, 0x08, 0x09, 0x0A, 0x13, 0x14, 0x15, 0x16, 0x20, 0x21, 0x22, 0x23, 0x24, 0x25, 0x26, 0x27, 0x0F, 0x28, 0x10, 0x11, 0x12, 0x29,
      0x2A, 0x2B].getD n 0, 0)
  else if 0x20 ≤ n ∧ n < 0x28 then some (0x2C, n - 0x20)
  else if 0x40 ≤ n ∧ n < 0x60 then some (0x2D, n - 0x40)
  else none

/-- A read of a 64-bit count's two halves: the low half latches the high half (R447). -/
def Blk.readHalf (u : Blk) (hi k v : Nat) : Blk × W32 :=
  if k = hi then (u, u.reg (latKey hi)) else (u.setN (latKey hi) (v / 2 ^ 32), lo32 v)

/-- A read of the STEP page: the slot that SSEL shows, in slot A's layout (R450). -/
def Tray.readStep (t : Tray) (k : Nat) : Tray × W32 :=
  let s := t.u.rf R.STEP_SSEL 0 6
  let c := t.u.step s
  if k = R.STEP_CTL then (t, w32 (c.en.toNat * 2 ^ 31 + c.k % 8 * 256 + c.estValid.toNat))
  else if k = R.STEP_IDX then (t, c.latIdx)
  else if k = R.STEP_ANG then (t.blk (fun u => u.angRead s), t.u.angle s)
  else if k = R.STEP_PER_L then (t, lo32 c.per.toNat)
  else if k = R.STEP_PER_H then (t, hi32 c.per.toNat)
  else if k = R.STEP_LASTM_L then (t, lo32 c.lastM.toNat)
  else if k = R.STEP_LASTM_H then (t, hi32 c.lastM.toNat)
  else if k = R.STEP_CNT then (t, w32 (c.cntShort * 2 ^ 24 + c.cntLong * 2 ^ 16 + c.cntIgn * 256 + c.cntSkip))
  else if k = R.STEP_CAP_L then (t, lo32 c.latTb1.toNat)
  else if k = R.STEP_CAP_H then (t, hi32 c.latTb1.toNat)
  else if k = R.STEP_STS then (t, w32 (c.short.toNat * 4 + c.long.toNat))
  else if k = R.STEP_SSEL then (t, t.u.reg k)
  else if k = R.STEP_CNT_GAP then (t, w32 c.gap)
  else if k = R.STEP_SRC_P then (t, c.srcP)
  else if k = R.STEP_SRC_S then (t, c.srcS)
  else if k = R.STEP_SRCSTS then (t, w32 c.onSecondary.toNat)
  else (t, 0)

/-- A read of the LNK page: the tree-table registers show the entry of TIDX; the addresses of the leaf's page read zero (R451). -/
def Tray.readLnk (t : Tray) (k : Nat) : Tray × W32 :=
  let e := t.u.treeAt (t.u.rf R.LNK_TIDX 0 8)
  let e := if 193 < t.u.rf R.LNK_TIDX 0 8 then ⟨0, 0, 0⟩ else e
  if k = R.LNK_TNODE then (t, e.node)
  else if k = R.LNK_TATTR then (t, e.attr)
  else if k = R.LNK_TMAC_L then (t, lo32 e.mac.toNat)
  else if k = R.LNK_TMAC_H then (t, hi32 e.mac.toNat)
  else if k = R.LNK_SMAC_L ∨ k = R.LNK_SMAC_H ∨ k = R.LNK_PMAC0_L ∨ k = R.LNK_PMAC0_H ∨ k = R.LNK_PMAC1_L ∨ k = R.LNK_PMAC1_H then (t, 0)
  else
    let r := t.u.readLnk k
    ({ t with u := r.1 }, r.2)

/-- A read of the PWR page. -/
def Tray.readPwr (t : Tray) (k : Nat) : Tray × W32 :=
  if k = R.PWR_KIDS then (t, w32 ((t.kids true).length * 2 ^ 16 + (t.kids false).length % 256 * 256 + t.known.length % 256))
  else if k = R.PWR_ISSUE then (t, w32 t.issue)
  else if k = R.PWR_THRTIME then (t, w32 t.thr.total)
  else if k = R.PWR_TJ then (t, w32 t.u.pw.tj)
  else
    let r := if k = R.PWR_TJPEAK then t.u.readClear k else t.u.readPwr k
    ({ t with u := r.1 }, r.2)

/-- A read of the HEV page (R323). -/
def Tray.readHevt (t : Tray) (k : Nat) : Tray × W32 :=
  let j := t.u.rf R.HEVT_QSEL 0 9
  let e := t.evq j
  if k = R.HEVT_BASE_L then (t, lo32 e.base.toNat)
  else if k = R.HEVT_BASE_H then (t, hi32 e.base.toNat)
  else if k = R.HEVT_WB_L then (t, lo32 e.wb.toNat)
  else if k = R.HEVT_WB_H then (t, hi32 e.wb.toNat)
  else if k = R.HEVT_LOST then (t, w32 e.lostCnt)
  else if k = R.HEVT_SPEAK then let r := t.u.readClear (inst k j)
    ({ t with u := r.1 }, r.2)
  else if R.HEVT_CI ≤ k ∧ k < R.HEVT_CI + 2048 then (t, (t.evq ((k - R.HEVT_CI) / 4)).ci)
  else (t, t.u.reg k)

/-- A read of the QMG page of queues 128 × `n` up (R204, R323). -/
def Tray.readQmg (t : Tray) (n k : Nat) : W32 :=
  if k = R.QMG_QCTL then 0
  else if k < R.QMG_QCFG then t.u.reg (inst k n)
  else
    let q := 128 * n + (k - R.QMG_QCFG) / 16
    let f := (k - R.QMG_QCFG) % 16 / 4
    if f = 0 then t.u.reg (qcfgKey q)
    else if q < 1536 then
      let c := t.queue q
      let waiting : Bool := match smGet? t.flights q with | some x => (x.phase == Phase.waiting) | none => false
      if f = 1 then w32 (c.pi * 2 ^ 16 + c.ci)
      else if f = 2 then
        w32 (c.stopped.toNat * 2 ^ 31 + c.full.toNat * 2 ^ 30 + waiting.toNat * 2 ^ 29 + (smGet? t.txs q).isSome.toNat * 2 ^ 28 + c.last * 2 ^ 16 + c.held)
      else c.done
    else if q < 2048 then
      let j := q - 1536
      let e := t.evq j
      if f = 1 then e.pi
      else if f = 2 then w32 ((t.qb q 31 && t.evFull j).toNat * 2 ^ 31 + (!e.waiting.isEmpty).toNat * 2 ^ 30 + e.count)
      else e.irqs
    else
      let r := q - 2048
      let x := t.ring r
      if f = 1 then x.bound else if f = 2 then w32 (t.ringFill r * 2 ^ 16 + t.ringPlaces r) else x.written

/-- Journal entries in use: commands in flight and staged members. -/
def Tray.journalUse (t : Tray) : Nat :=
  t.flights.length + t.journalMembers.length

/-- A read of the ENG page. -/
def Tray.readEng (t : Tray) (k : Nat) : W32 :=
  if R.ENG_CCTL ≤ k ∧ k < R.ENG_CCTL + 96 ∧ (k - R.ENG_CCTL) % 16 = 4 then w32 (t.inFlight ((k - R.ENG_CCTL) / 16))
  else if k = R.ENG_TXOPEN then w32 t.txOpen
  else if k = R.ENG_TXDOUBT then w32 (t.nodes.filter (fun n => n.doubt && n.decided.isNone)).length
  else if k = R.ENG_JFILL then w32 t.journalUse
  else t.u.reg k

/-- A read of the NOC page. -/
def Tray.readNoc (t : Tray) (k : Nat) : Tray × W32 :=
  let d := t.u.rf R.NOC_DSEL 0 6
  let x := t.dist d
  if k = R.NOC_DSTALL then
    let t := t.accrue d
    let r := t.u.readClear (inst k d)
    ({ t with u := r.1 }, r.2)
  else if k = R.NOC_DFLITS_L ∨ k = R.NOC_DFLITS_H then
    let r := t.u.readHalf R.NOC_DFLITS_H k x.flits
    ({ t with u := r.1 }, r.2)
  else if k = R.NOC_MCUSED then (t, w32 t.mcUsed)
  else if k = R.NOC_CREDSTALL then
    let t := t.accrueCredit
    let r := t.u.readClear k
    ({ t with u := r.1 }, r.2)
  else (t, t.u.reg k)

/-- A read of the PAN page. -/
def Tray.readPanPage (t : Tray) (k : Nat) : W32 :=
  let p := t.pset (t.u.rf R.PAN_PSEL 0 10)
  let of : (Pset → Nat) → W32 := fun f => match p with | some s => w32 (f s) | none => 0
  if k = R.PAN_PSTS then
    of (fun s => 2 ^ 31 + s.freeing.isSome.toNat * 2 ^ 30 + s.slot * 2 ^ 16 + (s.cuts.filter (fun c => c.closed.isNone)).length % 16)
  else if k = R.PAN_HSEQ then of (fun s => match s.cuts.find? (fun c => c.closed.isSome) with | some c => c.hseq.toNat | none => s.hseq.toNat)
  else if k = R.PAN_LATE then of Pset.lateTot
  else if k = R.PAN_OOW then of Pset.oow
  else if k = R.PAN_STALE then of Pset.stale
  else if k = R.PAN_CLIPPED then of Pset.clipped
  else if k = R.PAN_CUTS then of (fun s => s.published.toNat)
  else if k = R.PAN_NPSET then w32 t.psets.length
  else t.u.reg k

/-- A read of the MDL page. -/
def Tray.readMdl (t : Tray) (k : Nat) : Tray × W32 :=
  let h := t.u.rf R.MDL_HSEL 0 6
  let m := smGet? t.models h
  let of : (Model → Nat) → Nat := fun f => match m with | some x => f x | none => 0
  if k = R.MDL_HSTS then
    (t, w32 (of (fun x => 2 ^ 31 + x.unloading.isSome.toNat * 2 ^ 30 + (x.pkg.bases.length - 1) * 2 ^ 16 + (t.boundSlots h).length)))
  else if k = R.MDL_PADDR_L then (t, lo32 (of Model.addr))
  else if k = R.MDL_PADDR_H then (t, hi32 (of Model.addr))
  else if k = R.MDL_NBYTES_L ∨ k = R.MDL_NBYTES_H then
    let r := t.u.readHalf R.MDL_NBYTES_H k (of (fun x => x.pkg.nbytes))
    ({ t with u := r.1 }, r.2)
  else if k = R.MDL_SBYTES_L ∨ k = R.MDL_SBYTES_H then
    let r := t.u.readHalf R.MDL_SBYTES_H k (of (fun x => x.pkg.sbytes))
    ({ t with u := r.1 }, r.2)
  else if k = R.MDL_BCUT then (t, w32 (of (fun x => x.pkg.bcut)))
  else if k = R.MDL_SUSED then (t, w32 t.sUsed)
  else if k = R.MDL_NLOADED then (t, w32 t.models.length)
  else if k = R.MDL_SSTALL then
    let t := t.accrueAll
    let r := t.u.readClear k
    ({ t with u := r.1 }, r.2)
  else (t, t.u.reg k)

/-- A read of the SCO page: GSEL shows a gatherer number of every loaded package together. -/
def Tray.readSco (t : Tray) (k : Nat) : Tray × W32 :=
  let g := t.u.rf R.SCO_GSEL 0 6
  if k = R.SCO_GFILL then (t, w32 (((List.range 64).map (fun h => t.gathUse h g)).foldl max 0))
  else if k = R.SCO_GPEAK then
    let r := t.u.readClear (inst k g)
    ({ t with u := r.1 }, r.2)
  else if k = R.SCO_GSTALL then
    let t := t.accrueAll
    let r := t.u.readClear k
    ({ t with u := r.1, gNoted := false }, r.2)
  else (t, t.u.reg k)

/-- A read of the HRV page. -/
def Tray.readHrv (t : Tray) (k : Nat) : Tray × W32 :=
  let h := t.u.rf R.HRV_RSEL 0 6
  if k = R.HRV_SFILL then (t, w32 t.stagingUse)
  else if k = R.HRV_SPEAK then
    let r := t.u.readClear k
    ({ t with u := r.1 }, r.2)
  else if k = R.HRV_RWAIT then (t, w32 (t.staged.filter (fun x => x.ring = some h && x.endAt.isNone)).length)
  else if k = R.HRV_RSEL ∨ k = R.HRV_PACED then (t, t.u.reg k)
  else (t, t.u.reg (hrv k h))

/-- A read of the MEM page. -/
def Tray.readMem (t : Tray) (k : Nat) : W32 :=
  if k = R.MEM_STS then
    let up := decide (2 ≤ t.u.pw.step)
    w32 (up.toNat * 2 ^ 31 + up.toNat * 2 ^ 30 + t.disabledGroups)
  else if k = R.MEM_CORES then w32 (81920 - 16 * t.disabledGroups)
  else if k = R.MEM_GVAL then
    let f := smGet t.tier.groups (t.u.rf R.MEM_GIDX 0 13) 0
    w32 ((groupOff f).toNat * 2 ^ 31 + f % 2 ^ 17)
  else t.u.reg k

/-- The table and knot that `HLT.ISEL` and `HLT.KIDX` of a slot choose. -/
def Tray.knotKey (t : Tray) (s : Nat) : Nat :=
  let i := t.u.reg (inst R.HLT_ISEL s)
  (if bit i 3 then 8 else fld i 0 3) * 17 + t.u.rf (inst R.HLT_KIDX s) 0 5

/-- A read of the HLT page: 0x044 to 0x0C8 show the slot of SSEL. -/
def Tray.readHlt (t : Tray) (k : Nat) : W32 :=
  let s := t.u.rf R.HLT_SSEL 0 6
  let h := t.hs s
  let m := t.u.rf (inst R.HLT_DSEL s) 0 8
  let d := t.die s m
  let count : DieState → Nat := fun x => (h.dies.filter (fun e => e.2.state == x)).length
  if k = R.HLT_SSEL ∨ R.HLT_REFSRC ≤ k then t.u.reg k
  else if k = R.HLT_BSTS then w32 (h.r * 2 ^ 16 + h.g)
  else if k = R.HLT_LASTEXP then h.lastExp.getD 0
  else if k = R.HLT_ICFG ∨ k = R.HLT_ICFG2 ∨ k = R.HLT_IMISS then t.u.reg (hltIn k s (t.u.rf (inst R.HLT_ISEL s) 0 3))
  else if k = R.HLT_KX then (smGet h.knots (t.knotKey s) (0, 0)).1
  else if k = R.HLT_KY then w32 (smGet h.knots (t.knotKey s) (0, 0)).2
  else if k = R.HLT_DSTS then w32 (d.h * 2 ^ 16 + d.missing.toNat * 256 + d.sw.toNat * 128 + d.state.code)
  else if k = R.HLT_DIDX then (match d.idx with | some x => BitVec.ofInt 32 x | none => if d.seenEval then 0x80000000#32 else 0)
  else if k = R.HLT_DADV then w32 (d.witness.toNat * 2 ^ 16 + d.adv)
  else if k = R.HLT_EVALS then h.evals
  else if k = R.HLT_NCONT then w32 (count .contained + count .held)
  else if k = R.HLT_NHELD then w32 (count .held)
  else if k = R.HLT_NEXP then w32 (count .expelled)
  else if k = R.HLT_NOWIT then w32 h.nowit
  else if k = R.HLT_REFRX then h.refrx
  else if k = R.HLT_REFBAD then w32 h.refbad
  else t.u.reg (inst k s)

/-- The census that a slot's registers show: the one under way, else the retained one. -/
def JSlot.shown (j : JSlot) : Option Census := j.census <|> j.kept

/-- A read of the JOB page. -/
def Tray.readJob (t : Tray) (k : Nat) : W32 :=
  let s := t.u.rf R.JOB_JSEL 0 6
  let j := t.jslot s
  let mine := t.descs.filter (fun (x : Desc) => t.slotOfJob x.job = some s)
  let orphans := ((mine.flatMap (fun x => (x.hops.filter (fun e => e.2.orphan)).map (·.1))).dedup).length
  if k = R.JOB_JSTS then
    w32 ((mine.any Desc.coord).toNat * 2 ^ 31 + j.shown.isSome.toNat * 2 ^ 30 +
      (mine.any (fun x => x.kind ≠ 1 && x.applied && !x.deferred.isEmpty)).toNat * 2 ^ 29 + j.forced.toNat * 2 ^ 28 + orphans % 256)
  else if k = R.JOB_BSEQ then j.bseq
  else if k = R.JOB_CSTS then
    match j.shown with
    | none => 0
    | some c => w32 ((!c.complete && c.failed.isNone).toNat * 2 ^ 31 + c.complete.toNat * 2 ^ 30 + c.failed.isSome.toNat * 2 ^ 29 + c.failed.getD 0 % 16 * 2 ^ 24 +
        t.undecided s c % 2 ^ 21)
  else if k = R.JOB_CTHIN then
    match j.shown with
    | none => 0
    | some c => w32 ((c.pairs.map (fun p => (p.versions.filter (t.thin s c)).length)).sum)
  else if k = R.JOB_SPLEFT then
    match j.plan with
    | none => 0
    | some p => w32 (p.src.filter (fun e => (smGet? p.done e.1).isNone)).length
  else if k = R.JOB_SPFB then
    match j.plan with
    | none => 0
    | some p => w32 (p.src.filter (fun e => e.2.isNone)).length
  else if k = R.JOB_CSTALE then t.u.reg (inst k s)
  else if k = R.JOB_CFILL then w32 t.cacheUse
  else t.u.reg k

/-- A read of an ETHp page. -/
def Tray.readEth (t : Tray) (p k : Nat) : W32 :=
  let x := t.u.port p
  if k = R.ETH_STS then w32 (x.linkUp.toNat * 2 ^ 31 + x.anDone.toNat * 2 ^ 30 + x.trained.toNat * 2 ^ 29 + x.phy.toNat) else t.u.reg (inst k p)

/-- A read of the PCI page: link state, speed and width are free values. -/
def Tray.readPci (t : Tray) (k : Nat) : Tray × W32 :=
  if k = R.PCI_STS then
    let v := Config.pciLink t.u.fresh
    (t.blk Blk.freshen, (v &&& 0x800F003F#32) ||| w32 (t.u.pw.busMaster.toNat * 2 ^ 30))
  else (t, t.u.reg k)

/-- A read beyond the header of a page, by its type `p` and instance `n`; `k` is type × 0x1000 + offset. -/
def Tray.readPage (t : Tray) (n k : Nat) : Tray × W32 :=
  let p := k / 0x1000
  if p = 0x02 then t.readStep k
  else if p = 0x0F then
    if k = R.CMPT_IN_L then let r := t.u.readLat k R.CMPT_IN_H; ({ t with u := r.1 }, r.2)
    else if k = R.CMPT_OUT_L then let r := t.u.readLat k R.CMPT_OUT_H; ({ t with u := r.1 }, r.2)
    else if k = R.CMPT_IN_H ∨ k = R.CMPT_OUT_H then (t, t.u.reg (latKey k))
    else (t, t.u.reg k)
  else if p = 0x10 then t.readLnk k
  else if p = 0x14 then t.readPwr k
  else if p = 0x16 then t.readHevt k
  else if p = 0x20 then (t, t.readEng k)
  else if k = R.ING_DEC_MIN then (t, t.u.reg (inst k (t.u.rf R.ING_DSLOT 0 6)))
  else if p = 0x22 then t.readNoc k
  else if p = 0x24 then (t, t.readPanPage k)
  else if p = 0x25 then t.readMdl k
  else if p = 0x26 then t.readSco k
  else if p = 0x27 then t.readHrv k
  else if p = 0x28 then (t, t.readMem k)
  else if p = 0x29 then t.readPci k
  else if p = 0x2A then (t, t.readHlt k)
  else if p = 0x2B then (t, t.readJob k)
  else if p = 0x2C then (t, t.readEth n k)
  else if p = 0x2D then (t, t.readQmg n k)
  else
    let r := t.u.portRead k
    ({ t with u := r.1 }, r.2)

/-- Dword `i` of the MSI-X table and of the pending-bit array (R449). -/
def Tray.msixRead (t : Tray) (i : Nat) : W32 := if i % 4 = 3 then t.u.reg (msixKey i) ^^^ 1#32 else t.u.reg (msixKey i)

/-- A 4-byte read at a byte address of BAR0 (R440). -/
def Tray.read4 (t : Tray) (a : Nat) : Tray × W32 :=
  if a < 0x100000 then
    match trayPage (a / 0x1000) with
    | none => (t, 0)
    | some (p, n) => if a % 0x1000 < 0x40 then (t, t.u.headRead p n (a % 0x1000)) else t.readPage n (p * 0x1000 + a % 0x1000)
  else if 0x180000 ≤ a ∧ a < 0x180400 then (t, t.msixRead ((a - 0x180000) / 4))
  else if 0x181000 ≤ a ∧ a < 0x181008 then (t, t.u.reg (pbaKey ((a - 0x181000) / 4)))
  else (t, 0)

/-- An access to the pages is well sized, aligned, and meets a page (R440). -/
def accessOk (a n : Nat) : Bool := (n = 4 || n = 8) && decide (a % n = 0) && (trayPage (a / 0x1000)).isSome

/-- The command aperture, the MSI-X table and the pending-bit array, which are no register pages (R449). -/
def noPage (a : Nat) : Bool := (0x100000 ≤ a && a < 0x118000) || (0x180000 ≤ a && a < 0x180400) || (0x181000 ≤ a && a < 0x181008)

/-- A refused access is counted (R440). -/
def Tray.badAccess (t : Tray) : Tray := t.blk (fun u => u.bump R.BLK_BADACC)

/-- A page address with the page's instance taken out, as registers are keyed. -/
def pageAddr (a : Nat) : Nat := match trayPage (a / 0x1000) with | some (p, _) => p * 0x1000 + a % 0x1000 | none => a

/-- A read of `n` bytes through BAR0 in a cycle of its own. -/
def Tray.readAt (t : Tray) (a n : Nat) : Tray × W64 :=
  let r := t.read4 a
  let s := if n = 8 then r.1.read4 (a + 4) else (r.1, 0)
  (s.1, s.2 ++ r.2)

/-- A read of `n` bytes through BAR0 (R440): the value leaves the port. A read in the cycle of hardware updates answers the value from before them, and
clears none of what they have set (R13, R446). -/
def Tray.readOut (t : Tray) (a n : Nat) (same : Bool) : Tray :=
  if !accessOk a n && !noPage a then t.badAccess.blk (fun u => u.emit (.read a 0))
  else
    let r := t.readAt a n
    if same then
      let keep := fun (u : Blk) => if n = 8 then (u.keepHardware t.u (pageAddr a)).keepHardware t.u (pageAddr (a + 4)) else u.keepHardware t.u (pageAddr a)
      r.1.blk (fun u => (keep u).emit (.read a ((t.blk Blk.beforeCycle).readAt a n).2))
    else r.1.blk (fun u => u.emit (.read a r.2))

end Sys2Proof.Machine
end

