-- ==== Sys2Proof/Machine/TrayPort.lean ====
section
/-!
DEFINITION. Writes of the tray build's registers, the command aperture and the MSI-X table (spec/10_command_queues_transactions.md, R204 to R214;
spec/14_host_events_ordering.md, R303; spec/21_register_pages.md, R440, R449 to R451; the register tables of chapters 9 to 20).
-/

namespace Sys2Proof.Machine

/-- A plain write of a register that a selector or a page instance multiplies: `k` gives the writable bits, `inst k n` the place. -/
def Tray.plainInst (t : Tray) (k n : Nat) (w : W32) : Tray := t.blk (fun u => u.writePlain (inst k n) w)

/-- A plain write. -/
def Tray.plain (t : Tray) (k : Nat) (w : W32) : Tray := t.blk (fun u => u.writePlain k w)

/-! ### STEP, LNK, IDN, PWR -/

/-- A write of the STEP page: only `CTL.k` of the slot shown and SSEL are writable (R450). -/
def Tray.writeStep (t : Tray) (k : Nat) (w : W32) : Tray :=
  if k = R.STEP_SSEL then t.plain k w
  else if k = R.STEP_CTL then
    let s := t.u.rf R.STEP_SSEL 0 6
    t.blk (fun u => u.setStep s { u.step s with k := fld w 8 3 })
  else t

/-- A write of the tree-table entry that TIDX shows: it changes which children are known (R365, R451). -/
def Tray.treeWrite (t : Tray) (f : TreeEntry → TreeEntry) : Tray :=
  let i := t.u.rf R.LNK_TIDX 0 8
  if 193 < i then t
  else (t.blk (fun u => ({ u with tree := smSet u.tree i (f (u.treeAt i)) ⟨0, 0, 0⟩ }).bumpSeq 0x10 0)).stageCheck

def Tray.writeLnk (t : Tray) (k : Nat) (w : W32) : Tray :=
  if k = R.LNK_CTL then t.lnkCtl w
  else if k = R.LNK_TNODE then t.treeWrite (fun e => { e with node := w })
  else if k = R.LNK_TATTR then t.treeWrite (fun e => { e with attr := w &&& 0xE0000007#32 })
  else if k = R.LNK_TMAC_L then t.treeWrite (fun e => { e with mac := setFld e.mac 0 32 w.toNat })
  else if k = R.LNK_TMAC_H then t.treeWrite (fun e => { e with mac := setFld e.mac 32 16 (fld w 0 16) })
  else if k = R.LNK_SMAC_L ∨ k = R.LNK_SMAC_H ∨ k = R.LNK_PMAC0_L ∨ k = R.LNK_PMAC0_H ∨ k = R.LNK_PMAC1_L ∨ k = R.LNK_PMAC1_H then t
  else t.blk (fun u => u.writeLnk k w)

/-- REPORT_REQUEST at the T build: the report goes to `RPTADDR` in LPDDR5X (R397, R404). -/
def Tray.report (t : Tray) : Tray :=
  let t := t.lpWrite t.u.rptAddr (t.u.attestation (t.u.regBytes R.IDN_NONCE 8))
  t.blk (fun u =>
    let u := u.freshen
    { u with idn := { u.idn with rdy := true } })

/-- The bytes of LPDDR5X at `CFGADDR` are read, unless an operation is under way already, which refuses the command. -/
def Tray.cfgRead (t : Tray) : Tray := if t.u.idn.busy then t else (t.readBytes 0 t.u.cfgAddr t.u.cfgLen).1

/-- CONFIGURATION_APPLY and INSTALL_CERTS at the T build read LPDDR5X at `CFGADDR`, through its SECDED (R384). -/
def Tray.cfgApply (t : Tray) (v : SigVerdict) (flashOk : Bool) : Tray :=
  t.cfgRead.blk (fun u => u.cfgApply (t.lpBytes u.cfgAddr u.cfgLen) v flashOk)
def Tray.installCerts (t : Tray) (verdict : Nat) (flashOk : Bool) : Tray :=
  t.cfgRead.blk (fun u => u.installCerts (t.lpBytes u.cfgAddr u.cfgLen) verdict flashOk)

/-- A write of `IDN.CMD`. -/
def Tray.idnCmd (t : Tray) (w : W32) (e : PortEnv) : Tray :=
  let t := if bit w 0 then t.blk Blk.enroll else t
  let t := if bit w 1 then t.cfgApply e.sig e.flashOk else t
  let t := if bit w 2 then t.report else t
  if bit w 3 then t.installCerts e.chain.toNat e.flashOk else t

/-- A write of `PWR.LEVELS`: the supply code in force is judged by the new levels at once. -/
def Tray.levels (t : Tray) (w : W32) : Tray :=
  let t := t.blk (fun u => u.levelsWrite w)
  t.supply t.u.pw.code t.u.pw.rail true

/-! ### HEV (T build) -/

/-- A setting of a host event queue is refused. -/
def Tray.evRefuse (t : Tray) : Tray := t.blk (fun u => u.cause 0x16 0 3)

/-- CI of queue `j` (R303): a value that would make PI − CI exceed the ring is ignored and refused. -/
def Tray.evCiWrite (t : Tray) (j : Nat) (v : W32) : Tray :=
  let e := t.evq j
  if t.evCap j < (e.pi - v).toNat then t.evRefuse else (t.setEvq j { e with ci := v }).evServe j

/-- The write-back address of the queue that QSEL shows (R323). -/
def Tray.evWbWrite (t : Tray) (f : EvQ → EvQ) : Tray := let j := t.u.rf R.HEVT_QSEL 0 9; t.setEvq j (f (t.evq j))

/-- The ring base of the queue that QSEL shows: written only while its en is 0. -/
def Tray.evAddrWrite (t : Tray) (f : EvQ → EvQ) : Tray :=
  let j := t.u.rf R.HEVT_QSEL 0 9
  if t.qb (1536 + j) 31 then t.evRefuse else t.setEvq j (f (t.evq j))

def Tray.writeHevt (t : Tray) (k : Nat) (w : W32) : Tray :=
  if k = R.HEVT_BASE_L then t.evAddrWrite (fun e => { e with base := setFld e.base 0 32 (w &&& 0xFFFFF000#32).toNat })
  else if k = R.HEVT_BASE_H then t.evAddrWrite (fun e => { e with base := setFld e.base 32 32 w.toNat })
  else if k = R.HEVT_WB_L then t.evWbWrite (fun e => { e with wb := setFld e.wb 0 32 (w &&& 0xFFFFFFFC#32).toNat })
  else if k = R.HEVT_WB_H then t.evWbWrite (fun e => { e with wb := setFld e.wb 32 32 w.toNat })
  else if R.HEVT_ROUTE ≤ k ∧ k < R.HEVT_ROUTE + 1024 then (t.markNew (fld w 0 9)).plain k w
  else if R.HEVT_CI ≤ k ∧ k < R.HEVT_CI + 2048 then t.evCiWrite ((k - R.HEVT_CI) / 4) w
  else t.plain k w

/-- A host event queue is enabled: PI and CI are zero unless a warm reset kept them, and the marker of the cold reset is its first record (R315). -/
def Tray.evRise (t : Tray) (j : Nat) : Tray :=
  let e := t.evq j
  let t := t.setEvq j (if e.keep then { e with keep := false } else { e with pi := 0, ci := 0, unsig := 0 })
  (t.markNew j).evServe j

/-- A write of QCFG of host event queue `j` (R303, R306). -/
def Tray.evCfg (t : Tray) (j : Nat) (w : W32) : Tray :=
  let k := qcfgKey (1536 + j)
  let old := t.u.reg k
  let on := bit old 31
  let okN := decide (12 ≤ fld w 24 5 ∧ fld w 24 5 ≤ 24)
  let n := if okN && !on then fld w 24 5 else fld old 24 5
  let okEn := decide (12 ≤ n ∧ n ≤ 24)
  let t := if !okN || (bit w 31 && !okEn) || (on && fld w 24 5 ≠ fld old 24 5) then t.evRefuse else t
  let v := setBit (setFld (w &&& 0xFF3FFFFF#32) 24 5 n) 31 (bit w 31 && okEn)
  let t := t.blk (fun u => u.setReg k v)
  let t := if bit v 31 && !on then t.evRise j else t
  t.evIrq j false

/-! ### QMG -/

def Tray.writeQmg (t : Tray) (n k : Nat) (w : W32) : Tray :=
  if k = R.QMG_QCTL then
    let q := 128 * n + fld w 0 7
    if 1536 ≤ q then t
    else
      let t := if bit w 31 then t.queueResume q else t
      if bit w 30 then t.queueFlush q else t
  else if k < R.QMG_QCFG then t
  else
    let q := 128 * n + (k - R.QMG_QCFG) / 16
    let f := (k - R.QMG_QCFG) % 16 / 4
    if f = 0 then
      if q < 1536 then (t.markNew (fld w 0 9)).queueCfg q w
      else if q < 2048 then t.evCfg (q - 1536) w
      else t.ringCfg (q - 2048) w
    else if f = 1 ∧ 2048 ≤ q then t.ringBind (q - 2048) w
    else t

/-! ### ENG -/

/-- A write of `CCTL[c]`: en is kept, and rst is the unit reset of the class; `pass` is what its engines' self-tests give (R219). -/
def Tray.cctlWrite (t : Tray) (c : Nat) (w pass : W32) : Tray :=
  let t := t.plain (R.ENG_CCTL + 16 * c) w
  if bit w 0 then t.classReset c pass else t

def Tray.writeEng (t : Tray) (k : Nat) (w : W32) (e : PortEnv) : Tray :=
  if R.ENG_CCTL ≤ k ∧ k < R.ENG_CCTL + 96 ∧ (k - R.ENG_CCTL) % 16 = 0 then t.cctlWrite ((k - R.ENG_CCTL) / 16) w e.produced else t.plain k w

/-! ### HRV, MEM, JOB -/

/-- A refused setting of a host harvest ring changes nothing and sets PGCAUSE bit 2. -/
def Tray.hrvRefused (t : Tray) : Tray := t.blk (fun u => u.cause 0x27 0 2)

/-- A write of the HRV page: the ring that RSEL shows. Its base is written only while it is disabled, and it is enabled only with an n
from 16 to 32 (R244); what is refused sets PGCAUSE bit 2. -/
def Tray.writeHrv (t : Tray) (k : Nat) (w : W32) : Tray :=
  let h := t.u.rf R.HRV_RSEL 0 6
  if k = R.HRV_RSEL then t.plain k w
  else if k = R.HRV_RBASE_L ∨ k = R.HRV_RBASE_H then (if t.u.rb (hrv R.HRV_RCFG h) 31 then t.hrvRefused else t.plainInst k h w)
  else if k = R.HRV_RCFG then (if bit w 31 && decide (fld w 16 5 < 16) then t.hrvRefused else (t.markNew (fld w 0 9)).plainInst k h w)
  else if k = R.HRV_RCI then t.rciWrite h w.toNat
  else t

def Tray.writeMem (t : Tray) (k : Nat) (w : W32) : Tray :=
  if k = R.MEM_LPSTR ∨ k = R.MEM_LPDMP ∨ k = R.MEM_LPHIS then t.layoutWrite k w else t.plain k w

/-- A write of the JOB page: the start cache is placed only while the LPDDR5X controller is off. -/
def Tray.writeJob (t : Tray) (k : Nat) (w : W32) : Tray :=
  if k = R.JOB_CBASE && t.u.rb R.MEM_LPCTL 31 then t else t.plain k w

/-! ### HLT -/

/-- Registers of a slot's health unit that its en locks (R281). -/
def hltLocked (k : Nat) : Bool :=
  (R.HLT_SCFG2 ≤ k && k < R.HLT_BUDGET) || (R.HLT_ICFG ≤ k && k ≤ R.HLT_IMISS) || k = R.HLT_KX || k = R.HLT_KY || k = R.HLT_ARRF

/-- A write of the HLT page: 0x044 to 0x0C8 act on the slot that SSEL shows. -/
def Tray.writeHlt (t : Tray) (k : Nat) (w : W32) : Tray :=
  let s := t.u.rf R.HLT_SSEL 0 6
  let h := t.hs s
  if k = R.HLT_SSEL ∨ R.HLT_REFSRC ≤ k then t.plain k w
  else if k = R.HLT_SCFG then t.scfgWrite s w
  else if k = R.HLT_SPARES then t.sparesWrite s w
  else if t.hon s && hltLocked k then t
  else if R.HLT_LVL ≤ k ∧ k < R.HLT_LVL + 24 then
    t.blk (fun u => u.setReg (inst k s) (if (k - R.HLT_LVL) % 8 = 0 then w else w &&& 0x8000FFFF#32))
  else if k = R.HLT_ICFG ∨ k = R.HLT_ICFG2 ∨ k = R.HLT_IMISS then
    t.blk (fun u => u.setReg (hltIn k s (u.rf (inst R.HLT_ISEL s) 0 3)) (w &&& rwMask .tray k))
  else if k = R.HLT_KX then
    t.setHs s { h with knots := smSet h.knots (t.knotKey s) (w, (smGet h.knots (t.knotKey s) (0, 0)).2) (0, 0) }
  else if k = R.HLT_KY then
    t.setHs s { h with knots := smSet h.knots (t.knotKey s) ((smGet h.knots (t.knotKey s) (0, 0)).1, fld w 0 16) (0, 0) }
  else t.plainInst k s w

/-! ### Together -/

/-- A write beyond the header of a page, by its instance `n`; `k` is type × 0x1000 + offset. -/
def Tray.writePage (t : Tray) (n k : Nat) (w : W32) (e : PortEnv) : Tray :=
  let p := k / 0x1000
  if p = 0x02 then t.writeStep k w
  else if k = R.BLK_RST then t.rstWrite w
  else if k = R.IDN_CMD then t.idnCmd w e
  else if k = R.PWR_LEVELS then t.levels w
  else if k = R.PWR_TJHOT then (t.plain k w).thermJudge
  else if p = 0x10 then t.writeLnk k w
  else if p = 0x16 then t.writeHevt k w
  else if p = 0x20 then t.writeEng k w e
  else if k = R.ING_DEC_MIN then t.plainInst k (t.u.rf R.ING_DSLOT 0 6) w
  else if p = 0x27 then t.writeHrv k w
  else if p = 0x28 then t.writeMem k w
  else if p = 0x2A then t.writeHlt k w
  else if p = 0x2B then t.writeJob k w
  else if p = 0x2C then t.plainInst k n w
  else if p = 0x2D then t.writeQmg n k w
  else if k = R.TBS_OFS_GO then (match t.u.goValue w with | some v => t.setTb0 v | none => t)
  else t.blk (fun u => u.portWrite k w e)

/-- Memory injections act in the cycle of arming (R388): ERR bit 0 flips one bit, MEM bit 0 two, or poisons with parameter [8]. -/
def Tray.injectNow (t : Tray) (p : Nat) (bits : List Nat) : Tray :=
  if bits.contains 0 then
    if p = 0x15 then t.injectMem flawSingle
    else t.injectMem (if Nat.testBit (t.u.injParam 0x28 0) 8 then flawPoison else flawDouble)
  else t

/-- A write of a header register (R441 to R443). -/
def Tray.writeHead (t : Tray) (p n off : Nat) (w : W32) : Tray :=
  let r := t.u.headWrite p n off w
  ({ t with u := r.1 }).injectNow p r.2

/-- Dword `i` of the MSI-X table; vector control is stored with its mask bit inverted, so that a vector is masked at reset. Unmasking a vector sends
what waits. -/
def Tray.msixWrite (t : Tray) (i : Nat) (w : W32) : Tray :=
  if i % 4 = 3 then t.blk (fun u => (u.setReg (msixKey i) ((w &&& 1#32) ^^^ 1#32)).msixFree (i / 4))
  else t.blk (fun u => u.setReg (msixKey i) w)

/-- A register of a page is written beyond the arming sequence (R390). -/
def Tray.pageWritten (t : Tray) (p n : Nat) : Tray := t.blk (fun u => u.pageWritten p n)

/-- A 4-byte write at a byte address of BAR0 outside the aperture. -/
def Tray.write4 (t : Tray) (a : Nat) (w : W32) (e : PortEnv) : Tray :=
  if a < 0x100000 then
    match trayPage (a / 0x1000) with
    | none => t
    | some (p, n) => if a % 0x1000 < 0x40 then t.writeHead p n (a % 0x1000) w else (t.pageWritten p n).writePage n (p * 0x1000 + a % 0x1000) w e
  else if 0x180000 ≤ a ∧ a < 0x180400 then t.msixWrite ((a - 0x180000) / 4) w
  else t

/-- COMMAND_APPEND_WRITE: `l` at offset `off` of queue `q`'s 64 bytes of the aperture (R207). -/
def Tray.aperture (t : Tray) (q off : Nat) (l : List Byte) : Tray :=
  if l.isEmpty then t
  else if 64 < off + l.length then t.badAccess
  else if off ≤ 0x3F ∧ 0x3F < off + l.length then t.append q off l
  else t.stageBytes q off l

/-- "PCI Express uncorrectable" (R388): severity 3, always to flash. -/
def rkPciUncorrectable : RecKind := rk 0x29 0x0001 3 .always

/-- PCI_EXPRESS_UNCORRECTABLE: the port reports an uncorrectable AER error; `bits` are those of its status register. -/
def Tray.pciUncorrectable (t : Tray) (bits : W32) : Tray :=
  t.blk (fun u =>
    let u := u.modReg R.PCI_AERUNC (fun r => r ||| bits)
    (u.cause 0x29 0 0).report rkPciUncorrectable .dflt (pay [fd 0x24 4 (u.rn R.PCI_AERUNC)]))

/-- A Poisoned TLP is received: it is discarded (R386, R388). -/
def Tray.poisonedTlp (t : Tray) : Tray := (t.blk (fun u => u.bump R.PCI_POISRX)).pciUncorrectable 0x1000#32

/-- A write of `n` bytes of `data` through BAR0 (R440), in a cycle of its own. -/
def Tray.writeAt (t : Tray) (a n : Nat) (data : W64) (e : PortEnv) : Tray :=
  if t.u.armed 0x29 0 0 then (t.blk (fun u => u.fire 0x29 0 0 false)).poisonedTlp
  else if 0x100000 ≤ a ∧ a < 0x118000 then t.aperture ((a - 0x100000) / 64) (a % 64) (leBytes (min n 8) data.toNat)
  else if !accessOk a n && !noPage a then t.badAccess
  else
    let t := t.write4 a (data.setWidth 32) e
    if n = 8 then t.write4 (a + 4) (data.extractLsb' 32 32) e else t

/-- A write through BAR0: one that meets hardware updates of its cycle loses to them, field by field (R446). -/
def Tray.write (t : Tray) (a n : Nat) (data : W64) (e : PortEnv) : Tray :=
  let r := t.writeAt a n data e
  if e.same && accessOk a n then
    r.blk (fun u => if n = 8 then (u.keepHardware t.u (pageAddr a)).keepHardware t.u (pageAddr (a + 4)) else u.keepHardware t.u (pageAddr a))
  else r

/-! ### What follows every command -/

/-- What the state that a command left lets happen at once: STARTs and CONTAINs of applied transactions begin, health units evaluate the cuts that closed,
liveness and teardowns are looked at, what left the ports is released, and the cores begin units and give or withhold credit. `was` is the state
before the command. -/
def Tray.settle (t was : Tray) : Tray := (((((t.memberWork.healthRun was).liveCheck).afterPort).unloadAll).coreWork).markUsed

end Sys2Proof.Machine
end

