-- ==== Sys2Proof/Machine/Operands.lean ====
section
/-!
DEFINITION. Commands whose operands choose among several operations, or that join a few: reads that a command names by its register, the header of a
page by its number, event records of the tray build, and what the ports take.
-/

namespace Sys2Proof.Machine

/-! ### Reads that are commands of their own -/

/-- ANG_READ: the angle of a slot leaves the port, and the index and the TB1 capture are latched (R43). -/
def Leaf.angOut (l : Leaf) (s : Nat) : Leaf := l.blk (fun u => (u.angRead s).emit (.read (R.STEP_ANG + 0x40 * s) ((u.angle s).setWidth 64)))
def Tray.angOut (t : Tray) (s : Nat) : Tray := t.blk (fun u => (u.angRead s).emit (.read R.STEP_ANG ((u.angle s).setWidth 64)))

/-- TSQ_E3_READ: the head entry of the timestamp queue is removed (R177). -/
def Blk.tsqE3Read (u : Blk) : Blk :=
  let r := u.readTsq R.TSQ_E3
  r.1.emit (.read R.TSQ_E3 (r.2.setWidth 64))

/-! ### The egress port (R175) -/

/-- The launch times of the messages at the heads of a port's queues. -/
def Blk.headLaunches (u : Blk) (p : Nat) : List W64 :=
  (List.range 8).filterMap (fun q => ((u.port p).queue q).head?.bind (fun m => if u.launched m then none else m.launch))

/-- LAUNCH_TIME: time moves to the first launch time that a head message of the port waits for; the message is eligible from then on, and starts at
once where the port is free. It never comes while TB0 is not valid (R33). -/
def Blk.launchTime (u : Blk) (p : Nat) : Blk :=
  if !u.clk.valid then u
  else match ((u.headLaunches p).map (fun t => u.clk.cyclesToNs t)).min? with
    | none => u
    | some k =>
      let u := u.adv k
      if (u.port p).onPort.isSome || (u.port p).stopped || u.portDown p then u else u.schedule p

/-! ### Page headers by page number (R441 to R443) -/

def Leaf.headAt (l : Leaf) (page off : Nat) (w : W32) : Leaf := if 0x1A ≤ page then l.regErr else l.writeHead page off w
def Tray.headAt (t : Tray) (page off : Nat) (w : W32) : Tray :=
  match trayPage page with
  | none => t.badAccess
  | some (p, n) => t.writeHead p n off w

/-! ### Posted writes, interrupts, and links of the tray build -/

/-- An inbound posted write; an armed injection has it taken as a Poisoned TLP (R388). -/
def Tray.posted (t : Tray) (f : Tray → Tray) : Tray :=
  if t.u.armed 0x29 0 0 then (t.blk (fun u => u.fire 0x29 0 0 false)).poisonedTlp else f t

/-- MSIX_VECTOR_UNMASK: a message held for the vector is sent (R312). -/
def Tray.unmask (t : Tray) (v : Nat) : Tray := t.blk (fun u => (u.setReg (msixKey (4 * v + 3)) 1).msixFree v)

/-- LINK_RESET of the PCI Express port, or of an Ethernet port (R182, R372, R373). -/
def Tray.linkResetOf (t : Tray) (pci : Bool) (p : Nat) : Tray :=
  if pci then t.pciReset else (t.portReset p).blk (fun u => u.setN R.BLK_RSTCAUSE (3 * 2 ^ 30 + 16))

/-! ### TB0 of the tray build -/

/-- OFFSET_STEP and LOAD at the T build. -/
def Tray.offsetStep (t : Tray) : Tray := t.setTb0 (t.u.clk.tb + t.u.ofs96)
def Tray.loadTb0 (t : Tray) : Tray := t.setTb0 t.u.ofs96

/-! ### Host event queues of the tray build -/

/-- EVENT_RECORD_STAGE: the oldest closed record of the recorder takes a staging place in its queue, or is lost; queues that take records write them
(R304, R309, R310). -/
def Tray.stageEvent (t : Tray) : Tray :=
  let t := t.stageOne
  (t.evqs.map (·.1)).foldl (fun (v : Tray) j => v.evServe j) t

/-- COALESCING_TIMER: the oldest unsignalled record of a queue has waited `ctim` (R306). -/
def Tray.evTimer (t : Tray) (j : Nat) : Tray :=
  let e := t.evq j
  if t.qb (1536 + j) 29 && decide (e.unsig ≠ 0) && decide (t.qf (1536 + j) 0 8 ≠ 0) then
    (t.blk (fun u => u.toIv (e.unsigAt + usIv (t.qf (1536 + j) 0 8)))).evSignal j
  else t

/-! ### Harvests -/

/-- HARVEST_PUBLISH: the oldest closed cut of a pan set is published where staging has room (R243); the health units keep what they need of it, and
job-wide references it feeds are sent (R281). -/
def Tray.harvestPublish (t : Tray) (p : Nat) : Tray :=
  let r := t.publish p
  if r.2.isNone then r.1
  else
    let r := (t.healthNote p).publish p
    match r.2 with
    | none => r.1
    | some h => r.1.refSend h

/-! ### The ladder -/

/-- The self-test's result as a map from router groups to their failing physical places (R187). -/
def groupFails (l : List (BitVec 13 × BitVec 17)) : SMap Nat := l.foldl (fun (m : SMap Nat) e => smSet m e.1.toNat e.2.toNat 0) []

end Sys2Proof.Machine
end

