-- ==== Sys2Proof/Machine/State.lean ====
section
/-!
DEFINITION. The state of the model: a leaf build, a tray build, and the commands that wait; why a command can stop; and the state after reset
(spec/00_scope.md, R1 to R7; spec/17_power_reset_hotplug.md, R373, R374).
-/

namespace Sys2Proof.Machine

/-- The block in both its builds, side by side, and the queue of commands, the first to run in front. -/
structure State where
  leaf : Leaf
  tray : Tray
  pending : List Instr
deriving DecidableEq, Repr

/-- Why the machine would stop with a fault. Nothing raises one: the spec gives every command of the table an effect, so this type has no constructor. -/
inductive Fault where
deriving DecidableEq, Repr

/-- Why a command has no meaning here. -/
inductive Refusal where
  /-- The command of this mnemonic is not modelled. No arm of `exec` raises it: safe. -/
  | notModelled (mnemonic : String)
deriving DecidableEq, Repr

/-- A build right after a power-on reset has been released: the ladder begins (R365, R368), the recovery marker is the first record (R315), and the leaf
has launched its first latency marker (R64). -/
def Leaf.released : Leaf := (Leaf.reset.coldReset 1).release 0 false
def Tray.released0 : Tray := (Tray.reset.coldReset 1).release 0 false

/-- The state right after reset: no command waits. -/
def State.reset : State := { leaf := Leaf.released, tray := Tray.released0, pending := [] }

end Sys2Proof.Machine
end

