-- ==== Sys2Proof/Machine/Lift.lean ====
section
/-!
DEFINITION. How a command that one build takes acts on the whole state (spec/00_scope.md, R2; spec/17_power_reset_hotplug.md, R374).
-/

namespace Sys2Proof.Machine

/-- A command of the leaf. A leaf that a reset holds keeps the state of its reset. -/
def onLeaf (f : Leaf → Leaf) (s : State) : Host.Outcome State Fault Refusal :=
  .next (if s.leaf.u.held.isSome then s else { s with leaf := f s.leaf })

/-- A change of an input level that the host die drives: `held` is what it leaves of itself in a leaf that a reset holds (R374). -/
def onInput (held f : Leaf → Leaf) (s : State) : Host.Outcome State Fault Refusal :=
  .next (if s.leaf.u.held.isSome then { s with leaf := held s.leaf } else { s with leaf := f s.leaf })

/-- A command of the counter ring: counters go on counting through a warm reset, and only a cold one stops them (R60, R373). -/
def onRing (f : Leaf → Leaf) (s : State) : Host.Outcome State Fault Refusal :=
  .next (if s.leaf.u.held = some .cold then s else { s with leaf := f s.leaf })

/-- A command of the tray build; what its new state lets happen at once happens. A build that a reset holds keeps the state of its reset. -/
def onTray (f : Tray → Tray) (s : State) : Host.Outcome State Fault Refusal :=
  .next (if s.tray.u.held.isSome then s else { s with tray := (f s.tray).settle s.tray })

/-- A command that the two builds take each in its own way. -/
def onEither (b : Build) (f : Leaf → Leaf) (g : Tray → Tray) (s : State) : Host.Outcome State Fault Refusal :=
  match b with
  | .leaf => onLeaf f s
  | .tray => onTray g s

/-- A command of driver software through the register port of the T build: PCI Express reaches the registers from the end of the memory-tier step of the
ladder onward (R365). -/
def onBar (f : Tray → Tray) (s : State) : Host.Outcome State Fault Refusal :=
  if 2 ≤ s.tray.u.pw.step then onTray f s else .next s

/-- A command of driver software that the two builds take each in its own way. -/
def onHost (b : Build) (f : Leaf → Leaf) (g : Tray → Tray) (s : State) : Host.Outcome State Fault Refusal :=
  match b with
  | .leaf => onLeaf f s
  | .tray => onBar g s

/-- A command that acts on what both builds have. -/
def onBlk (b : Build) (f : Blk → Blk) (s : State) : Host.Outcome State Fault Refusal := onEither b (fun l => l.blk f) (fun t => t.blk f) s

/-- A command of driver software that acts on what both builds have. -/
def onHostBlk (b : Build) (f : Blk → Blk) (s : State) : Host.Outcome State Fault Refusal := onHost b (fun l => l.blk f) (fun t => t.blk f) s

/-- A command of what a warm reset leaves running: a supply warning that goes on, and the count of powered time (R373, R374). -/
def onPowered (b : Build) (f : Leaf → Leaf) (g : Tray → Tray) (s : State) : Host.Outcome State Fault Refusal :=
  match b with
  | .leaf => .next (if s.leaf.u.held = some .cold then s else { s with leaf := f s.leaf })
  | .tray => .next (if s.tray.u.held = some .cold then s else if s.tray.u.held.isSome then { s with tray := g s.tray }
      else { s with tray := (g s.tray).settle s.tray })

/-- A command of what runs on whatever a reset holds: the supply monitor and the temperature (R369, R374, R435), and the scrub of
the memory tier (R203). -/
def onSupply (b : Build) (f : Leaf → Leaf) (g : Tray → Tray) (s : State) : Host.Outcome State Fault Refusal :=
  match b with
  | .leaf => .next { s with leaf := f s.leaf }
  | .tray => .next (if s.tray.u.held.isSome then { s with tray := g s.tray } else { s with tray := (g s.tray).settle s.tray })

/-- A cold reset supersedes a warm reset in progress, and is ignored during another cold reset (R374). -/
def onReset (b : Build) (f : Leaf → Leaf) (g : Tray → Tray) (s : State) : Host.Outcome State Fault Refusal :=
  match b with
  | .leaf => .next (if s.leaf.u.held = some .cold then s else { s with leaf := f s.leaf })
  | .tray => .next (if s.tray.u.held = some .cold then s else { s with tray := g s.tray })

/-- The release of a reset reaches a build that is held. -/
def onRelease (b : Build) (f : Leaf → Leaf) (g : Tray → Tray) (s : State) : Host.Outcome State Fault Refusal :=
  match b with
  | .leaf => .next { s with leaf := f s.leaf }
  | .tray => .next { s with tray := g s.tray }

/-- One clock cycle of the leaf: time moves, due timed actions fire, a slot of the counter ring passes the stops and trace packets merge. A cold reset holds
TB1 at zero; a warm reset lets the clocks and the counter ring run (R33, R60, R373, R374). -/
def Leaf.tick (l : Leaf) : Leaf :=
  match l.u.held with
  | some .cold => l
  | some _ => (l.blk (fun u => u.adv 1)).ringCycle
  | none => (l.blk (fun u => (u.adv 1).fireDue)).ringCycle.merge

/-- One clock cycle of the tray build. -/
def Tray.tick (t : Tray) : Tray :=
  match t.u.held with
  | some .cold => t
  | some _ => t.blk (fun u => u.adv 1)
  | none => t.blk Blk.cycle

/-- One clock cycle passes in both builds: what the step does while no command waits. -/
def State.tick (s : State) : State := { s with leaf := s.leaf.tick, tray := s.tray.tick }

end Sys2Proof.Machine
end

