-- ==== Sys2Proof/Machine/ExecCompression.lean ====
section
/-!
DEFINITION. The meanings of the commands of the leaf compression engine (chapter 15).
-/

namespace Sys2Proof.Machine

/-- COMPRESSION_GO (R335): CMP.CMD.go checks and starts a leaf compression job, or is refused. -/
def execCompressionGo (s : State) : Host.Outcome State Fault Refusal :=
  onLeaf (fun l => (l.pageWritten 0x0F).cmpGo) s

/-- COMPRESSION_ABORT (R334): CMP.CMD.abort stops a leaf job as its output limit would. -/
def execCompressionAbort (produced : W32) (s : State) : Host.Outcome State Fault Refusal :=
  onLeaf (fun l => (l.pageWritten 0x0F).cmpAbort produced.toNat) s

/-- COMPRESSION_JOB_DONE (R334): A leaf compression job ends, sets done and writes compression job done. -/
def execCompressionJobDone (dmaErr : Bool) (s : State) : Host.Outcome State Fault Refusal :=
  onLeaf (fun l => l.cmpDone dmaErr) s

end Sys2Proof.Machine
end

