-- ==== Sys2Proof/Machine/ExecCounters.lean ====
section
/-!
DEFINITION. The meanings of the commands of counters, the sampler and credit (chapters 3, 20).
-/

namespace Sys2Proof.Machine

/-- RING_SLOT_ARRIVAL (R62): A counter ring slot arrives at ring-in and is checked and applied to its counter by mode, or discarded and counted. -/
def execRingSlotArrival (slot : W64) (s : State) : Host.Outcome State Fault Refusal :=
  onRing (fun l => l.slotArrival slot) s

/-- STOP_INCREMENT (R418): A source presents an increment or gauge value to its ring stop, which accumulates it for a later free slot. -/
def execStopIncrement (base : BitVec 14) (src : Fin 64) (inc : W16) (gauge : Option W32) (s : State) : Host.Outcome State Fault Refusal :=
  onRing (fun l => l.stopIncrement base.toNat src inc.toNat gauge) s

/-- STOP_BYPASS (R418): Raising stop_byp makes a ring stop pass slots unchanged and drop its accumulators. -/
def execStopBypass (base : BitVec 14) (byp : Bool) (s : State) : Host.Outcome State Fault Refusal :=
  onRing (fun l => l.stopBypass base.toNat byp) s

/-- HELD_SLOT_READ (R63): A held slot falls due L cycles after launch and the leaf performs its counter read, starting a latency measurement if the slot was lost. -/
def execHeldSlotRead (lost : Bool) (s : State) : Host.Outcome State Fault Refusal :=
  onRing (fun l => l.heldRead lost) s

/-- RING_CALIBRATE (R64): Writing SMP.CTL.cal launches a latency marker to measure the ring latency L. -/
def execRingCalibrate (s : State) : Host.Outcome State Fault Refusal :=
  onLeaf (fun l => (l.pageWritten 0x03).calibrate) s

/-- LATENCY_MARKER_RETURN (R64): The current latency marker returns, setting L and clearing any ring fault. -/
def execLatencyMarkerReturn (s : State) : Host.Outcome State Fault Refusal :=
  onLeaf (fun l => l.markerReturn) s

/-- RING_FAULT (R64): The latency marker has not returned after 65,536 cycles; the leaf declares a ring fault and writes a record. -/
def execRingFault (s : State) : Host.Outcome State Fault Refusal :=
  onLeaf (fun l => l.ringFault) s

/-- UNPRIVILEGED_COUNTER_ACCESS (R67): An unprivileged access to a privileged counter register returns zero or is ignored, is counted and writes a record. -/
def execUnprivilegedCounterAccess (s : State) : Host.Outcome State Fault Refusal :=
  onLeaf (fun l => l.unprivileged) s

/-- COUNTER_CAPTURE (R68): A write to CNT.IDX with clr clear requests a capture of the indexed counter through a held slot. -/
def execCounterCapture (auto : Bool) (n : BitVec 13) (s : State) : Host.Outcome State Fault Refusal :=
  onLeaf (fun l => (l.pageWritten 0x04).capture auto n.toNat) s

/-- CAPTURE_COMPLETE (R68): A requested capture completes, filling VAL and CAP and setting rdy. -/
def execCaptureComplete (s : State) : Host.Outcome State Fault Refusal :=
  onLeaf (fun l => l.captureComplete) s

/-- COUNTER_CLEAR (R68): A write to CNT.IDX with clr set clears the indexed counter and its overflow bit through one held slot. -/
def execCounterClear (auto : Bool) (n : BitVec 13) (s : State) : Host.Outcome State Fault Refusal :=
  onLeaf (fun l => (l.pageWritten 0x04).clearReq auto n.toNat) s

/-- CLRALL (R68): Writing 1 to CNT.CLRALL clears every counter using 8,192 held slots. -/
def execClrall (s : State) : Host.Outcome State Fault Refusal :=
  onLeaf (fun l => (l.pageWritten 0x04).clrAll) s

/-- CAP_H_AUTO_READ (R68): With IDX.auto set, reading CAP_H advances the index and requests the next capture. -/
def execCapHAutoRead (s : State) : Host.Outcome State Fault Refusal :=
  onLeaf (fun l => l.capHRead) s

/-- WINDOW_EDGE (R69): A bandwidth-window unit reaches a TB1 edge and publishes its byte count to LAST, sets valid and restarts. -/
def execWindowEdge (unit : Fin 64) (s : State) : Host.Outcome State Fault Refusal :=
  onLeaf (fun l => l.windowEdge unit) s

/-- SEL_SWAP (R70): Writing SEL.SWAP requests activation of a slot's editable selection bank at its next accepted mark. -/
def execSelSwap (slot : Fin 2) (s : State) : Host.Outcome State Fault Refusal :=
  onLeaf (fun l => l.selSwap slot) s

/-- SAMPLE_READ_COMPLETE (R74): The last feature of a sample read is read; baselines update, and the sample is decimated, withheld or built into a frame. -/
def execSampleReadComplete (s : State) : Host.Outcome State Fault Refusal :=
  onLeaf (fun l => l.sampleComplete) s

/-- CREDIT_MESSAGE (R83): A leaf receives a credit message, adds the grant and takes the level at the slot's next mark. -/
def execCreditMessage (slot : Fin 2) (level : BitVec 2) (grant : W16) (s : State) : Host.Outcome State Fault Refusal :=
  onLeaf (fun l => l.credit slot level.toNat grant.toNat) s

/-- CREDIT_RETURN (R84): The level-1 T build sends a credit message once 16 places are waiting or 1 ms after the first freed, setting the decimation level. -/
def execCreditReturn (ring : Fin 2048) (s : State) : Host.Outcome State Fault Refusal :=
  onTray (fun t => t.creditReturn ring) s

end Sys2Proof.Machine
end

