-- ==== Sys2Proof/Machine/ExecErrors.lean ====
section
/-!
DEFINITION. The meanings of the commands of debug mode, injection and the error interrupt (chapter 18).
-/

namespace Sys2Proof.Machine

/-- DEBUG_MODE_WRITE (R389): A keyed write to BLK.DBG changes debug mode and writes debug mode changed. -/
def execDebugModeWrite (b : Build) (w : W32) (s : State) : Host.Outcome State Fault Refusal :=
  onHostBlk b (fun u => u.debugWrite w) s

/-- INJECTION_KEY (R390): A write of an arming key to PGINJSEL advances the arming sequence. -/
def execInjectionKey (b : Build) (page : BitVec 8) (w : W32) (s : State) : Host.Outcome State Fault Refusal :=
  onHost b (fun l => l.headAt page.toNat H.PGINJSEL w) (fun t => t.headAt page.toNat H.PGINJSEL w) s

/-- INJECTION_ARM (R390): A write of 1 to a PGINJ bit arms an injection, firing memory kinds at once. -/
def execInjectionArm (b : Build) (page : BitVec 8) (w : W32) (s : State) : Host.Outcome State Fault Refusal :=
  onHost b (fun l => l.headAt page.toNat H.PGINJ w) (fun t => t.headAt page.toNat H.PGINJ w) s

/-- CORRECTED_ERROR_SECOND (R385): A TB1 second ends and corrected errors at or above CELIM write a record. -/
def execCorrectedErrorSecond (b : Build) (s : State) : Host.Outcome State Fault Refusal :=
  onEither b (fun l => l.blk (fun u => u.correctedSecond 1000000000)) (fun t => t.blk (fun u => u.correctedSecond 312500000)) s

/-- ERROR_INTERRUPT_ENABLE (R383): Writing ERR.CTL.ie from 0 to 1 with a SUM bit set sends the error interrupt. -/
def execErrorInterruptEnable (b : Build) (w : W32) (s : State) : Host.Outcome State Fault Refusal :=
  onHostBlk b (fun u => (u.pageWritten 0x15 0).errCtl (setBit w 31 true)) s

end Sys2Proof.Machine
end

