-- ==== Sys2Proof/Machine/ExecEvents.lean ====
section
/-!
DEFINITION. The meanings of the commands of host event queues and interrupts (chapter 14).
-/

namespace Sys2Proof.Machine

/-- EVENT_RECORD_WRITE_ACK (R304): The leaf's DMA port acknowledges a record body or word-0 write and the next write or PI advance follows. -/
def execEventRecordWriteAck (s : State) : Host.Outcome State Fault Refusal :=
  onLeaf (fun l => l.hevAck) s

/-- EVENT_RECORD_STAGE (R310): A T-build record takes a staging place in its queue and is written to the host ring, or is lost and counted. -/
def execEventRecordStage (s : State) : Host.Outcome State Fault Refusal :=
  onTray (fun t => t.stageEvent) s

/-- CI_WRITE (R303): Driver software writes a host event queue's consumer index, freeing places for waiting records. -/
def execCiWrite (b : Build) (evq : Fin 512) (w : W32) (s : State) : Host.Outcome State Fault Refusal :=
  onHost b (fun l => (l.pageWritten 0x16).hevCi w) (fun t => t.evCiWrite evq w) s

/-- COALESCING_TIMER (R306): The oldest unsignalled record has waited ctim and an interrupt is sent. -/
def execCoalescingTimer (b : Build) (evq : Fin 512) (s : State) : Host.Outcome State Fault Refusal :=
  onEither b (fun l => l.hevTimer) (fun t => t.evTimer evq) s

/-- EVENT_DMA_ERROR (R307): A DMA error on an event write stops the leaf's host queue and sets dma_err. -/
def execEventDmaError (s : State) : Host.Outcome State Fault Refusal :=
  onLeaf (fun l => l.hevError) s

/-- EVENT_QUEUE_ENABLE (R307): Setting HEV.CTL.en zeroes PI and CI and restarts writing records held in the RAM ring. -/
def execEventQueueEnable (b : Build) (evq : Fin 512) (w : W32) (s : State) : Host.Outcome State Fault Refusal :=
  onHost b (fun l => (l.pageWritten 0x16).hevEnable) (fun t => t.evCfg evq (setBit w 31 true)) s

/-- BUS_MASTER_ENABLE (R372): After a PCI Express link reset, host software sets Bus Master Enable again and the T build resumes writing records, harvests and manifests to host memory. -/
def execBusMasterEnable (s : State) : Host.Outcome State Fault Refusal :=
  onTray (fun t => t.busMaster) s

/-- MSIX_VECTOR_UNMASK (R312): Host software unmasks an MSI-X vector whose pending bit is set, and the held interrupt message is sent. -/
def execMsixVectorUnmask (vector : Fin 64) (s : State) : Host.Outcome State Fault Refusal :=
  onBar (fun t => t.unmask vector) s

end Sys2Proof.Machine
end

