-- ==== Sys2Proof/Machine/ExecHealth.lean ====
section
/-!
DEFINITION. The meanings of the commands of health, containment and the expulsion budget (chapter 13).
-/

namespace Sys2Proof.Machine

/-- HEALTH_ENABLE (R277): Writing HLT.SCFG.en enables a slot's health unit after its checks, or is refused. -/
def execHealthEnable (slot : Fin 64) (w : W32) (s : State) : Host.Outcome State Fault Refusal :=
  onBar (fun t => t.scfgWrite slot (setBit w 31 true)) s

/-- REFERENCE_MESSAGE (R281): A T build receives a job-wide reference, applies it if newer and forwards it. -/
def execReferenceMessage (body : List Byte) (s : State) : Host.Outcome State Fault Refusal :=
  onTray (fun t => t.refReceive body) s

/-- CONTAINMENT_REQUEST (R293): A leaf receives a containment request, applies it on the host handshake or acknowledges a duplicate. -/
def execContainmentRequest (m : CtnMsg) (s : State) : Host.Outcome State Fault Refusal :=
  onLeaf (fun l => l.ctnRequest m) s

/-- CONTAINMENT_HOST_ACK (R293): The host raises or lowers a containment acknowledge and the leaf acknowledges upward. -/
def execContainmentHostAck (kind : Fin 3) (level : Bool) (s : State) : Host.Outcome State Fault Refusal :=
  onInput (fun l => l.ctnLevel (kind + 1) level) (fun l => l.ctnHostAck (kind + 1) level) s

/-- CONTAINMENT_ACK_TIMEOUT (R293): The host does not answer within CTN.ACKTO and the leaf acknowledges with status 1. -/
def execContainmentAckTimeout (s : State) : Host.Outcome State Fault Refusal :=
  onLeaf (fun l => l.ctnTimeout) s

/-- CONTAINMENT_ACKNOWLEDGEMENT (R292): The T build receives a leaf's acknowledgement and ends the CONTAIN command. -/
def execContainmentAcknowledgement (m : CtnMsg) (s : State) : Host.Outcome State Fault Refusal :=
  onTray (fun t => t.containAck m) s

/-- CONTAINMENT_UNACKNOWLEDGED (R292): No acknowledgement within HLT.ACKTO ends CONTAIN with status 9. -/
def execContainmentUnacknowledged (q : Fin 1536) (s : State) : Host.Outcome State Fault Refusal :=
  onTray (fun t => t.containUnacked q) s

/-- STATE_QUERY (R295): A leaf answers a containment state query with its active outputs and last rseq. -/
def execStateQuery (m : CtnMsg) (s : State) : Host.Outcome State Fault Refusal :=
  onLeaf (fun l => l.ctnQuery m) s

/-- STATE_QUERY_ANSWER (R295): The health unit sets a die's state from the query answer and writes health state restored. -/
def execStateQueryAnswer (m : CtnMsg) (s : State) : Host.Outcome State Fault Refusal :=
  onTray (fun t => t.queryAnswer m) s

/-- GRANT_REQUEST (R297): A budget holder judges a grant request and grants or denies it, or a non-holder forwards it. -/
def execGrantRequest (m : CtnMsg) (s : State) : Host.Outcome State Fault Refusal :=
  onTray (fun t => t.grantRequest m) s

/-- GRANT (R299): A granted die at the expel level is expelled, or the grant is returned. -/
def execGrant (m : CtnMsg) (s : State) : Host.Outcome State Fault Refusal :=
  onTray (fun t => t.grant m) s

/-- DENY (R299): A denied die becomes held and die held is written. -/
def execDeny (m : CtnMsg) (s : State) : Host.Outcome State Fault Refusal :=
  onTray (fun t => t.deny m) s

/-- GRANT_TIMEOUT (R299): No answer to a grant request within ACKTO is taken as a deny with status 3. -/
def execGrantTimeout (slot : Fin 64) (member : Byte) (s : State) : Host.Outcome State Fault Refusal :=
  onTray (fun t => t.grantTimeout slot member.toNat) s

/-- GRANT_RETURNED (R299): The holder receives a returned grant and subtracts it from g. -/
def execGrantReturned (m : CtnMsg) (s : State) : Host.Outcome State Fault Refusal :=
  onTray (fun t => t.grantReturned m) s

/-- SPARES_WRITE (R300): A write to HLT.SPARES sets S, clears g and r and sends budget open. -/
def execSparesWrite (slot : Fin 64) (w : W32) (s : State) : Host.Outcome State Fault Refusal :=
  onBar (fun t => t.sparesWrite slot w) s

/-- BUDGET_OPEN (R300): A budget-open message applies r, re-arms held dies and is forwarded, or reveals a duplicate holder. -/
def execBudgetOpen (m : CtnMsg) (s : State) : Host.Outcome State Fault Refusal :=
  onTray (fun t => t.budgetOpen m) s

end Sys2Proof.Machine
end

