-- ==== Sys2Proof/Machine/ExecHistory.lean ====
section
/-!
DEFINITION. The meanings of the commands of event records, the history and cones (chapter 5).
-/

namespace Sys2Proof.Machine

/-- EVENT_REPORT (R107): A sub-block reports an event; the recorder folds it as a repeat or creates a record, losing it if the ring is full. -/
def execEventReport (b : Build) (page : Byte) (code : W16) (sev : BitVec 3) (flash : FlashRule) (slot : Option (Fin 64)) (payload : BitVec 160) (s : State) : Host.Outcome State Fault Refusal :=
  onBlk b (fun u => u.report (rk page.toNat code.toNat sev.toNat flash) (match slot with | some n => .slot n | none => .dflt) payload) s

/-- RECORD_WINDOW_END (R107): The open record's COAL window ends and the record closes for hand-off to the host event queue. -/
def execRecordWindowEnd (b : Build) (s : State) : Host.Outcome State Fault Refusal :=
  onBlk b (fun u => u.windowEnd) s

/-- FLASH_PROGRAM_DONE (R111): A flash program of a history record completes and the next program or block step starts. -/
def execFlashProgramDone (b : Build) (fail : Bool) (s : State) : Host.Outcome State Fault Refusal :=
  onBlk b (fun u => (u.flashProgramDone fail).parkSettle) s

/-- FLASH_ERASE_DONE (R115): A flash block erase completes and waiting history records proceed. -/
def execFlashEraseDone (b : Build) (fail : Bool) (s : State) : Host.Outcome State Fault Refusal :=
  onBlk b (fun u => (u.flashEraseDone fail).parkSettle) s

/-- HISTORY_ENABLE (R113): The first write of 1 to HIS.CTL.en after a cold reset starts the history scan. -/
def execHistoryEnable (b : Build) (susp : Bool) (s : State) : Host.Outcome State Fault Refusal :=
  onHostBlk b (fun u => ((u.pageWritten 0x09 0).hisEnable susp).flashStart) s

/-- HISTORY_SCAN_DONE (R113): The history scan ends, restoring the write position, power-cycle count, operating seconds and cones and writing history resumed. -/
def execHistoryScanDone (b : Build) (s : State) : Host.Outcome State Fault Refusal :=
  onBlk b (fun u => u.hisScanDone) s

/-- HISTORY_FORMAT (R113): Writing HIS.CTL.fmt erases the region and opens block 0 at generation 0. -/
def execHistoryFormat (b : Build) (s : State) : Host.Outcome State Fault Refusal :=
  onHostBlk b (fun u => (u.pageWritten 0x09 0).hisFormat) s

/-- OPERATING_MINUTE (R114): Each minute of operating time ticks the operating-time record's thermometer, or writes a new one at the 65th. -/
def execOperatingMinute (b : Build) (s : State) : Host.Outcome State Fault Refusal :=
  onPowered b (fun l => l.blk (fun u => u.operatingMinute)) (fun t => t.blk (fun u => u.operatingMinute)) s

/-- HISTORY_READ (R117): A write to HIS.RPOS starts a flash read of one history place. -/
def execHistoryRead (b : Build) (w : W32) (s : State) : Host.Outcome State Fault Refusal :=
  onHostBlk b (fun u => (u.pageWritten 0x09 0).hisRead w) s

/-- HISTORY_READ_DONE (R117): The history read completes, filling RDATA and setting rdy. -/
def execHistoryReadDone (b : Build) (s : State) : Host.Outcome State Fault Refusal :=
  onBlk b (fun u => u.hisReadDone) s

/-- OPERATING_SECOND (R106): A second of powered time passes; operating seconds advance and every live cone adds its heat-work weight. -/
def execOperatingSecond (b : Build) (codes : List (Option (BitVec 6))) (s : State) : Host.Outcome State Fault Refusal :=
  onPowered b (fun l => l.blk (fun u => u.operatingSecond codes)) (fun t => t.blk (fun u => u.operatingSecond codes)) s

/-- CONE_ENABLE (R119): Enabling a cone starts a read of its part's identity. -/
def execConeEnable (b : Build) (cone : Byte) (w : W32) (s : State) : Host.Outcome State Fault Refusal :=
  onHostBlk b (fun u => u.coneCfg cone.toNat (setBit w 31 true)) s

/-- CONE_POLL (R119): The CONE.POLL interval passes and the leaf reads the cone's part identity. -/
def execConePoll (b : Build) (cone : Byte) (s : State) : Host.Outcome State Fault Refusal :=
  onBlk b (fun u => u.conePoll cone.toNat) s

/-- IDENTITY_READ_DONE (R119): A part identity read completes, fails or times out, and the cone matches, marks absent, or archives and rebinds. -/
def execIdentityReadDone (b : Build) (cone : Byte) (ident : Option (BitVec 128)) (s : State) : Host.Outcome State Fault Refusal :=
  onBlk b (fun u => u.identityDone cone.toNat ident) s

/-- CONE_RESTART (R119): CONE.CMD.restart archives and restarts the selected cone with its identity. -/
def execConeRestart (b : Build) (s : State) : Host.Outcome State Fault Refusal :=
  onHostBlk b (fun u => u.coneRestart) s

/-- CONE_CHECKPOINT (R121): Every CKPT minutes a checkpoint record is written for each cone whose state changed. -/
def execConeCheckpoint (b : Build) (cone : Byte) (s : State) : Host.Outcome State Fault Refusal :=
  onBlk b (fun u => u.checkpointDue cone.toNat) s

end Sys2Proof.Machine
end

