-- ==== Sys2Proof/Machine/ExecIdent.lean ====
section
/-!
DEFINITION. The meanings of the commands of identity, configuration and attestation (chapter 19).
-/

namespace Sys2Proof.Machine

/-- ENROLL (R396): IDN.CMD.enroll measures the PUF afresh and writes new helper data. -/
def execEnroll (b : Build) (s : State) : Host.Outcome State Fault Refusal :=
  onHostBlk b (fun u => u.enroll) s

/-- INSTALL_CERTS (R397): IDN.CMD.certs reads a certificate chain and writes it to flash, or refuses it. -/
def execInstallCerts (b : Build) (verdict : BitVec 3) (flashOk : Bool) (s : State) : Host.Outcome State Fault Refusal :=
  onHost b (fun l => l.installCerts verdict.toNat flashOk) (fun t => t.installCerts verdict.toNat flashOk) s

/-- CONFIGURATION_APPLY (R401): IDN.CMD.apply verifies a configuration blob and writes and applies it, or refuses it. -/
def execConfigurationApply (b : Build) (v : SigVerdict) (flashOk : Bool) (s : State) : Host.Outcome State Fault Refusal :=
  onHost b (fun l => l.cfgApply v flashOk) (fun t => t.cfgApply v flashOk) s

/-- REPORT_REQUEST (R404): IDN.CMD.report writes a signed attestation report to RPTADDR and sets rdy. -/
def execReportRequest (b : Build) (s : State) : Host.Outcome State Fault Refusal :=
  onHost b (fun l => l.report) (fun t => t.report) s

/-- MEASUREMENT_EXTEND (R403): A write to IDN.EXTIDX extends M4 to M7 with EXTBUF. -/
def execMeasurementExtend (b : Build) (w : W32) (s : State) : Host.Outcome State Fault Refusal :=
  onHostBlk b (fun u => u.extIdx w) s

/-- ATTESTATION_REQUEST (R404): A child receives an attestation request and answers with a report. -/
def execAttestationRequest (b : Build) (nonce : List Byte) (s : State) : Host.Outcome State Fault Refusal :=
  onBlk b (fun u => u.attestAnswer (bytesAt nonce 0 32)) s

/-- ATTESTATION_REPORT (R404): A parent receives an attestation report or certificate part from a child. -/
def execAttestationReport (link : Byte) (body : List Byte) (s : State) : Host.Outcome State Fault Refusal :=
  onTray (fun t => t) s

end Sys2Proof.Machine
end

