-- ==== Sys2Proof/Machine/ExecJobs.lean ====
section
/-!
DEFINITION. The meanings of the commands of job start, teardown, census, spares and replay (chapter 16).
-/

namespace Sys2Proof.Machine

/-- START_PART (R342): A T build receives start descriptor parts, caches them, acknowledges and forwards them. -/
def execStartPart (link : Byte) (m : StartMsg) (s : State) : Host.Outcome State Fault Refusal :=
  onTray (fun t => t.startPart link.toNat m) s

/-- HOP_ACKNOWLEDGEMENT (R344): A parent receives a child's hop acknowledgement, orphaning it on status 1 or counting coverage. -/
def execHopAcknowledgement (link : Byte) (m : StartMsg) (s : State) : Host.Outcome State Fault Refusal :=
  onTray (fun t => t.hopAcked link.toNat m) s

/-- HOP_TIMEOUT (R344): No hop acknowledgement within HOPTO marks the child's subtree orphaned. -/
def execHopTimeout (job : W32) (bseq : W32) (link : Byte) (s : State) : Host.Outcome State Fault Refusal :=
  onTray (fun t => t.hopTimeout job bseq link.toNat) s

/-- LEAF_ATTACH (R339): A leaf receives leaf attach, sets job, epoch and en, and acknowledges. -/
def execLeafAttach (m : StartMsg) (s : State) : Host.Outcome State Fault Refusal :=
  onLeaf (fun l => l.leafAttach m) s

/-- LEAF_ACKNOWLEDGEMENT (R340): The level-1 T build receives a leaf's attach acknowledgement. -/
def execLeafAcknowledgement (m : StartMsg) (s : State) : Host.Outcome State Fault Refusal :=
  onTray (fun t => t.leafAcked m) s

/-- LEAF_NOT_ATTACHED (R340): A leaf does not acknowledge attach within HOPTO and leaf not attached is written. -/
def execLeafNotAttached (job : W32) (bseq : W32) (leaf : W32) (s : State) : Host.Outcome State Fault Refusal :=
  onTray (fun t => t.leafTimeout job bseq leaf) s

/-- TEARDOWN_PART (R348): A T build receives teardown parts on the bulk queue and applies its members. -/
def execTeardownPart (link : Byte) (m : StartMsg) (s : State) : Host.Outcome State Fault Refusal :=
  onTray (fun t => t.teardownPart link.toNat m) s

/-- TEARDOWN_RESEND (R348): A teardown part's hop acknowledgement is missing after HOPTO and the part is resent or the child orphaned. -/
def execTeardownResend (job : W32) (bseq : W32) (link : Byte) (s : State) : Host.Outcome State Fault Refusal :=
  onTray (fun t => t.teardownResend job bseq link.toNat) s

/-- LEAF_DETACH (R348): A leaf receives leaf detach, clears the slot's en and writes slot detached. -/
def execLeafDetach (slot : Fin 2) (s : State) : Host.Outcome State Fault Refusal :=
  onLeaf (fun l => l.leafDetach slot) s

/-- RELEASE_DEADLINE (R351): The start's release deadline passes with a claimed resource held and the node forces the release. -/
def execReleaseDeadline (job : W32) (s : State) : Host.Outcome State Fault Refusal :=
  onTray (fun t => t.releaseDeadline job) s

/-- CENSUS_REPORT (R355): The census holder records a member's chunk digest and decides pairs and writers. -/
def execCensusReport (body : List Byte) (s : State) : Host.Outcome State Fault Refusal :=
  onTray (fun t => t.censusReport body) s

/-- HOLDER_STATE_REPORT (R356): A liveness change updates the census, replacing writers, raising thin chunks or failing the checkpoint. -/
def execHolderStateReport (body : List Byte) (s : State) : Host.Outcome State Fault Refusal :=
  onTray (fun t => t.holderReport none body) s

/-- WRITTEN_REPORT (R357): A written report marks a chunk written and may complete the checkpoint and write the manifest. -/
def execWrittenReport (body : List Byte) (s : State) : Host.Outcome State Fault Refusal :=
  onTray (fun t => t.writtenReport body) s

/-- CENSUS_DEADLINE (R358): The census deadline passes and the checkpoint fails with reason 3. -/
def execCensusDeadline (slot : Fin 64) (s : State) : Host.Outcome State Fault Refusal :=
  onTray (fun t => t.censusDeadline slot) s

/-- COPIED_REPORT (R361): A copied report marks a spare chunk done and may write spare ready. -/
def execCopiedReport (body : List Byte) (s : State) : Host.Outcome State Fault Refusal :=
  onTray (fun t => t.copiedReport body) s

/-- REPLAY_ARM (R362): A leaf receives replay arm, writes IDX_SET and takes the epoch at the next mark. -/
def execReplayArm (m : StartMsg) (s : State) : Host.Outcome State Fault Refusal :=
  onLeaf (fun l => l.replayArm m) s

end Sys2Proof.Machine
end

