-- ==== Sys2Proof/Machine/ExecKiln.lean ====
section
/-!
DEFINITION. The meanings of the commands of the kiln sitter and dumps (chapter 6).
-/

namespace Sys2Proof.Machine

/-- HEARTBEAT (R122): A transition of ks_hb restarts the engine's watch timer, or is a late beat when the engine is hung. -/
def execHeartbeat (engine : Fin 64) (beat : Bool) (idle : Bool) (s : State) : Host.Outcome State Fault Refusal :=
  onInput (fun l => l.idleLevel engine idle) (fun l => l.heartbeat engine beat idle) s

/-- ENGINE_EXPIRY (R124): An engine's watch timer reaches TO; it becomes hung, its suspects freeze, a dump may start and engine hung is written. -/
def execEngineExpiry (engine : Fin 64) (s : State) : Host.Outcome State Fault Refusal :=
  onLeaf (fun l => l.engineExpiry engine) s

/-- CONTEXT_EVENT (R125): A context start or end event updates the engine's live context table. -/
def execContextEvent (engine : Fin 64) (start : Bool) (id : W32) (queue : W16) (s : State) : Host.Outcome State Fault Refusal :=
  onLeaf (fun l => l.context engine start id queue) s

/-- RESET_DELAY_EXPIRY (R124): RSTDLY after an expiry passes before the dump ends, and the leaf raises the domain reset request. -/
def execResetDelayExpiry (engine : Fin 64) (s : State) : Host.Outcome State Fault Refusal :=
  onLeaf (fun l => l.resetDelay engine) s

/-- RESET_DONE (R129): rst_done arrives for a domain; hung engines clear, timers restart, requests lower and reset done is written. -/
def execResetDone (dom : Fin 16) (answer : DomAnswer) (edges : BitVec 256) (s : State) : Host.Outcome State Fault Refusal :=
  onInput (fun l => l.domLevels dom answer.ack answer.done edges) (fun l => l.resetDone dom answer.ack answer.done edges) s

/-- RESET_ESCALATED (R127): The escalation time passes without done; the leaf raises the next domain's request or writes reset hung at top. -/
def execResetEscalated (dom : Fin 16) (s : State) : Host.Outcome State Fault Refusal :=
  onLeaf (fun l => l.escalate dom) s

/-- HUNG_CLEAR (R129): KST.CMD with hclr clears an engine's hung state without a reset. -/
def execHungClear (engine : Fin 64) (s : State) : Host.Outcome State Fault Refusal :=
  onLeaf (fun l => (l.pageWritten 0x0B).hungClear engine) s

/-- SOFTWARE_RESET_REQUEST (R129): KST.CMD with rreq makes a software reset request on a domain. -/
def execSoftwareResetRequest (dom : Fin 16) (s : State) : Host.Outcome State Fault Refusal :=
  onLeaf (fun l => (l.pageWritten 0x0B).softReset dom) s

/-- SUSPECT_CLEAR (R125): KST.CMD with sclr clears an engine's suspect list. -/
def execSuspectClear (engine : Fin 64) (s : State) : Host.Outcome State Fault Refusal :=
  onLeaf (fun l => (l.pageWritten 0x0B).suspectClear engine) s

/-- REPLAY_BEGIN (R130): Setting KST.RPL.en starts replay mode for an engine with a tag and shift and writes replay begin. -/
def execReplayBegin (w : W32) (s : State) : Host.Outcome State Fault Refusal :=
  onLeaf (fun l => (l.pageWritten 0x0B).replayWrite (setBit w 31 true)) s

/-- REPLAY_END (R130): Clearing KST.RPL.en ends replay mode and writes replay end. -/
def execReplayEnd (w : W32) (s : State) : Host.Outcome State Fault Refusal :=
  onLeaf (fun l => (l.pageWritten 0x0B).replayWrite (setBit w 31 false)) s

/-- DUMP_GO (R134): DMP.CMD.go triggers a software dump, or holds it pending while a dump runs. -/
def execDumpGo (s : State) : Host.Outcome State Fault Refusal :=
  onLeaf (fun l => (l.pageWritten 0x0C).dumpGo) s

/-- DUMP_ABORT (R134): DMP.CMD.abort ends the current dump with trailer status 3. -/
def execDumpAbort (s : State) : Host.Outcome State Fault Refusal :=
  onLeaf (fun l => (l.pageWritten 0x0C).dumpAbort) s

/-- DUMP_RELEASE (R135): DMP.CMD.release releases the last DMA dump, clearing unread. -/
def execDumpRelease (s : State) : Host.Outcome State Fault Refusal :=
  onLeaf (fun l => (l.pageWritten 0x0C).dumpRelease) s

/-- DUMP_ACCESS_DONE (R131): A debug-master read returns to the dump walker, which records the word and issues the next access. -/
def execDumpAccessDone (v : W32) (err : Bool) (s : State) : Host.Outcome State Fault Refusal :=
  onLeaf (fun l => l.dumpAccess v err) s

/-- DUMP_ACCESS_TIMEOUT (R132): A dump access exceeds DMP.ATO and yields a placeholder, or skips the rest of the descriptor after four failures. -/
def execDumpAccessTimeout (s : State) : Host.Outcome State Fault Refusal :=
  onLeaf (fun l => l.dumpAccessTimeout) s

/-- WALK_TIMEOUT (R133): A walk reaches DMP.WTO and ends with trailer status 1. -/
def execWalkTimeout (s : State) : Host.Outcome State Fault Refusal :=
  onLeaf (fun l => l.walkTimeout) s

/-- DUMP_WRITE_STALL (R135): A dump write is unacknowledged for DTO or errs, and the dump restarts on the fallback path or is lost. -/
def execDumpWriteStall (err : Bool) (s : State) : Host.Outcome State Fault Refusal :=
  onLeaf (fun l => l.dumpStall err) s

/-- DUMP_TRAILER_ACK (R136): The dump trailer write is acknowledged; dump done is written, unread is set and any pending trigger starts. -/
def execDumpTrailerAck (s : State) : Host.Outcome State Fault Refusal :=
  onLeaf (fun l => l.dumpTrailerAck) s

/-- DUMP_SEGMENT_RECEIVE (R137): A T build stores a leaf dump segment in its dump area, writing leaf dump stored at the end, or refuses it. -/
def execDumpSegmentReceive (link : Byte) (leaf : W32) (body : List Byte) (s : State) : Host.Outcome State Fault Refusal :=
  onTray (fun t => t.dumpSegment link.toNat leaf body) s

/-- DUMP_REFUSAL (R137): A leaf receives a dump refusal, ends the walk and writes dump lost. -/
def execDumpRefusal (id : W32) (s : State) : Host.Outcome State Fault Refusal :=
  onLeaf (fun l => l.dumpRefused id) s

end Sys2Proof.Machine
end

