-- ==== Sys2Proof/Machine/ExecLinks.lean ====
section
/-!
DEFINITION. The meanings of the commands of frames, links and the egress scheduler (chapter 8).
-/

namespace Sys2Proof.Machine

/-- RECEIVE_PACKET (R160): A packet received on the frame port or an Ethernet port is checked, decrypted and dispatched, or discarded with a cause. -/
def execReceivePacket (b : Build) (p : Packet) (s : State) : Host.Outcome State Fault Refusal :=
  onEither b (fun l => l.receive p) (fun t => t.receive p) s

/-- CONTROL_RECEIVE (R166): A control message is accepted in lseq order, acted on or relayed, and acknowledged, or discarded. -/
def execControlReceive (b : Build) (link : Byte) (p : Packet) (s : State) : Host.Outcome State Fault Refusal :=
  onEither b (fun l => l.controlReceive p.lseq p.restart p.body p.verdict) (fun t => t.controlReceive link.toNat p) s

/-- LINK_ACKNOWLEDGEMENT (R166): A link acknowledgement releases retained control messages up to its lseq. -/
def execLinkAcknowledgement (b : Build) (link : Byte) (lseq : W32) (s : State) : Host.Outcome State Fault Refusal :=
  onEither b (fun l => l.blk (fun u => u.linkAck 0 lseq)) (fun t => t.linkAck link.toNat lseq) s

/-- ACK_TIMEOUT (R166): The oldest retained message goes ACKTO without release; the sender resends, or after RETRY declares the link down. -/
def execAckTimeout (b : Build) (link : Byte) (s : State) : Host.Outcome State Fault Refusal :=
  onEither b (fun l => l.ackTimeout) (fun t => t.ackTimeout link.toNat) s

/-- RESTART_RESEND (R166): While the link is down, every 16 × ACKTO the oldest retained message is resent with restart. -/
def execRestartResend (b : Build) (link : Byte) (s : State) : Host.Outcome State Fault Refusal :=
  onEither b (fun l => l.blk (fun u => u.restartResend 0)) (fun t => t.blk (fun u => u.restartResend link.toNat)) s

/-- PACKET_SENT (R170): The port finishes a packet or is idle and the scheduler picks the next eligible message. -/
def execPacketSent (b : Build) (port : Fin 8) (s : State) : Host.Outcome State Fault Refusal :=
  onEither b (fun l => l.packetSent) (fun t => t.packetSent port) s

/-- MAILBOX_SEND (R169): Writing LNK.TXCTL with go commits the mailbox body on queue 0, 1 or 7, or refuses it. -/
def execMailboxSend (b : Build) (w : W32) (s : State) : Host.Outcome State Fault Refusal :=
  onHostBlk b (fun u => (u.pageWritten 0x10 0).mailboxSend w) s

/-- GATE_SWAP (R172): Writing SCH.CTL.swap requests the gate-list bank swap at the next cycle start. -/
def execGateSwap (b : Build) (port : Fin 8) (s : State) : Host.Outcome State Fault Refusal :=
  onHost b (fun l => l.blk (fun u => u.gateSwap 0)) (fun t => t.blk (fun u => u.gateSwap port)) s

/-- GATE_ENTRY_CHANGE (R172): A gate-list entry's duration ends or a cycle starts and the gate mask in force changes. -/
def execGateEntryChange (b : Build) (port : Fin 8) (s : State) : Host.Outcome State Fault Refusal :=
  onEither b (fun l => l.blk (fun u => u.gateEntryChange 0)) (fun t => t.blk (fun u => u.gateEntryChange port)) s

/-- LAUNCH_TIME (R175): A timed message's launch time is reached and it becomes eligible. -/
def execLaunchTime (b : Build) (port : Fin 8) (s : State) : Host.Outcome State Fault Refusal :=
  onEither b (fun l => l.blk (fun u => u.launchTime 0)) (fun t => t.blk (fun u => u.launchTime port)) s

/-- QUEUE_SAMPLE (R176): Every 2^SPER cycles the scheduler samples each queue's depth and head delay. -/
def execQueueSample (b : Build) (port : Fin 8) (s : State) : Host.Outcome State Fault Refusal :=
  onEither b (fun l => l.hevHand.blk (fun u => u.queueSample 0)) (fun t => t.blk (fun u => u.queueSample port)) s

/-- TSQ_E3_READ (R177): Reading TSQ.E3 removes the head entry of the transmit timestamp queue. -/
def execTsqE3Read (b : Build) (s : State) : Host.Outcome State Fault Refusal :=
  onHostBlk b (fun u => u.tsqE3Read) s

/-- SEGMENT_RECEIVE (R179): A T build reassembles a frame segment; complete frames pass the CRC and go to the ingest ring in seq order. -/
def execSegmentReceive (leaf : W32) (body : List Byte) (s : State) : Host.Outcome State Fault Refusal :=
  onTray (fun t => t.segment leaf body) s

/-- REASSEMBLY_TIMEOUT (R179): ING.RTO passes after a frame's last segment and the incomplete frame is discarded and its credit returned. -/
def execReassemblyTimeout (k : BitVec 18) (s : State) : Host.Outcome State Fault Refusal :=
  onTray (fun t => t.asmTimeout k.toNat) s

/-- ETHERNET_LINK_DOWN (R182): An Ethernet port's link drops; the port takes a link reset and re-enters auto-negotiation. -/
def execEthernetLinkDown (port : Fin 8) (s : State) : Host.Outcome State Fault Refusal :=
  onTray (fun t => t.etherDown port) s

/-- ETHERNET_LINK_UP (R181): Auto-negotiation and training complete and the port's link comes up. -/
def execEthernetLinkUp (port : Fin 8) (ty : Fin 4) (s : State) : Host.Outcome State Fault Refusal :=
  onTray (fun t => t.etherUp port ty) s

end Sys2Proof.Machine
end

