-- ==== Sys2Proof/Machine/ExecPans.lean ====
section
/-!
DEFINITION. The meanings of the commands of pan sets, harvests and tree ensembles (chapters 11, 12).
-/

namespace Sys2Proof.Machine

/-- CUT_ANGLE_DEADLINE (R242): A cut's angle deadline is reached and it closes with reason 1, closing earlier cuts. -/
def execCutAngleDeadline (pset : BitVec 10) (s : State) : Host.Outcome State Fault Refusal :=
  onTray (fun t => t.angleDeadline pset.toNat) s

/-- CUT_TIME_DEADLINE (R242): A cut's pod-time deadline is reached and it closes with reason 2. -/
def execCutTimeDeadline (pset : BitVec 10) (s : State) : Host.Outcome State Fault Refusal :=
  onTray (fun t => t.timeDeadline pset.toNat) s

/-- HARVEST_PUBLISH (R243): After a closed cut's last in-time unit ends, its banks are read, merged and staged as a harvest. -/
def execHarvestPublish (pset : BitVec 10) (s : State) : Host.Outcome State Fault Refusal :=
  onTray (fun t => t.harvestPublish pset.toNat) s

/-- HARVEST_RING_WRITE (R244): A staged harvest that fits its host harvest ring is written and harvest published follows. -/
def execHarvestRingWrite (ring : Fin 64) (s : State) : Host.Outcome State Fault Refusal :=
  onTray (fun t => t.ringWrite ring) s

/-- HARVEST_RELAY (R23): A harvest at the head of the relay queue with enough credit is sent to the parent in segments. -/
def execHarvestRelay (s : State) : Host.Outcome State Fault Refusal :=
  onTray (fun t => t.relayNext) s

/-- HARVEST_SEGMENT_RECEIVE (R245): A parent reassembles a child's harvest and writes it to the child's ring, or discards it. -/
def execHarvestSegmentReceive (child : Fin 192) (body : List Byte) (s : State) : Host.Outcome State Fault Refusal :=
  onTray (fun t => t.harvestSegment child body) s

/-- PARTIAL_RECEIVE (R264): A gatherer adds a tree core's partial to the sample's ensemble score, completing it when all have arrived. -/
def execPartialReceive (handle : Fin 64) (gath : Fin 64) (s : State) : Host.Outcome State Fault Refusal :=
  onTray (fun t => t.partialReceive handle gath) s

/-- SCORE_SEND (R267): The gatherer sends a frame's score features to the pan cores in frame order once earlier frames are sent. -/
def execScoreSend (handle : Fin 64) (gath : Fin 64) (s : State) : Host.Outcome State Fault Refusal :=
  onTray (fun t => t.scoreSend handle gath) s

/-- SCORE_EXPIRED (R268): A score incomplete SWAIT after its frame's ring write is sent as missing. -/
def execScoreExpired (handle : Fin 64) (gath : Fin 64) (s : State) : Host.Outcome State Fault Refusal :=
  onTray (fun t => t.scoreExpired handle gath) s

/-- BATCH_READY (R271): A streamed group's batch fills with b projections and becomes ready. -/
def execBatchReady (handle : Fin 64) (group : BitVec 14) (s : State) : Host.Outcome State Fault Refusal :=
  onTray (fun t => t.batchReady handle group.toNat) s

/-- SHORT_BATCH (R271): A batch's oldest projection waits BWAIT and the batch becomes ready short. -/
def execShortBatch (handle : Fin 64) (group : BitVec 14) (s : State) : Host.Outcome State Fault Refusal :=
  onTray (fun t => t.shortBatch handle group.toNat) s

/-- STREAM_LOAD_DONE (R272): A stream span's image load from LPDDR5X completes and walking of the batch begins. -/
def execStreamLoadDone (handle : Fin 64) (group : BitVec 14) (waited : W32) (s : State) : Host.Outcome State Fault Refusal :=
  onTray (fun t => t.streamLoaded handle group.toNat waited.toNat) s

/-- STREAM_BATCH_DONE (R272): A stream span finishes walking a batch, releases its buffer and takes the next ready batch. -/
def execStreamBatchDone (handle : Fin 64) (group : BitVec 14) (s : State) : Host.Outcome State Fault Refusal :=
  onTray (fun t => t.streamDone handle group.toNat) s

/-- HARVEST_RING_RCI_WRITE (R244): Driver software writes HRV.RCI of a host harvest ring, freeing room for waiting harvests and acknowledging delivered harvests for PFREE, or is refused when not a multiple of 16. -/
def execHarvestRingRciWrite (ring : Fin 64) (v : W32) (s : State) : Host.Outcome State Fault Refusal :=
  onBar (fun t => (t.pageWritten 0x27 0).rciWrite ring v.toNat) s

end Sys2Proof.Machine
end

