-- ==== Sys2Proof/Machine/ExecPower.lean ====
section
/-!
DEFINITION. The meanings of the commands of the ladder, admission, supply, resets and temperature (chapters 17, 20).
-/

namespace Sys2Proof.Machine

/-- LADDER_STEP_END (R365): A warm-up ladder step ends and the next begins, moving the admission stage. -/
def execLadderStepEnd (b : Build) (flashOk : Bool) (crcOk : Bool) (fails : List (BitVec 13 × BitVec 17)) (chans : Byte) (s : State) : Host.Outcome State Fault Refusal :=
  onEither b (fun l => l.ladderStep flashOk crcOk) (fun t => t.ladderStep flashOk crcOk (groupFails fails) chans) s

/-- LADDER_STEP_OVERRAN (R365): A ladder step not ended by twice its end time holds the ladder and sets stuck. -/
def execLadderStepOverran (s : State) : Host.Outcome State Fault Refusal :=
  onTray (fun t => t.ladderOverran) s

/-- HELLO (R366): A parent receives a hello and admits, refuses or drops it by stage, tokens, limits and identity. -/
def execHello (p : Packet) (s : State) : Host.Outcome State Fault Refusal :=
  onTray (fun t => t.hello p) s

/-- TOKEN_REFILL (R366): Every millisecond each port's hello bucket refills to HRATE. -/
def execTokenRefill (s : State) : Host.Outcome State Fault Refusal :=
  onTray (fun t => t.tokenRefill 312500) s

/-- HELLO_RETRY (R367): A child's backoff wait expires and it sends another hello. -/
def execHelloRetry (b : Build) (s : State) : Host.Outcome State Fault Refusal :=
  onBlk b (fun u => u.helloRetry) s

/-- ACCEPT (R406): A child receives an accept, verifies it and takes the new link keys. -/
def execAccept (b : Build) (epoch : Byte) (peer : W32) (detail : Byte) (s : State) : Host.Outcome State Fault Refusal :=
  onBlk b (fun u => u.accept epoch peer detail.toNat) s

/-- HELLO_REFUSE (R366): A child receives a hello refusal and backs off. -/
def execHelloRefuse (b : Build) (s : State) : Host.Outcome State Fault Refusal :=
  onBlk b (fun u => u.helloRefused) s

/-- LINK_ENABLE (R368): Setting LNK.CTL.en after the PUF step makes the leaf send its first hello. -/
def execLinkEnable (s : State) : Host.Outcome State Fault Refusal :=
  onLeaf (fun l => (l.pageWritten 0x10).blk (fun u => u.lnkCtl (setBit (u.reg R.LNK_CTL) 31 true))) s

/-- KEEPALIVE (R376): KEEP microseconds after the last control message a keepalive is sent. -/
def execKeepalive (b : Build) (link : Byte) (s : State) : Host.Outcome State Fault Refusal :=
  onEither b (fun l => l.blk (fun u => u.keepalive 0)) (fun t => t.blk (fun u => u.keepalive link.toNat)) s

/-- SUPPLY_WARNING_START (R369): The supply code falls to WARNLV; the warning begins and flash work is held. -/
def execSupplyWarningStart (b : Build) (code : Byte) (rail : Byte) (s : State) : Host.Outcome State Fault Refusal :=
  onSupply b (fun l => l.supply code.toNat true) (fun t => t.supply code.toNat rail.toNat true) s

/-- SUPPLY_WARNING_END (R370): The code rises to WARNLV + HYST; flash work resumes and supply dip is written. -/
def execSupplyWarningEnd (b : Build) (code : Byte) (rail : Byte) (took : Bool) (s : State) : Host.Outcome State Fault Refusal :=
  onSupply b (fun l => l.supply code.toNat took) (fun t => t.supply code.toNat rail.toNat took) s

/-- SUPPLY_WARNING_LONG (R370): A warning active for WLONG writes supply warning long. -/
def execSupplyWarningLong (b : Build) (s : State) : Host.Outcome State Fault Refusal :=
  onPowered b (fun l => l.blk (fun u => u.warningLong)) (fun t => t.blk (fun u => u.warningLong)) s

/-- COLD_RESET (R373): Power-on, reset level, reset pin, clock loss or BLK.RST kind 1 take a cold reset. -/
def execColdReset (b : Build) (source : Byte) (s : State) : Host.Outcome State Fault Refusal :=
  onReset b (fun l => l.coldReset source.toNat) (fun t => t.coldReset source.toNat) s

/-- WARM_RESET (R373): rst_warm_n or BLK.RST kind 2 take a warm reset. -/
def execWarmReset (b : Build) (source : Byte) (s : State) : Host.Outcome State Fault Refusal :=
  onEither b (fun l => l.warmReset source.toNat) (fun t => t.warmReset source.toNat) s

/-- UNIT_RESET (R373): BLK.RST kind 3 resets every engine of the leaf. -/
def execUnitReset (s : State) : Host.Outcome State Fault Refusal :=
  onLeaf (fun l => l.unitReset) s

/-- LINK_RESET (R373): Link down, Ethernet link loss or PCI Express reset takes a link reset. -/
def execLinkReset (b : Build) (pci : Bool) (port : Fin 8) (s : State) : Host.Outcome State Fault Refusal :=
  onEither b (fun l => l.linkResetAll) (fun t => t.linkResetOf pci port) s

/-- RESET_RELEASE (R374): A held reset cause is released and the block starts its ladder. -/
def execResetRelease (b : Build) (taHash : BitVec 384) (taValid : Bool) (s : State) : Host.Outcome State Fault Refusal :=
  onRelease b (fun l => l.release taHash taValid) (fun t => t.release taHash taValid) s

/-- PARK (R377): PWR.CMD.park completes history work, holds flash and stops sampling for removal. -/
def execPark (b : Build) (s : State) : Host.Outcome State Fault Refusal :=
  onHostBlk b (fun u => u.park) s

/-- UNPARK (R377): PWR.CMD.unpark undoes a park. -/
def execUnpark (b : Build) (s : State) : Host.Outcome State Fault Refusal :=
  onHostBlk b (fun u => u.unpark.idnResume) s

/-- THERMAL_LIMIT (R435): TJ reaches TJHOT; the issue fraction is capped at 8/16 and thermal limit is written. -/
def execThermalLimit (tj : Byte) (sensor : Byte) (s : State) : Host.Outcome State Fault Refusal :=
  onSupply .tray id (fun t => t.junction tj.toNat sensor.toNat) s

/-- THERMAL_CLEAR (R435): TJ falls below TJHOT − 3 °C and the thermal cap lifts. -/
def execThermalClear (tj : Byte) (sensor : Byte) (s : State) : Host.Outcome State Fault Refusal :=
  onSupply .tray id (fun t => t.junction tj.toNat sensor.toNat) s

/-- THERMTRIP (R435): TJ reaches 115 °C; THERMTRIP_N falls and the T build holds in cold reset. -/
def execThermtrip (tj : Byte) (sensor : Byte) (s : State) : Host.Outcome State Fault Refusal :=
  onSupply .tray id (fun t => t.junction tj.toNat sensor.toNat) s

end Sys2Proof.Machine
end

