-- ==== Sys2Proof/Machine/ExecQueues.lean ====
section
/-!
DEFINITION. The meanings of the commands of command queues and their opcodes (chapter 10).
-/

namespace Sys2Proof.Machine

/-- INGEST_RING_ENABLE (R205): Setting RCFG.en on an ingest ring allocates it, or is refused for overlap or double binding. -/
def execIngestRingEnable (ring : Fin 2048) (w : W32) (s : State) : Host.Outcome State Fault Refusal :=
  onBar (fun t => t.ringCfg ring (setBit w 31 true)) s

/-- APERTURE_STAGE_WRITE (R207): A write to a queue's aperture without byte 0x3F stages its bytes. -/
def execApertureStageWrite (q : Fin 1536) (off : BitVec 6) (data : List Byte) (s : State) : Host.Outcome State Fault Refusal :=
  onBar (fun t => t.posted (fun v => v.aperture q off.toNat (data.take (0x3F - off.toNat)))) s

/-- COMMAND_APPEND (R207): A write including byte 0x3F appends the staged command to the ring, or drops it. -/
def execCommandAppend (q : Fin 1536) (off : BitVec 6) (data : List Byte) (s : State) : Host.Outcome State Fault Refusal :=
  onBar (fun t => t.posted (fun v => v.aperture q off.toNat (bytesAt data 0 (0x40 - off.toNat)))) s

/-- COMMAND_DISPATCH (R213): A class dispatcher takes the next command from a ready queue and journals it. -/
def execCommandDispatch (cls : Fin 6) (s : State) : Host.Outcome State Fault Refusal :=
  onTray (fun t => t.dispatch cls) s

/-- NOP (R209): NOP ends done with result 0. -/
def execNop (q : Fin 1536) (s : State) : Host.Outcome State Fault Refusal :=
  onTray (fun t => t.runTable q 0) s

/-- WAITQ (R212): WAITQ waits until another queue's QDONE reaches a count. -/
def execWaitq (q : Fin 1536) (s : State) : Host.Outcome State Fault Refusal :=
  onTray (fun t => t.waitq q) s

/-- WAITAT (R212): WAITAT waits until a pod time or step stamp is reached. -/
def execWaitat (q : Fin 1536) (s : State) : Host.Outcome State Fault Refusal :=
  onTray (fun t => t.waitat q) s

/-- WAIT_SATISFIED (R212): The condition of a waiting WAITQ or WAITAT is met and the command ends. -/
def execWaitSatisfied (q : Fin 1536) (s : State) : Host.Outcome State Fault Refusal :=
  onTray (fun t => t.waitMet q) s

/-- WAITQ_TIMEOUT (R209): A WAITQ's timeout expires and it ends with status 9. -/
def execWaitqTimeout (q : Fin 1536) (s : State) : Host.Outcome State Fault Refusal :=
  onTray (fun t => t.waitqTimeout q) s

/-- TXCLOSE (R221): TXCLOSE fixes a transaction's commit point, applying it locally or starting a pod-wide prepare. -/
def execTxclose (q : Fin 1536) (s : State) : Host.Outcome State Fault Refusal :=
  onTray (fun t => t.txclose q) s

/-- TXABORT (R220): TXABORT dooms an undecided transaction, releasing its reservations. -/
def execTxabort (q : Fin 1536) (s : State) : Host.Outcome State Fault Refusal :=
  onTray (fun t => t.txabort q) s

/-- MARK (R209): MARK ends done with its code. -/
def execMark (q : Fin 1536) (s : State) : Host.Outcome State Fault Refusal :=
  onTray (fun t => t.runTable q 5) s

/-- MLOAD (R255): MLOAD checks a Gulti package and loads its images, multicast groups and projections. -/
def execMload (q : Fin 1536) (s : State) : Host.Outcome State Fault Refusal :=
  onTray (fun t => t.runTable q 0x10) s

/-- MUNLOAD (R255): MUNLOAD frees a package's cores, regions and multicast groups once its work ends. -/
def execMunload (q : Fin 1536) (s : State) : Host.Outcome State Fault Refusal :=
  onTray (fun t => t.runTable q 0x11) s

/-- MBIND (R256): MBIND binds a handle to an attached slot. -/
def execMbind (q : Fin 1536) (s : State) : Host.Outcome State Fault Refusal :=
  onTray (fun t => t.runTable q 0x12) s

/-- MUNBIND (R209): MUNBIND removes a handle's binding from a slot. -/
def execMunbind (q : Fin 1536) (s : State) : Host.Outcome State Fault Refusal :=
  onTray (fun t => t.runTable q 0x13) s

/-- PDEFINE (R227): PDEFINE validates a pan-set descriptor and reserves its cores, cells and groups. -/
def execPdefine (q : Fin 1536) (s : State) : Host.Outcome State Fault Refusal :=
  onTray (fun t => t.runTable q 0x20) s

/-- PFREE (R242): PFREE closes every open cut of a pan set and waits for its harvests to be acknowledged. -/
def execPfree (q : Fin 1536) (s : State) : Host.Outcome State Fault Refusal :=
  onTray (fun t => t.runTable q 0x21) s

/-- PFREE_RELEASE (R242): Every harvest of a freeing pan set is acknowledged and its resources are released. -/
def execPfreeRelease (pset : BitVec 10) (s : State) : Host.Outcome State Fault Refusal :=
  onTray (fun t => t.freeCheck pset.toNat) s

/-- CUTCLOSE (R242): CUTCLOSE closes the named cut, opening it empty if needed. -/
def execCutclose (q : Fin 1536) (s : State) : Host.Outcome State Fault Refusal :=
  onTray (fun t => t.runTable q 0x22) s

/-- COPY (R209): COPY moves data between spaces. -/
def execCopy (q : Fin 1536) (s : State) : Host.Outcome State Fault Refusal :=
  onTray (fun t => t.copyGo q) s

/-- ZCOMP (R327): ZCOMP compresses a source range into one Zstandard frame within its output limit. -/
def execZcomp (q : Fin 1536) (s : State) : Host.Outcome State Fault Refusal :=
  onTray (fun t => t.zipGo q 0x40) s

/-- ZDECOMP (R330): ZDECOMP decompresses Zstandard frames within its output limit. -/
def execZdecomp (q : Fin 1536) (s : State) : Host.Outcome State Fault Refusal :=
  onTray (fun t => t.zipGo q 0x41) s

/-- MSEND (R209): MSEND sends a control message to a neighbour and waits for link release. -/
def execMsend (q : Fin 1536) (s : State) : Host.Outcome State Fault Refusal :=
  onTray (fun t => t.msend q) s

/-- START (R338): START validates a continuity descriptor and begins its start, teardown, checkpoint, spare or replay operation. -/
def execStart (q : Fin 1536) (s : State) : Host.Outcome State Fault Refusal :=
  onTray (fun t => t.startGo q) s

/-- CONTAIN (R292): CONTAIN sends a containment request to a leaf, after a budget grant for expel-notice, and waits for its acknowledgement. -/
def execContain (q : Fin 1536) (s : State) : Host.Outcome State Fault Refusal :=
  onTray (fun t => t.contain q) s

/-- SATTACH (R209): SATTACH attaches a T-build job slot with job, epoch, notice sources and period seed. -/
def execSattach (q : Fin 1536) (s : State) : Host.Outcome State Fault Refusal :=
  onTray (fun t => t.runTable q 0x60) s

/-- SDETACH (R209): SDETACH detaches a job slot with nothing bound. -/
def execSdetach (q : Fin 1536) (s : State) : Host.Outcome State Fault Refusal :=
  onTray (fun t => t.runTable q 0x61) s

/-- SEPOCH (R242): SEPOCH sets a slot's replay epoch and closes old-epoch cuts with reason 7. -/
def execSepoch (q : Fin 1536) (s : State) : Host.Outcome State Fault Refusal :=
  onTray (fun t => t.runTable q 0x62) s

/-- QUEUE_RESUME (R214): QMG.QCTL resume continues a stopped queue at its next command. -/
def execQueueResume (q : Fin 1536) (s : State) : Host.Outcome State Fault Refusal :=
  onBar (fun t => t.queueResume q) s

/-- QUEUE_FLUSH (R214): QMG.QCTL flush ends every held command with status 11 and continues. -/
def execQueueFlush (q : Fin 1536) (s : State) : Host.Outcome State Fault Refusal :=
  onBar (fun t => t.queueFlush q) s

/-- CLASS_UNIT_RESET (R219): ENG.CCTL.rst resets an engine class, processes its journal and writes recovery markers. -/
def execClassUnitReset (cls : Fin 6) (pass : W32) (s : State) : Host.Outcome State Fault Refusal :=
  onBar (fun t => t.classReset cls pass) s

/-- DATA_COMMAND_COMPLETE (R218): A COPY, ZCOMP or ZDECOMP command running on its engine finishes its last byte, ends with its status and result and writes its completion record. -/
def execDataCommandComplete (q : Fin 1536) (engine : Fin 32) (s : State) : Host.Outcome State Fault Refusal :=
  onTray (fun t => t.dataDone q engine) s

end Sys2Proof.Machine
end

