-- ==== Sys2Proof/Machine/ExecRegs.lean ====
section
/-!
DEFINITION. The meanings of the commands of the register port (chapters 20, 21).
-/

namespace Sys2Proof.Machine

/-- REGISTER_WRITE (R13): A register write to a field with no behaviour of its own sets the field, subject to access type, reserved-field and refusal checks. -/
def execRegisterWrite (b : Build) (a : BitVec 25) (n : BitVec 4) (data : W64) (priv : Bool) (env : PortEnv) (s : State) : Host.Outcome State Fault Refusal :=
  onHost b (fun l => l.write (fld a 2 16 * 4) (data.setWidth 32) priv env) (fun t => t.write a.toNat n.toNat data env) s

/-- RC_READ (R13): A read of a read-clear field returns its value and clears it, keeping any bit set by hardware in the same cycle. -/
def execRcRead (b : Build) (a : BitVec 25) (n : BitVec 4) (env : ReadEnv) (s : State) : Host.Outcome State Fault Refusal :=
  onHost b (fun l => l.readOut (fld a 2 16 * 4) env.priv env.same) (fun t => t.readOut a.toNat n.toNat env.same) s

end Sys2Proof.Machine
end

