-- ==== Sys2Proof/Machine/ExecSnapshot.lean ====
section
/-!
DEFINITION. The meanings of the commands of snapshots, the write guard and fingerprints (chapter 7).
-/

namespace Sys2Proof.Machine

/-- SNAPSHOT_ARM (R145): An arm by schedule entry or SNG.CMD.arm is checked and starts copying, or is refused with a reason. -/
def execSnapshotArm (slot : Option (Fin 2)) (s : State) : Host.Outcome State Fault Refusal :=
  onLeaf (fun l => (if slot.isNone then l.pageWritten 0x0D else l).arm (slot.map Fin.val)) s

/-- SNAPSHOT_ABORT (R150): SNG.CMD.abort while copying tears the snapshot with reason 2. -/
def execSnapshotAbort (s : State) : Host.Outcome State Fault Refusal :=
  onLeaf (fun l => (l.pageWritten 0x0D).snapAbort) s

/-- GUARD_DISABLE (R150): Writing SNG.CTL.en to 0 while copying tears the snapshot with reason 4. -/
def execGuardDisable (s : State) : Host.Outcome State Fault Refusal :=
  onLeaf (fun l => (l.pageWritten 0x0D).guardDisable) s

/-- GUARD_CHECK (R147): A write check arrives on the guard port and is answered pass or hold two cycles later, sending copy-first on a first hold. -/
def execGuardCheck (a : W64) (len : BitVec 13) (s : State) : Host.Outcome State Fault Refusal :=
  onLeaf (fun l => l.guardCheck a.toNat len.toNat) s

/-- WAITING_CHECK_ANSWER (R147): A check waiting for a free tag or copy-first place is answered once one frees. -/
def execWaitingCheckAnswer (s : State) : Host.Outcome State Fault Refusal :=
  onLeaf (fun l => l.waitingAnswer) s

/-- COPY_DONE (R148): A copier done notice sets the region copied, releases its held writes, or counts a stray notice. -/
def execCopyDone (region : W32) (s : State) : Host.Outcome State Fault Refusal :=
  onLeaf (fun l => l.copyDone region.toNat) s

/-- GUARD_TIMEOUT (R149): A region's hold timer reaches GTO and the snapshot tears with reason 1. -/
def execGuardTimeout (s : State) : Host.Outcome State Fault Refusal :=
  onLeaf (fun l => l.guardTimeout) s

/-- CHUNK_SUBMISSION (R153): A copier submits a chunk header on a lane; the submission is rejected or hashing begins. -/
def execChunkSubmission (lane : Fin 4) (snap : W32) (chunk : W32) (len : W32) (data : List Byte) (s : State) : Host.Outcome State Fault Refusal :=
  onLeaf (fun l => l.chunkSubmit lane snap.toNat chunk.toNat len.toNat data) s

/-- CHUNK_HASHED (R153): A lane finishes hashing a chunk; its digest is kept or compared and an entry may be queued. -/
def execChunkHashed (lane : Fin 4) (s : State) : Host.Outcome State Fault Refusal :=
  onLeaf (fun l => l.chunkHashed lane) s

/-- FINGERPRINT_FRAME_TIMER (R154): 100 µs after the oldest queued entry a fingerprint frame is sent. -/
def execFingerprintFrameTimer (s : State) : Host.Outcome State Fault Refusal :=
  onLeaf (fun l => l.fprTimer) s

/-- ELECTION_NOTICE (R155): A leaf receives an election notice and stores its decision codes, writing election complete when none is pending. -/
def execElectionNotice (snap : W32) (first : W32) (codes : List (BitVec 2)) (s : State) : Host.Outcome State Fault Refusal :=
  onLeaf (fun l => l.election snap.toNat first.toNat codes) s

/-- DECISION_QUERY (R156): The copier presents a chunk on the decision port and receives its code two cycles later. -/
def execDecisionQuery (chunk : W32) (s : State) : Host.Outcome State Fault Refusal :=
  onLeaf (fun l => l.decisionQuery chunk.toNat) s

end Sys2Proof.Machine
end

