-- ==== Sys2Proof/Machine/ExecTier.lean ====
section
/-!
DEFINITION. The meanings of the commands of the memory tier, cores, stealing and the current throttle (chapters 9, 10).
-/

namespace Sys2Proof.Machine

/-- DISTRIBUTE_FRAME (R199): A distributor takes a frame from an ingest ring and sends its projections to replicas, pan cores and stream batches. -/
def execDistributeFrame (dist : Fin 64) (s : State) : Host.Outcome State Fault Refusal :=
  onTray (fun t => t.distribute dist) s

/-- PROJECTION_ARRIVAL (R188): A projection arrives at a core, takes a window place and creates a work unit. -/
def execProjectionArrival (way : CoreWay) (s : State) : Host.Outcome State Fault Refusal :=
  onTray (fun t => t.arrive way.core way.data) s

/-- WORK_UNIT_END (R270): A core's work unit ends its traversals or folds, sends its partial and frees its window place. -/
def execWorkUnitEnd (core : Fin 81920) (idx : Byte) (s : State) : Host.Outcome State Fault Refusal :=
  onTray (fun t => t.unitEnd core idx.toNat) s

/-- FORCED_REFRESH (R193): A bank with no idle cycle within 512 cycles forces a refresh. -/
def execForcedRefresh (core : Fin 81920) (s : State) : Host.Outcome State Fault Refusal :=
  onTray (fun t => t) s

/-- PATROL_SCRUB (R194): A line falls due for patrol scrub and is read and corrected. -/
def execPatrolScrub (space : BitVec 2) (word : BitVec 33) (found : Fin 3) (s : State) : Host.Outcome State Fault Refusal :=
  onSupply .tray id (fun t => t.scrub space.toNat word.toNat found) s

/-- CURRENT_INTERVAL (R202): A 10 µs current interval ends and the issue fraction falls, holds or rises. -/
def execCurrentInterval (mean : W32) (s : State) : Host.Outcome State Fault Refusal :=
  onTray (fun t => t.currentInterval mean.toNat) s

/-- THIEF_IDLE (R217): A core with no pending unit sends a steal request to its next victim. -/
def execThiefIdle (core : Fin 81920) (s : State) : Host.Outcome State Fault Refusal :=
  onTray (fun t => t.thiefIdle core) s

/-- STEAL_REQUEST (R217): A victim grants half its pending units to a thief, or refuses. -/
def execStealRequest (core : Fin 81920) (s : State) : Host.Outcome State Fault Refusal :=
  onTray (fun t => t.stealRequest core) s

/-- STEAL_REFUSED (R217): A thief receives a refusal and waits BACKOFF before its next victim. -/
def execStealRefused (core : Fin 81920) (s : State) : Host.Outcome State Fault Refusal :=
  onTray (fun t => t.stealRefused core) s

/-- STEAL_BACKOFF_EXPIRY (R217): A thief's backoff or rest period ends and it may request again. -/
def execStealBackoffExpiry (core : Fin 81920) (s : State) : Host.Outcome State Fault Refusal :=
  onTray (fun t => t.backoffExpiry core) s

/-- STEAL_TRANSFER_DONE (R217): A granted projection's copy completes into the thief's window and the victim's place frees. -/
def execStealTransferDone (core : Fin 81920) (s : State) : Host.Outcome State Fault Refusal :=
  onTray (fun t => t.transferDone core) s

/-- DISTRIBUTOR_STALLED (R200): A distributor has waited on a stalled multicast for 2^20 consecutive cycles and sets NOC PGCAUSE bit 0. -/
def execDistributorStalled (dist : Fin 64) (s : State) : Host.Outcome State Fault Refusal :=
  onTray (fun t => t.longStall dist) s

end Sys2Proof.Machine
end

