-- ==== Sys2Proof/Machine/ExecTime.lean ====
section
/-!
DEFINITION. The meanings of the commands of time, steps and the step angle (chapter 2).
-/

namespace Sys2Proof.Machine

/-- INC_FRAC_WRITE (R31): A write to TBS.INC_FRAC holds the fraction until INC_NS is written. -/
def execIncFracWrite (b : Build) (w : W32) (s : State) : Host.Outcome State Fault Refusal :=
  onHostBlk b (fun u => u.incFrac w) s

/-- INC_NS_WRITE (R31): A write to TBS.INC_NS commits the held increment pair, or refuses a zero increment, and counts as discipline ending holdover. -/
def execIncNsWrite (b : Build) (ns : Byte) (s : State) : Host.Outcome State Fault Refusal :=
  onHostBlk b (fun u => u.incNs ns) s

/-- OFFSET_STEP (R32): OFS_GO bit 0 adds the signed 96-bit offset to TB0, sets tb0_valid, fires passed actions late and writes a time step record. -/
def execOffsetStep (b : Build) (s : State) : Host.Outcome State Fault Refusal :=
  onHost b (fun l => l.blk (fun u => u.offsetStep)) (fun t => t.offsetStep) s

/-- LOAD (R32): OFS_GO bit 1 replaces TB0 with the 96-bit value, sets tb0_valid and writes a time step record. -/
def execLoad (b : Build) (s : State) : Host.Outcome State Fault Refusal :=
  onHost b (fun l => l.blk (fun u => u.loadTb0)) (fun t => t.loadTb0) s

/-- HOLDOVER (R35): HOLDTO milliseconds pass without discipline; the leaf sets hold, a cause bit and writes a holdover record. -/
def execHoldover (b : Build) (s : State) : Host.Outcome State Fault Refusal :=
  onBlk b (fun u => u.holdover) s

/-- TB0_NSL_READ (R34): Reading TB0_NSL latches TB0_NSH, TB0_FRAC and the TB1 capture in one cycle; reading TB1_L latches TB1_H likewise. -/
def execTb0NslRead (b : Build) (tb1 : Bool) (s : State) : Host.Outcome State Fault Refusal :=
  onHostBlk b (fun u => u.timeRead tb1) s

/-- TIMED_ACTION (R37): A queued action on TB0 or TB1 fires when its time is reached, in timestamp and then queue order. -/
def execTimedAction (b : Build) (act : Option TimedAction) (s : State) : Host.Outcome State Fault Refusal :=
  onBlk b (fun u => u.timedAction act) s

/-- STEP_MARK (R40): The port or register step marks of one cycle on the slots given (`step_mark[1:0]`): each is filtered, measures M, updates P, advances or sets the index and zeroes the angle. -/
def execStepMark (slots : BitVec 2) (viaPort : Bool) (s : State) : Host.Outcome State Fault Refusal :=
  onLeaf (fun l => l.stepMarks slots viaPort) s

/-- LONG_STEP (R42): The time since the mark reaches P; the angle goes to overrun, the long flag sets and a long step record is written. -/
def execLongStep (b : Build) (slot : Fin 64) (s : State) : Host.Outcome State Fault Refusal :=
  onEither b (fun l => l.longStep (slot % 2)) (fun t => t.longStep slot) s

/-- PSEED_WRITE (R41): A write to PSEED high half while the slot is disabled takes a nonzero seed into P and sets est_valid. -/
def execPseedWrite (slot : Fin 2) (hi : W16) (s : State) : Host.Outcome State Fault Refusal :=
  onLeaf (fun l => l.pseedHigh slot hi) s

/-- IDX_SET_WRITE (R40): A write to STEP.IDX_SET sets the pending bit so the index is taken at the next accepted mark. -/
def execIdxSetWrite (slot : Fin 2) (w : W32) (s : State) : Host.Outcome State Fault Refusal :=
  onLeaf (fun l => l.idxSet slot w) s

/-- STEP_SLOT_ENABLE (R41): Setting STEP.CTL.en attaches the slot, loads P from the seed, and makes pending swaps of that slot happen at once. -/
def execStepSlotEnable (slot : Fin 2) (w : W32) (s : State) : Host.Outcome State Fault Refusal :=
  onLeaf (fun l => l.stepCtl slot (setBit w 31 true)) s

/-- ANG_READ (R43): Reading STEP.ANG_A or ANG_B latches the step index and the TB1 capture time in the same cycle. -/
def execAngRead (b : Build) (slot : Fin 64) (s : State) : Host.Outcome State Fault Refusal :=
  onHost b (fun l => l.angOut (slot % 2)) (fun t => t.angOut slot) s

/-- SCHEDULE_ENTRY_FIRE (R45): An enabled angle-schedule entry fires when the slot's angle reaches its angle, acting as sample, arm, window or marker. -/
def execScheduleEntryFire (slot : Fin 2) (s : State) : Host.Outcome State Fault Refusal :=
  onLeaf (fun l => l.scheduleFire slot) s

/-- ASTB_SWAP (R47): Writing ASTB.CTL.swap requests that the editable bank become active at each slot's next accepted mark. -/
def execAstbSwap (s : State) : Host.Outcome State Fault Refusal :=
  onLeaf (fun l => l.astbSwap) s

/-- PPS_IN (R49): A rising edge on the T build's 1PPS input latches TB0 into PPSCAP and sets the pps status bit. -/
def execPpsIn (s : State) : Host.Outcome State Fault Refusal :=
  onTray (fun t => t.blk Blk.ppsIn) s

/-- PPS_OUT_RISE (R49): TB0 reaches a whole second and the 1PPS output rises while tb0_valid is set. -/
def execPpsOutRise (s : State) : Host.Outcome State Fault Refusal :=
  onTray (fun t => t.blk Blk.ppsRise) s

/-- PPS_OUT_FALL (R49): PPSW milliseconds after its rise the 1PPS output falls. -/
def execPpsOutFall (s : State) : Host.Outcome State Fault Refusal :=
  onTray (fun t => t.blk Blk.ppsFall) s

/-- STEP_MARK_NOTICE (R51): A T build takes a step mark notice, applies it to the slot clock from its carried time, counts duplicates and gaps, and forwards it. -/
def execStepMarkNotice (link : Byte) (n : Notice) (s : State) : Host.Outcome State Fault Refusal :=
  onTray (fun t => t.notice link.toNat n) s

/-- STEP_SOURCE_SWITCHED (R52): No notice from the primary for 2 × P switches the slot to its secondary source and writes a record. -/
def execStepSourceSwitched (slot : Fin 64) (s : State) : Host.Outcome State Fault Refusal :=
  onTray (fun t => t.sourceSwitched slot) s

/-- TIME_FRAME_RECEIVE (R54): A received IEEE 1588 message is timestamped and delivered to the host event queue as a carried time record. -/
def execTimeFrameReceive (b : Build) (port : Fin 8) (dst : W48) (src : W48) (ptp : List Byte) (s : State) : Host.Outcome State Fault Refusal :=
  onEither b (fun l => l.blk (fun u => u.timeMessage 0xF u.rxStamp ptp)) (fun t => t.timeFrame port dst src ptp) s

/-- PTP_FORWARD (R56): A T-build port forwards, corrects or terminates an IEEE 1588 message by its port mode, adding residence time to correctionField. -/
def execPtpForward (port : Fin 8) (dst : W48) (src : W48) (ptp : List Byte) (s : State) : Host.Outcome State Fault Refusal :=
  onTray (fun t => t.timeFrame port dst src ptp) s

end Sys2Proof.Machine
end

