-- ==== Sys2Proof/Machine/ExecTrace.lean ====
section
/-!
DEFINITION. The meanings of the commands of trace (chapter 4).
-/

namespace Sys2Proof.Machine

/-- TRACE_ITEM (R87): A trace source delivers an item that is filtered and turned into packets, or counted as lost. -/
def execTraceItem (src : Fin 8) (item : TrcHead) (val : W64) (s : State) : Host.Outcome State Fault Refusal :=
  onLeaf (fun l => l.traceItem src (item.item val)) s

/-- TRACE_LOSS_EXIT (R99): Once buffer space, FIFO and quota allow, a source leaves loss and writes a LOSS packet. -/
def execTraceLossExit (src : Fin 8) (s : State) : Host.Outcome State Fault Refusal :=
  onLeaf (fun l => l.lossExit src) s

/-- TRACE_ENABLE (R96): Setting TRC.CTL.en starts the system-memory ring at offset 0 and clears a DMA error. -/
def execTraceEnable (s : State) : Host.Outcome State Fault Refusal :=
  onLeaf (fun l => (l.pageWritten 0x06).trcEnable) s

/-- TRACE_SOURCE_ENABLE (R94): A change of SRC_CFG.en marks the next SYNC reason 5 on a rise or writes STOP reason 2 on a fall. -/
def execTraceSourceEnable (src : Fin 8) (w : W32) (s : State) : Host.Outcome State Fault Refusal :=
  onLeaf (fun l => (l.pageWritten 0x06).srcCfgWrite src w) s

/-- TRACE_BLOCK_ACK (R96): The DMA port acknowledges a 64-byte trace block and WPTR advances. -/
def execTraceBlockAck (s : State) : Host.Outcome State Fault Refusal :=
  onLeaf (fun l => l.trcBlock.dumpDmaCheck) s

/-- TRACE_FLUSH (R97): Writing TRC.FLUSH closes runs, pads the buffer with IDLE words and writes out everything buffered. -/
def execTraceFlush (s : State) : Host.Outcome State Fault Refusal :=
  onLeaf (fun l => (l.pageWritten 0x06).trcFlush) s

/-- TRACE_FLUSH_DONE (R97): The flush finishes and flush_busy clears. -/
def execTraceFlushDone (s : State) : Host.Outcome State Fault Refusal :=
  onLeaf (fun l => l.trcFlushDone.dumpDmaCheck) s

/-- TRACE_DMA_ERROR (R98): A DMA error on a trace write stops the ring, sets dma_err and writes a record. -/
def execTraceDmaError (s : State) : Host.Outcome State Fault Refusal :=
  onLeaf (fun l => l.trcDmaError.dumpDmaCheck) s

/-- TRACE_LP_ENTRY (R101): A source enters a low-power state; the leaf writes its open run, drains its FIFO and writes GAP. -/
def execTraceLpEntry (src : Fin 8) (s : State) : Host.Outcome State Fault Refusal :=
  onInput (fun l => l.lpLevel src true) (fun l => l.lpEntry src) s

/-- TRACE_LP_EXIT (R101): A source leaves a low-power state; the leaf writes RESUME and a SYNC before its next item. -/
def execTraceLpExit (src : Fin 8) (s : State) : Host.Outcome State Fault Refusal :=
  onInput (fun l => l.lpLevel src false) (fun l => l.lpExit src) s

/-- TRACE_RPTR_WRITE (R97): Driver software writes TRC.RPTR, freeing ring space so that a full trace ring resumes writing and the occupancy notice re-arms, or is refused when not a multiple of 64. -/
def execTraceRptrWrite (w : W32) (s : State) : Host.Outcome State Fault Refusal :=
  onLeaf (fun l => (l.pageWritten 0x06).trcRptr w) s

end Sys2Proof.Machine
end

