-- ==== Sys2Proof/Machine/ExecTx.lean ====
section
/-!
DEFINITION. The meanings of the commands of pod-wide transactions (chapter 10).
-/

namespace Sys2Proof.Machine

/-- COMMIT_POINT (R221): A decided transaction's commit time or stamp is reached and every member applies in one cycle. -/
def execCommitPoint (idx : Byte) (s : State) : Host.Outcome State Fault Refusal :=
  onTray (fun t => t.commitPoint idx.toNat) s

/-- TX_PREPARE (R224): A T build receives prepare parts, forwards them and validates and reserves its members. -/
def execTxPrepare (link : Byte) (m : TxMsg) (s : State) : Host.Outcome State Fault Refusal :=
  onTray (fun t => t.txPrepare link.toNat m) s

/-- VOTE_TIME (R224): A node's vote time arrives and it sends its vote, counting missing children as no. -/
def execVoteTime (job : W32) (txid : W32) (s : State) : Host.Outcome State Fault Refusal :=
  onTray (fun t => t.voteTime job txid) s

/-- TX_VOTE (R224): A node receives a child's vote. -/
def execTxVote (link : Byte) (m : TxMsg) (s : State) : Host.Outcome State Fault Refusal :=
  onTray (fun t => t.txVote link.toNat m) s

/-- TX_DECISION (R225): The coordinator decides commit or abort by D and sends the decision copy. -/
def execTxDecision (job : W32) (txid : W32) (s : State) : Host.Outcome State Fault Refusal :=
  onTray (fun t => t.txDecision job txid) s

/-- TX_DECISION_COPY (R225): The alternate parent or standby stores a decision copy and acknowledges it. -/
def execTxDecisionCopy (link : Byte) (m : TxMsg) (s : State) : Host.Outcome State Fault Refusal :=
  onTray (fun t => t.txCopy link.toNat m) s

/-- TX_DECISION_COPY_ACK (R225): The decision copy's acknowledgement arrives and the coordinator sends commit and abort. -/
def execTxDecisionCopyAck (job : W32) (txid : W32) (s : State) : Host.Outcome State Fault Refusal :=
  onTray (fun t => t.txCopyAck job txid) s

/-- TX_COMMIT (R225): A node receives commit, forwards it and holds the commit point. -/
def execTxCommit (link : Byte) (m : TxMsg) (s : State) : Host.Outcome State Fault Refusal :=
  onTray (fun t => t.txCommit link.toNat m) s

/-- TX_ABORT (R225): A node receives abort, forwards it and releases its reservations. -/
def execTxAbort (m : TxMsg) (s : State) : Host.Outcome State Fault Refusal :=
  onTray (fun t => t.txAbort m) s

/-- TX_COMMIT_ACK (R225): A node receives a child's commit acknowledgement and forgets that child's outcome. -/
def execTxCommitAck (link : Byte) (m : TxMsg) (s : State) : Host.Outcome State Fault Refusal :=
  onTray (fun t => t.txCommitAck link.toNat m) s

/-- TRANSACTION_IN_DOUBT (R226): No outcome by D + OUTTO; the node sends an outcome query and writes transaction in doubt. -/
def execTransactionInDoubt (job : W32) (txid : W32) (s : State) : Host.Outcome State Fault Refusal :=
  onTray (fun t => t.txDoubt job txid) s

/-- TX_OUTCOME_QUERY (R226): A node holding the outcome or a decision copy answers an outcome query. -/
def execTxOutcomeQuery (link : Byte) (m : TxMsg) (s : State) : Host.Outcome State Fault Refusal :=
  onTray (fun t => t.txQuery link.toNat m) s

end Sys2Proof.Machine
end

