-- ==== Sys2Proof/Machine/Dispatch.lean ====
section
/-!
DEFINITION. The meaning of each command: one arm per constructor, one call per arm.
-/

namespace Sys2Proof.Machine

def exec (i : Instr) (s : State) : Host.Outcome State Fault Refusal :=
  match i with
  | .registerWrite b a n data priv env => Sys2Proof.Machine.execRegisterWrite b a n data priv env s
  | .rcRead b a n env => Sys2Proof.Machine.execRcRead b a n env s
  | .incFracWrite b w => Sys2Proof.Machine.execIncFracWrite b w s
  | .incNsWrite b ns => Sys2Proof.Machine.execIncNsWrite b ns s
  | .offsetStep b => Sys2Proof.Machine.execOffsetStep b s
  | .load b => Sys2Proof.Machine.execLoad b s
  | .holdover b => Sys2Proof.Machine.execHoldover b s
  | .tb0NslRead b tb1 => Sys2Proof.Machine.execTb0NslRead b tb1 s
  | .timedAction b act => Sys2Proof.Machine.execTimedAction b act s
  | .stepMark slots viaPort => Sys2Proof.Machine.execStepMark slots viaPort s
  | .longStep b slot => Sys2Proof.Machine.execLongStep b slot s
  | .pseedWrite slot hi => Sys2Proof.Machine.execPseedWrite slot hi s
  | .idxSetWrite slot w => Sys2Proof.Machine.execIdxSetWrite slot w s
  | .stepSlotEnable slot w => Sys2Proof.Machine.execStepSlotEnable slot w s
  | .angRead b slot => Sys2Proof.Machine.execAngRead b slot s
  | .scheduleEntryFire slot => Sys2Proof.Machine.execScheduleEntryFire slot s
  | .astbSwap => Sys2Proof.Machine.execAstbSwap s
  | .ppsIn => Sys2Proof.Machine.execPpsIn s
  | .ppsOutRise => Sys2Proof.Machine.execPpsOutRise s
  | .ppsOutFall => Sys2Proof.Machine.execPpsOutFall s
  | .stepMarkNotice link n => Sys2Proof.Machine.execStepMarkNotice link n s
  | .stepSourceSwitched slot => Sys2Proof.Machine.execStepSourceSwitched slot s
  | .timeFrameReceive b port dst src ptp => Sys2Proof.Machine.execTimeFrameReceive b port dst src ptp s
  | .ptpForward port dst src ptp => Sys2Proof.Machine.execPtpForward port dst src ptp s
  | .ringSlotArrival slot => Sys2Proof.Machine.execRingSlotArrival slot s
  | .stopIncrement base src inc gauge => Sys2Proof.Machine.execStopIncrement base src inc gauge s
  | .stopBypass base byp => Sys2Proof.Machine.execStopBypass base byp s
  | .heldSlotRead lost => Sys2Proof.Machine.execHeldSlotRead lost s
  | .ringCalibrate => Sys2Proof.Machine.execRingCalibrate s
  | .latencyMarkerReturn => Sys2Proof.Machine.execLatencyMarkerReturn s
  | .ringFault => Sys2Proof.Machine.execRingFault s
  | .unprivilegedCounterAccess => Sys2Proof.Machine.execUnprivilegedCounterAccess s
  | .counterCapture auto n => Sys2Proof.Machine.execCounterCapture auto n s
  | .captureComplete => Sys2Proof.Machine.execCaptureComplete s
  | .counterClear auto n => Sys2Proof.Machine.execCounterClear auto n s
  | .clrall => Sys2Proof.Machine.execClrall s
  | .capHAutoRead => Sys2Proof.Machine.execCapHAutoRead s
  | .windowEdge unit => Sys2Proof.Machine.execWindowEdge unit s
  | .selSwap slot => Sys2Proof.Machine.execSelSwap slot s
  | .sampleReadComplete => Sys2Proof.Machine.execSampleReadComplete s
  | .creditMessage slot level grant => Sys2Proof.Machine.execCreditMessage slot level grant s
  | .creditReturn ring => Sys2Proof.Machine.execCreditReturn ring s
  | .traceItem src item val => Sys2Proof.Machine.execTraceItem src item val s
  | .traceLossExit src => Sys2Proof.Machine.execTraceLossExit src s
  | .traceEnable => Sys2Proof.Machine.execTraceEnable s
  | .traceSourceEnable src w => Sys2Proof.Machine.execTraceSourceEnable src w s
  | .traceBlockAck => Sys2Proof.Machine.execTraceBlockAck s
  | .traceFlush => Sys2Proof.Machine.execTraceFlush s
  | .traceFlushDone => Sys2Proof.Machine.execTraceFlushDone s
  | .traceDmaError => Sys2Proof.Machine.execTraceDmaError s
  | .traceLpEntry src => Sys2Proof.Machine.execTraceLpEntry src s
  | .traceLpExit src => Sys2Proof.Machine.execTraceLpExit src s
  | .eventReport b page code sev flash slot payload => Sys2Proof.Machine.execEventReport b page code sev flash slot payload s
  | .recordWindowEnd b => Sys2Proof.Machine.execRecordWindowEnd b s
  | .flashProgramDone b fail => Sys2Proof.Machine.execFlashProgramDone b fail s
  | .flashEraseDone b fail => Sys2Proof.Machine.execFlashEraseDone b fail s
  | .historyEnable b susp => Sys2Proof.Machine.execHistoryEnable b susp s
  | .historyScanDone b => Sys2Proof.Machine.execHistoryScanDone b s
  | .historyFormat b => Sys2Proof.Machine.execHistoryFormat b s
  | .operatingMinute b => Sys2Proof.Machine.execOperatingMinute b s
  | .historyRead b w => Sys2Proof.Machine.execHistoryRead b w s
  | .historyReadDone b => Sys2Proof.Machine.execHistoryReadDone b s
  | .operatingSecond b codes => Sys2Proof.Machine.execOperatingSecond b codes s
  | .coneEnable b cone w => Sys2Proof.Machine.execConeEnable b cone w s
  | .conePoll b cone => Sys2Proof.Machine.execConePoll b cone s
  | .identityReadDone b cone ident => Sys2Proof.Machine.execIdentityReadDone b cone ident s
  | .coneRestart b => Sys2Proof.Machine.execConeRestart b s
  | .coneCheckpoint b cone => Sys2Proof.Machine.execConeCheckpoint b cone s
  | .heartbeat engine beat idle => Sys2Proof.Machine.execHeartbeat engine beat idle s
  | .engineExpiry engine => Sys2Proof.Machine.execEngineExpiry engine s
  | .contextEvent engine start id queue => Sys2Proof.Machine.execContextEvent engine start id queue s
  | .resetDelayExpiry engine => Sys2Proof.Machine.execResetDelayExpiry engine s
  | .resetDone dom answer edges => Sys2Proof.Machine.execResetDone dom answer edges s
  | .resetEscalated dom => Sys2Proof.Machine.execResetEscalated dom s
  | .hungClear engine => Sys2Proof.Machine.execHungClear engine s
  | .softwareResetRequest dom => Sys2Proof.Machine.execSoftwareResetRequest dom s
  | .suspectClear engine => Sys2Proof.Machine.execSuspectClear engine s
  | .replayBegin w => Sys2Proof.Machine.execReplayBegin w s
  | .replayEnd w => Sys2Proof.Machine.execReplayEnd w s
  | .dumpGo => Sys2Proof.Machine.execDumpGo s
  | .dumpAbort => Sys2Proof.Machine.execDumpAbort s
  | .dumpRelease => Sys2Proof.Machine.execDumpRelease s
  | .dumpAccessDone v err => Sys2Proof.Machine.execDumpAccessDone v err s
  | .dumpAccessTimeout => Sys2Proof.Machine.execDumpAccessTimeout s
  | .walkTimeout => Sys2Proof.Machine.execWalkTimeout s
  | .dumpWriteStall err => Sys2Proof.Machine.execDumpWriteStall err s
  | .dumpTrailerAck => Sys2Proof.Machine.execDumpTrailerAck s
  | .dumpSegmentReceive link leaf body => Sys2Proof.Machine.execDumpSegmentReceive link leaf body s
  | .dumpRefusal id => Sys2Proof.Machine.execDumpRefusal id s
  | .snapshotArm slot => Sys2Proof.Machine.execSnapshotArm slot s
  | .snapshotAbort => Sys2Proof.Machine.execSnapshotAbort s
  | .guardDisable => Sys2Proof.Machine.execGuardDisable s
  | .guardCheck a len => Sys2Proof.Machine.execGuardCheck a len s
  | .waitingCheckAnswer => Sys2Proof.Machine.execWaitingCheckAnswer s
  | .copyDone region => Sys2Proof.Machine.execCopyDone region s
  | .guardTimeout => Sys2Proof.Machine.execGuardTimeout s
  | .chunkSubmission lane snap chunk len data => Sys2Proof.Machine.execChunkSubmission lane snap chunk len data s
  | .chunkHashed lane => Sys2Proof.Machine.execChunkHashed lane s
  | .fingerprintFrameTimer => Sys2Proof.Machine.execFingerprintFrameTimer s
  | .electionNotice snap first codes => Sys2Proof.Machine.execElectionNotice snap first codes s
  | .decisionQuery chunk => Sys2Proof.Machine.execDecisionQuery chunk s
  | .receivePacket b p => Sys2Proof.Machine.execReceivePacket b p s
  | .controlReceive b link p => Sys2Proof.Machine.execControlReceive b link p s
  | .linkAcknowledgement b link lseq => Sys2Proof.Machine.execLinkAcknowledgement b link lseq s
  | .ackTimeout b link => Sys2Proof.Machine.execAckTimeout b link s
  | .restartResend b link => Sys2Proof.Machine.execRestartResend b link s
  | .packetSent b port => Sys2Proof.Machine.execPacketSent b port s
  | .mailboxSend b w => Sys2Proof.Machine.execMailboxSend b w s
  | .gateSwap b port => Sys2Proof.Machine.execGateSwap b port s
  | .gateEntryChange b port => Sys2Proof.Machine.execGateEntryChange b port s
  | .launchTime b port => Sys2Proof.Machine.execLaunchTime b port s
  | .queueSample b port => Sys2Proof.Machine.execQueueSample b port s
  | .tsqE3Read b => Sys2Proof.Machine.execTsqE3Read b s
  | .segmentReceive leaf body => Sys2Proof.Machine.execSegmentReceive leaf body s
  | .reassemblyTimeout k => Sys2Proof.Machine.execReassemblyTimeout k s
  | .ethernetLinkDown port => Sys2Proof.Machine.execEthernetLinkDown port s
  | .ethernetLinkUp port ty => Sys2Proof.Machine.execEthernetLinkUp port ty s
  | .distributeFrame dist => Sys2Proof.Machine.execDistributeFrame dist s
  | .projectionArrival way => Sys2Proof.Machine.execProjectionArrival way s
  | .workUnitEnd core idx => Sys2Proof.Machine.execWorkUnitEnd core idx s
  | .forcedRefresh core => Sys2Proof.Machine.execForcedRefresh core s
  | .patrolScrub space word found => Sys2Proof.Machine.execPatrolScrub space word found s
  | .currentInterval mean => Sys2Proof.Machine.execCurrentInterval mean s
  | .ingestRingEnable ring w => Sys2Proof.Machine.execIngestRingEnable ring w s
  | .apertureStageWrite q off data => Sys2Proof.Machine.execApertureStageWrite q off data s
  | .commandAppend q off data => Sys2Proof.Machine.execCommandAppend q off data s
  | .commandDispatch cls => Sys2Proof.Machine.execCommandDispatch cls s
  | .nop q => Sys2Proof.Machine.execNop q s
  | .waitq q => Sys2Proof.Machine.execWaitq q s
  | .waitat q => Sys2Proof.Machine.execWaitat q s
  | .waitSatisfied q => Sys2Proof.Machine.execWaitSatisfied q s
  | .waitqTimeout q => Sys2Proof.Machine.execWaitqTimeout q s
  | .txclose q => Sys2Proof.Machine.execTxclose q s
  | .txabort q => Sys2Proof.Machine.execTxabort q s
  | .mark q => Sys2Proof.Machine.execMark q s
  | .mload q => Sys2Proof.Machine.execMload q s
  | .munload q => Sys2Proof.Machine.execMunload q s
  | .mbind q => Sys2Proof.Machine.execMbind q s
  | .munbind q => Sys2Proof.Machine.execMunbind q s
  | .pdefine q => Sys2Proof.Machine.execPdefine q s
  | .pfree q => Sys2Proof.Machine.execPfree q s
  | .pfreeRelease pset => Sys2Proof.Machine.execPfreeRelease pset s
  | .cutclose q => Sys2Proof.Machine.execCutclose q s
  | .copy q => Sys2Proof.Machine.execCopy q s
  | .zcomp q => Sys2Proof.Machine.execZcomp q s
  | .zdecomp q => Sys2Proof.Machine.execZdecomp q s
  | .msend q => Sys2Proof.Machine.execMsend q s
  | .start q => Sys2Proof.Machine.execStart q s
  | .contain q => Sys2Proof.Machine.execContain q s
  | .sattach q => Sys2Proof.Machine.execSattach q s
  | .sdetach q => Sys2Proof.Machine.execSdetach q s
  | .sepoch q => Sys2Proof.Machine.execSepoch q s
  | .queueResume q => Sys2Proof.Machine.execQueueResume q s
  | .queueFlush q => Sys2Proof.Machine.execQueueFlush q s
  | .thiefIdle core => Sys2Proof.Machine.execThiefIdle core s
  | .stealRequest core => Sys2Proof.Machine.execStealRequest core s
  | .stealRefused core => Sys2Proof.Machine.execStealRefused core s
  | .stealBackoffExpiry core => Sys2Proof.Machine.execStealBackoffExpiry core s
  | .stealTransferDone core => Sys2Proof.Machine.execStealTransferDone core s
  | .classUnitReset cls pass => Sys2Proof.Machine.execClassUnitReset cls pass s
  | .commitPoint idx => Sys2Proof.Machine.execCommitPoint idx s
  | .txPrepare link m => Sys2Proof.Machine.execTxPrepare link m s
  | .voteTime job txid => Sys2Proof.Machine.execVoteTime job txid s
  | .txVote link m => Sys2Proof.Machine.execTxVote link m s
  | .txDecision job txid => Sys2Proof.Machine.execTxDecision job txid s
  | .txDecisionCopy link m => Sys2Proof.Machine.execTxDecisionCopy link m s
  | .txDecisionCopyAck job txid => Sys2Proof.Machine.execTxDecisionCopyAck job txid s
  | .txCommit link m => Sys2Proof.Machine.execTxCommit link m s
  | .txAbort m => Sys2Proof.Machine.execTxAbort m s
  | .txCommitAck link m => Sys2Proof.Machine.execTxCommitAck link m s
  | .transactionInDoubt job txid => Sys2Proof.Machine.execTransactionInDoubt job txid s
  | .txOutcomeQuery link m => Sys2Proof.Machine.execTxOutcomeQuery link m s
  | .cutAngleDeadline pset => Sys2Proof.Machine.execCutAngleDeadline pset s
  | .cutTimeDeadline pset => Sys2Proof.Machine.execCutTimeDeadline pset s
  | .harvestPublish pset => Sys2Proof.Machine.execHarvestPublish pset s
  | .harvestRingWrite ring => Sys2Proof.Machine.execHarvestRingWrite ring s
  | .harvestRelay => Sys2Proof.Machine.execHarvestRelay s
  | .harvestSegmentReceive child body => Sys2Proof.Machine.execHarvestSegmentReceive child body s
  | .partialReceive handle gath => Sys2Proof.Machine.execPartialReceive handle gath s
  | .scoreSend handle gath => Sys2Proof.Machine.execScoreSend handle gath s
  | .scoreExpired handle gath => Sys2Proof.Machine.execScoreExpired handle gath s
  | .batchReady handle group => Sys2Proof.Machine.execBatchReady handle group s
  | .shortBatch handle group => Sys2Proof.Machine.execShortBatch handle group s
  | .streamLoadDone handle group waited => Sys2Proof.Machine.execStreamLoadDone handle group waited s
  | .streamBatchDone handle group => Sys2Proof.Machine.execStreamBatchDone handle group s
  | .healthEnable slot w => Sys2Proof.Machine.execHealthEnable slot w s
  | .referenceMessage body => Sys2Proof.Machine.execReferenceMessage body s
  | .containmentRequest m => Sys2Proof.Machine.execContainmentRequest m s
  | .containmentHostAck kind level => Sys2Proof.Machine.execContainmentHostAck kind level s
  | .containmentAckTimeout => Sys2Proof.Machine.execContainmentAckTimeout s
  | .containmentAcknowledgement m => Sys2Proof.Machine.execContainmentAcknowledgement m s
  | .containmentUnacknowledged q => Sys2Proof.Machine.execContainmentUnacknowledged q s
  | .stateQuery m => Sys2Proof.Machine.execStateQuery m s
  | .stateQueryAnswer m => Sys2Proof.Machine.execStateQueryAnswer m s
  | .grantRequest m => Sys2Proof.Machine.execGrantRequest m s
  | .grant m => Sys2Proof.Machine.execGrant m s
  | .deny m => Sys2Proof.Machine.execDeny m s
  | .grantTimeout slot member => Sys2Proof.Machine.execGrantTimeout slot member s
  | .grantReturned m => Sys2Proof.Machine.execGrantReturned m s
  | .sparesWrite slot w => Sys2Proof.Machine.execSparesWrite slot w s
  | .budgetOpen m => Sys2Proof.Machine.execBudgetOpen m s
  | .eventRecordWriteAck => Sys2Proof.Machine.execEventRecordWriteAck s
  | .eventRecordStage => Sys2Proof.Machine.execEventRecordStage s
  | .ciWrite b evq w => Sys2Proof.Machine.execCiWrite b evq w s
  | .coalescingTimer b evq => Sys2Proof.Machine.execCoalescingTimer b evq s
  | .eventDmaError => Sys2Proof.Machine.execEventDmaError s
  | .eventQueueEnable b evq w => Sys2Proof.Machine.execEventQueueEnable b evq w s
  | .compressionGo => Sys2Proof.Machine.execCompressionGo s
  | .compressionAbort produced => Sys2Proof.Machine.execCompressionAbort produced s
  | .compressionJobDone dmaErr => Sys2Proof.Machine.execCompressionJobDone dmaErr s
  | .startPart link m => Sys2Proof.Machine.execStartPart link m s
  | .hopAcknowledgement link m => Sys2Proof.Machine.execHopAcknowledgement link m s
  | .hopTimeout job bseq link => Sys2Proof.Machine.execHopTimeout job bseq link s
  | .leafAttach m => Sys2Proof.Machine.execLeafAttach m s
  | .leafAcknowledgement m => Sys2Proof.Machine.execLeafAcknowledgement m s
  | .leafNotAttached job bseq leaf => Sys2Proof.Machine.execLeafNotAttached job bseq leaf s
  | .teardownPart link m => Sys2Proof.Machine.execTeardownPart link m s
  | .teardownResend job bseq link => Sys2Proof.Machine.execTeardownResend job bseq link s
  | .leafDetach slot => Sys2Proof.Machine.execLeafDetach slot s
  | .releaseDeadline job => Sys2Proof.Machine.execReleaseDeadline job s
  | .censusReport body => Sys2Proof.Machine.execCensusReport body s
  | .holderStateReport body => Sys2Proof.Machine.execHolderStateReport body s
  | .writtenReport body => Sys2Proof.Machine.execWrittenReport body s
  | .censusDeadline slot => Sys2Proof.Machine.execCensusDeadline slot s
  | .copiedReport body => Sys2Proof.Machine.execCopiedReport body s
  | .replayArm m => Sys2Proof.Machine.execReplayArm m s
  | .ladderStepEnd b flashOk crcOk fails chans => Sys2Proof.Machine.execLadderStepEnd b flashOk crcOk fails chans s
  | .ladderStepOverran => Sys2Proof.Machine.execLadderStepOverran s
  | .hello p => Sys2Proof.Machine.execHello p s
  | .tokenRefill => Sys2Proof.Machine.execTokenRefill s
  | .helloRetry b => Sys2Proof.Machine.execHelloRetry b s
  | .accept b epoch peer detail => Sys2Proof.Machine.execAccept b epoch peer detail s
  | .helloRefuse b => Sys2Proof.Machine.execHelloRefuse b s
  | .linkEnable => Sys2Proof.Machine.execLinkEnable s
  | .keepalive b link => Sys2Proof.Machine.execKeepalive b link s
  | .supplyWarningStart b code rail => Sys2Proof.Machine.execSupplyWarningStart b code rail s
  | .supplyWarningEnd b code rail took => Sys2Proof.Machine.execSupplyWarningEnd b code rail took s
  | .supplyWarningLong b => Sys2Proof.Machine.execSupplyWarningLong b s
  | .coldReset b source => Sys2Proof.Machine.execColdReset b source s
  | .warmReset b source => Sys2Proof.Machine.execWarmReset b source s
  | .unitReset => Sys2Proof.Machine.execUnitReset s
  | .linkReset b pci port => Sys2Proof.Machine.execLinkReset b pci port s
  | .resetRelease b taHash taValid => Sys2Proof.Machine.execResetRelease b taHash taValid s
  | .park b => Sys2Proof.Machine.execPark b s
  | .unpark b => Sys2Proof.Machine.execUnpark b s
  | .debugModeWrite b w => Sys2Proof.Machine.execDebugModeWrite b w s
  | .injectionKey b page w => Sys2Proof.Machine.execInjectionKey b page w s
  | .injectionArm b page w => Sys2Proof.Machine.execInjectionArm b page w s
  | .correctedErrorSecond b => Sys2Proof.Machine.execCorrectedErrorSecond b s
  | .errorInterruptEnable b w => Sys2Proof.Machine.execErrorInterruptEnable b w s
  | .enroll b => Sys2Proof.Machine.execEnroll b s
  | .installCerts b verdict flashOk => Sys2Proof.Machine.execInstallCerts b verdict flashOk s
  | .configurationApply b v flashOk => Sys2Proof.Machine.execConfigurationApply b v flashOk s
  | .reportRequest b => Sys2Proof.Machine.execReportRequest b s
  | .measurementExtend b w => Sys2Proof.Machine.execMeasurementExtend b w s
  | .attestationRequest b nonce => Sys2Proof.Machine.execAttestationRequest b nonce s
  | .attestationReport link body => Sys2Proof.Machine.execAttestationReport link body s
  | .thermalLimit tj sensor => Sys2Proof.Machine.execThermalLimit tj sensor s
  | .thermalClear tj sensor => Sys2Proof.Machine.execThermalClear tj sensor s
  | .thermtrip tj sensor => Sys2Proof.Machine.execThermtrip tj sensor s
  | .dataCommandComplete q engine => Sys2Proof.Machine.execDataCommandComplete q engine s
  | .harvestRingRciWrite ring v => Sys2Proof.Machine.execHarvestRingRciWrite ring v s
  | .traceRptrWrite w => Sys2Proof.Machine.execTraceRptrWrite w s
  | .busMasterEnable => Sys2Proof.Machine.execBusMasterEnable s
  | .msixVectorUnmask vector => Sys2Proof.Machine.execMsixVectorUnmask vector s
  | .distributorStalled dist => Sys2Proof.Machine.execDistributorStalled dist s

end Sys2Proof.Machine
end

