-- ==== Sys2Proof/Safety.lean ====
section
/-!
DEFINITION. What statements mean by a safe run of the block.
-/

namespace Sys2Proof.Machine

/-- A state whose two builds are what they are called. -/
def State.wf (s : State) : Bool := decide (s.leaf.u.build = .leaf) && decide (s.tray.u.build = .tray)

/-- The state after `n` steps; none where one of them stops. -/
def State.run : Nat → State → Option State
  | 0, s => some s
  | n + 1, s =>
    match step s with
    | .next t => t.run n
    | _ => none

/-- The commands of a list, run one after another on a state whose queue they do not stand in. -/
def State.runAll : List Instr → State → Option State
  | [], s => some s
  | c :: cs, s =>
    match exec c s with
    | .next t => t.runAll cs
    | _ => none

/-- What the two builds hold alike. -/
def State.blkOf (s : State) : Build → Blk
  | .leaf => s.leaf.u
  | .tray => s.tray.u

/-- A byte memory in its canonical form: addresses strictly rising and no zero byte listed (R203, R373). -/
def Memory.wf (m : SMap Byte) : Bool := smCanon m (fun _ => 0)

/-- The memories of the tier are in canonical form: LPDDR5X, the brine store and the core slices. -/
def Tray.memWf (t : Tray) : Bool := Memory.wf t.tier.lp && Memory.wf t.tier.brine && smCanon t.tier.slice (fun _ => 0)

/-- Two states of a leaf differ only in what its inputs bring while a cold reset holds it: the supply code, low-power levels of trace sources, idle levels of
engines, answers of reset domains and containment acknowledges (R369, R374). -/
def Leaf.SameButInputs (l m : Leaf) : Prop :=
  m = { l with u := { l.u with pw := { l.u.pw with code := m.u.pw.code, rail := m.u.pw.rail } },
               trc := { l.trc with srcs := m.trc.srcs },
               kst := { l.kst with engines := m.kst.engines, doms := m.kst.doms, edges := m.kst.edges },
               ctn := { l.ctn with throttle := { l.ctn.throttle with ack := m.ctn.throttle.ack },
                                   quiesce := { l.ctn.quiesce with ack := m.ctn.quiesce.ack },
                                   expel := { l.ctn.expel with ack := m.ctn.expel.ack } } } ∧
  (∀ k, m.src k = { l.src k with lowPower := (m.src k).lowPower }) ∧
  (∀ e, m.engine e = { l.engine e with idle := (m.engine e).idle }) ∧
  (∀ d, m.dom d = { l.dom d with ack := (m.dom d).ack, done := (m.dom d).done })

/-- Two states of a T build differ only in what its inputs bring while a cold reset holds it: the supply code, the temperature with its trip, and the flaws
that the scrub finds or mends (R203, R369, R435). -/
def Tray.SameButInputs (t m : Tray) : Prop :=
  m = { t with u := { t.u with pw := { t.u.pw with code := m.u.pw.code, rail := m.u.pw.rail, tj := m.u.pw.tj, tjSensor := m.u.pw.tjSensor,
                                                   thermtrip := m.u.pw.thermtrip }, out := m.u.out },
               tier := { t.tier with bad := m.tier.bad } } ∧
  (m.u.out = t.u.out ∨ m.u.out = .pin .thermtripN 0 0 :: t.u.out)

/-- No reset holds the build, and driver software reaches its registers: in the T build from the end of the memory-tier step of the ladder onward (R365). -/
abbrev State.Open (s : State) (b : Build) : Prop := (s.blkOf b).held = none ∧ (b = .tray → 2 ≤ s.tray.u.pw.step)

end Sys2Proof.Machine
end

