-- ==== Sys2Proof/Certificates/Slice0/Obligations.lean ====
section
/-!
DEFINITION. The statements about the model that are to be proved.
-/

namespace Sys2Proof.Slice0

open Sys2Proof.Machine

/-- No reset holds the build. -/
abbrev Free (s : State) (b : Build) : Prop := (s.blkOf b).held = none

/-- The command leaves everything as it is but the leaf, which becomes `l`. -/
def LeafBecomes (c : Instr) (s : State) (l : Leaf) : Prop := exec c s = .next { s with leaf := l }

/-- The command leaves everything as it is but the tray build, which becomes `t` and then what `t` lets happen at once. -/
def TrayBecomes (c : Instr) (s : State) (t : Tray) : Prop := exec c s = .next { s with tray := t.settle s.tray }

/-- The command changes of its build only what the two builds hold alike, which becomes `v`. -/
def BlkBecomes (b : Build) (c : Instr) (s : State) (v : Blk) : Prop :=
  match b with
  | .leaf => LeafBecomes c s { s.leaf with u := v }
  | .tray => TrayBecomes c s { s.tray with u := v }

/-- Only the registers with the keys of a list may differ. -/
def OnlyRegs (u v : Blk) (ks : List Nat) : Prop := v = { u with regs := v.regs } ∧ ∀ k, k ∉ ks → v.reg k = u.reg k

/-- A leaf that a cold reset holds in the state `l0`, its input levels apart, while no release of it waits. -/
def LeafHeldCold (l0 : Leaf) (s : State) : Prop :=
  l0.SameButInputs s.leaf ∧ l0.u.held = some .cold ∧ ∀ c ∈ s.pending, ∀ h v, c ≠ .resetRelease .leaf h v

/-- A tray build that a cold reset holds in the state `t0`, its input levels apart, while no release of it waits. -/
def TrayHeldCold (t0 : Tray) (s : State) : Prop :=
  t0.SameButInputs s.tray ∧ t0.u.held = some .cold ∧ ∀ c ∈ s.pending, ∀ h v, c ≠ .resetRelease .tray h v

end Sys2Proof.Slice0

open Sys2Proof Sys2Proof.Machine Sys2Proof.Slice0

/-- For every command c and state s, the step of s with c at the front of its queue is exec of c on s with the rest of the queue (log entry 5: how commands come is the model's choice). (spec/00_scope.md) -/
def Obligations.StepRunsFrontCommand : Prop :=
  ∀ (c : Instr) (rest : List Instr) (s : State), step { s with pending := c :: rest } = exec c { s with pending := rest }

/-- On an empty queue the step answers a next state with an empty queue. A build held by a cold reset does not change. In a build held by another reset time moves by one cycle, and in the leaf the counter ring goes on (R60). In a build no reset holds, time moves by one cycle, the due timed actions fire, in the tray build the 1PPS output follows TB0, and in the leaf the counter ring goes on and trace packets merge (log entry 5, the model's choice of what an idle step is). (R30, R373, R374) -/
def Obligations.EmptyQueueStepIsOneCycle : Prop :=
  ∀ s : State, s.pending = [] → ∃ t, step s = .next t ∧ t.pending = [] ∧
    (s.leaf.u.held = some .cold → t.leaf = s.leaf) ∧ (s.tray.u.held = some .cold → t.tray = s.tray) ∧
    (∀ k, s.leaf.u.held = some k → k ≠ .cold → t.leaf = (s.leaf.blk (fun u => u.adv 1)).ringCycle) ∧
    (∀ k, s.tray.u.held = some k → k ≠ .cold → t.tray = s.tray.blk (fun u => u.adv 1)) ∧
    (s.leaf.u.held = none → t.leaf = (s.leaf.blk (fun u => (u.adv 1).fireDue)).ringCycle.merge) ∧
    (s.tray.u.held = none → t.tray = s.tray.blk (fun u => ((u.adv 1).ppsCycle u.clk.ns).fireDue))

/-- For every command and every state, exec answers a next state, never a fault or a refusal, and the commands that wait are what they were. (spec/00_scope.md, spec/17_power_reset_hotplug.md) -/
def Obligations.EveryCommandAnswersANextState : Prop :=
  ∀ (c : Instr) (s : State), ∃ t, exec c s = .next t ∧ t.pending = s.pending

/-- Running as many steps as a list of commands has, from a state whose queue begins with that list, gives what running the commands of the list one after another gives on the state with the rest of the queue. (spec/00_scope.md) -/
def Obligations.QueueRunsFirstInFirstOut : Prop :=
  ∀ (cs rest : List Instr) (s : State),
    State.run cs.length { s with pending := cs ++ rest } = State.runAll cs { s with pending := rest }

/-- Take any two states whose queues agree and any number of steps. Both runs go through, their queues agree at the end, and if the leaves agreed at the start they agree at the end, and if the tray builds agreed at the start they agree at the end (log entry 1: the two builds stand side by side, and their messages to each other are operands of commands). (R1, R2, spec/00_scope.md) -/
def Obligations.BuildsRunIndependently : Prop :=
  ∀ (n : Nat) (s1 s2 : State), s1.pending = s2.pending → ∃ t1 t2, State.run n s1 = some t1 ∧ State.run n s2 = some t2 ∧
    t1.pending = t2.pending ∧ (s1.leaf = s2.leaf → t1.leaf = t2.leaf) ∧ (s1.tray = s2.tray → t1.tray = t2.tray)

/-- While a cold reset holds the leaf and no release of it waits, every step keeps the leaf as it is but for what its inputs bring (the supply code and its rail, low-power levels of trace sources, idle levels of engines, answers of reset domains and containment acknowledges), and the reset holds on. Likewise for the tray build, where the inputs are the supply code, the temperature with its trip and the trip's pin, and the scrub goes on mending and finding flaws of the memories. A further cold reset changes nothing (that input levels are taken while a reset is held is log entry 116). (R374, R373, R203, R369, R435) -/
def Obligations.ColdHeldBuildKeepsItsState : Prop :=
  (∀ (l0 : Leaf) (s t : State), LeafHeldCold l0 s → step s = .next t → LeafHeldCold l0 t) ∧
  (∀ (t0 : Tray) (s t : State), TrayHeldCold t0 s → step s = .next t → TrayHeldCold t0 t)

/-- If LPDDR5X, the brine store and the core slices list their addresses strictly rising and list no zero, so they do after every step, whatever command it runs. (R203, R373) -/
def Obligations.MemoryStaysCanonical : Prop :=
  ∀ s t : State, s.tray.memWf = true → step s = .next t → t.tray.memWf = true

/-- At reset LPDDR5X, the brine store and the slices are in canonical form, and every byte and every line reads as zero. (R203, R373) -/
def Obligations.ResetMemoryIsEmpty : Prop :=
  State.reset.tray.memWf = true ∧ (∀ a, smGet State.reset.tray.tier.lp a 0 = 0) ∧ (∀ a, smGet State.reset.tray.tier.brine a 0 = 0) ∧
  (∀ core line, State.reset.tray.line core line = 0)

/-- At reset no command waits and no reset holds a build. TB0 and TB1 read zero, TB0 is not valid, and the increment is 1 ns per cycle in the leaf and 3.2 ns in the tray build. Every event counter is zero. The recovery marker has taken sequence number 0. PWR.LEVELS, STEP.CTL.k and TBS.HOLDTO have the values of the reset table (that the state right after reset is the one just released, with the recovery marker recorded, is log entry 12). (R33, R31, R60, R105, R315, R452) -/
def Obligations.ResetLeavesTheSpecsValues : Prop :=
  State.reset.pending = [] ∧ (∀ b, (State.reset.blkOf b).held = none ∧ (State.reset.blkOf b).clk.tb = 0 ∧
    (State.reset.blkOf b).clk.tb1 = 0 ∧ (State.reset.blkOf b).clk.valid = false ∧ (State.reset.blkOf b).reg R.EVR_SEQ = 1 ∧
    (State.reset.blkOf b).rcd.ring.length = 1 ∧ (State.reset.blkOf b).rf R.TBS_HOLDTO 0 16 = 2000 ∧
    (State.reset.blkOf b).warnLv = 190 ∧ (State.reset.blkOf b).rstLv = 180 ∧ ∀ k, ((State.reset.blkOf b).step k).k = 3) ∧
  State.reset.leaf.u.clk.inc = 0x0100000000#40 ∧ State.reset.tray.u.clk.inc = 0x0333333333#40 ∧
  ∀ n, State.reset.leaf.counter n = ⟨0, false⟩

/-- From a state in which no command waits and no reset holds a build, n idle steps leave the build with TB0 (nanoseconds and fraction, 96 bits) advanced by n times the increment, TB1 by n, and the increment unchanged. (R30) -/
def Obligations.TimeAdvancesByTheIncrement : Prop :=
  ∀ (n : Nat) (s : State) (b : Build), s.pending = [] → Free s b → ∃ t, State.run n s = some t ∧
    (t.blkOf b).clk.tb = (s.blkOf b).clk.tb + BitVec.ofNat 96 (n * (s.blkOf b).clk.inc.toNat) ∧
    (t.blkOf b).clk.tb1 = (s.blkOf b).clk.tb1 + BitVec.ofNat 64 n ∧ (t.blkOf b).clk.inc = (s.blkOf b).clk.inc

/-- A write of INC_FRAC only holds the fraction. A write of INC_NS is discipline and ends holdover. Where the pair is not zero it becomes the increment. Where it is zero the increment stays, inc_rej is set and PGCAUSE bit 2 of TBS is set. Nothing else changes but what a cause may raise. (R31, R35) -/
def Obligations.IncrementTakesEffectAsAPair : Prop :=
  ∀ (s : State) (b : Build), s.Open b →
    let u := s.blkOf b
    (∀ w, BlkBecomes b (.incFracWrite b w) s { u with clk := { u.clk with fracHeld := w } }) ∧
    (∀ ns : Byte, ns ++ u.clk.fracHeld ≠ 0 → BlkBecomes b (.incNsWrite b ns) s
      { u with clk := { u.clk with hold := false, discAt := u.clk.ival, inc := ns ++ u.clk.fracHeld } }) ∧
    (∀ ns : Byte, ns ++ u.clk.fracHeld = 0 →
      let v := (({ u with clk := { u.clk with hold := false, discAt := u.clk.ival } } : Blk).setRc R.TBS_STS 2).cause 0x01 0 2
      BlkBecomes b (.incNsWrite b ns) s v ∧ v.clk.inc = u.clk.inc ∧ bit (v.reg R.TBS_STS) 2 = true ∧ bit (v.reg 0x1014) 2 = true)

/-- A read of TB0_NSL answers the low nanosecond word, latches the high word, the fraction and TB1, and changes nothing else. A read of TB1_L answers the low word of TB1, latches its high word, and changes nothing else. (R34) -/
def Obligations.TimeReadLatchesOneInstant : Prop :=
  ∀ (s : State) (b : Build), s.Open b →
    let u := s.blkOf b
    BlkBecomes b (.tb0NslRead b false) s
      { u with clk := { u.clk with latNsh := u.clk.tb.extractLsb' 64 32, latFrac := u.clk.tb.extractLsb' 0 32, latTb1 := u.clk.tb1 }, out := .read 0x1040 ((u.clk.tb.extractLsb' 32 32).setWidth 64) :: u.out } ∧
    BlkBecomes b (.tb0NslRead b true) s
      { u with clk := { u.clk with latTb1h := u.clk.tb1.extractLsb' 32 32 }, out := .read 0x1080 ((u.clk.tb1.extractLsb' 0 32).setWidth 64) :: u.out }

/-- A time is reached exactly when the base is less than 2^63 past it, modulo 2^64; a step index is at or after another exactly when it is less than 2^31 past it, modulo 2^32. (R36) -/
def Obligations.ComparisonsUseTheSignedDifference : Prop :=
  (∀ T d : W64, reached64 (T + d) T = decide (d.toNat < 2 ^ 63)) ∧ (∀ a d : W32, stepReached (a + d) a = decide (d.toNat < 2 ^ 31))

/-- After an offset step of the leaf TB0 is the old value plus the 96 bits of the offset registers, after a load it is those 96 bits; TB0 is valid in both cases, and TB1, the increment, the holdover state and the interval sum are as before. (R32, R33) -/
def Obligations.OffsetStepAndLoadSetTheTime : Prop :=
  ∀ s : State, Free s .leaf →
    let u := s.leaf.u
    let ofs : W96 := u.reg 0x1064 ++ u.reg 0x1060 ++ u.reg 0x1068
    (∃ l, LeafBecomes (.offsetStep .leaf) s l ∧ l.u.clk = { u.clk with tb := u.clk.tb + ofs, valid := true }) ∧
    (∃ l, LeafBecomes (.load .leaf) s l ∧ l.u.clk = { u.clk with tb := ofs, valid := true })

/-- A cold reset of a build that no cold reset holds leaves TB0 and TB1 zero, TB0 not valid and the build held, with the source in RSTCAUSE, and in the leaf every counter zero. A warm reset and a unit reset of the leaf keep time and every counter, and the unit reset does not hold the leaf. (R33, R60, R373, R374) -/
def Obligations.ResetsAndTime : Prop :=
  ∀ (s : State) (src : Byte),
    (s.leaf.u.held ≠ some .cold → ∃ l, LeafBecomes (.coldReset .leaf src) s l ∧ l.u.clk.tb = 0 ∧ l.u.clk.tb1 = 0 ∧ l.u.clk.valid = false ∧
      l.u.held = some .cold ∧ l.u.reg R.BLK_RSTCAUSE = src.setWidth 32 ∧ ∀ n, l.counter n = ⟨0, false⟩) ∧
    (s.tray.u.held ≠ some .cold → ∃ t, exec (.coldReset .tray src) s = .next { s with tray := t } ∧ t.u.clk.tb = 0 ∧ t.u.clk.tb1 = 0 ∧
      t.u.clk.valid = false ∧ t.u.held = some .cold ∧ t.u.reg R.BLK_RSTCAUSE = src.setWidth 32) ∧
    (Free s .leaf → (∃ l, LeafBecomes (.warmReset .leaf src) s l ∧ l.u.clk = s.leaf.u.clk ∧ l.u.held = some .warm ∧
        ∀ n, l.counter n = s.leaf.counter n) ∧
      ∃ l, LeafBecomes .unitReset s l ∧ l.u.clk = s.leaf.u.clk ∧ l.u.held = none ∧ ∀ n, l.counter n = s.leaf.counter n)

/-- In the leaf the angle of a slot reads all ones exactly when a mark has been accepted, the period is known and the step is marked as overrun or at least a period has passed since the mark; before that it is the exact floor of the fraction passed, capped below all ones; with no mark or no period it is zero. (R42, R10) -/
def Obligations.AngleIsAllOnesExactlyInOverrun : Prop :=
  ∀ (u : Blk) (slot : Nat), u.build = .leaf →
    let c := u.step slot
    let e := (u.clk.tb1 - c.markAt).toNat
    (u.angle slot = 0xFFFFFFFF#32 ↔ c.haveMark = true ∧ c.estValid = true ∧ (c.overrun = true ∨ c.per.toNat ≤ e)) ∧
    (c.haveMark = true → c.estValid = true → c.overrun = false → e < c.per.toNat →
      (u.angle slot).toNat = min (e * 2 ^ 32 / c.per.toNat) 0xFFFFFFFE) ∧
    ((c.haveMark = false ∨ c.estValid = false) → u.angle slot = 0)

/-- A read of a slot's angle answers the angle of that cycle, latches the slot's step index and TB1, and changes nothing else, in either build. (R43) -/
def Obligations.AngleReadLatchesOneStamp : Prop :=
  ∀ (s : State) (b : Build) (slot : Fin 64), s.Open b →
    let u := s.blkOf b
    let k : Nat := match b with | .leaf => (slot : Nat) % 2 | .tray => slot
    BlkBecomes b (.angRead b slot) s
      { u with steps := smSet u.steps k { u.step k with latIdx := (u.step k).idx, latTb1 := u.clk.tb1 } StepClk.reset, out := .read (match b with | .leaf => 0x204C + 0x40 * k | .tray => 0x204C) ((u.angle k).setWidth 64) :: u.out }

/-- A write of the seed's high half of a slot that is not attached takes a pair that is not zero into the period and makes it valid; otherwise only the high half is stored. A write of IDX_SET stores the index and sets its pending bit. Nothing else changes. (R40, R41) -/
def Obligations.SeedAndIndexWrites : Prop :=
  ∀ (s : State) (slot : Fin 2), Free s .leaf →
    let u := s.leaf.u
    let c := u.step slot
    (∀ hi : W16, BlkBecomes .leaf (.pseedWrite slot hi) s { u with steps := smSet u.steps slot (if c.en = false ∧ hi ++ c.seedL ≠ 0 then { c with seedH := hi, per := hi ++ c.seedL, estValid := true } else { c with seedH := hi }) StepClk.reset }) ∧
    (∀ w : W32, BlkBecomes .leaf (.idxSetWrite slot w) s
      { u with steps := smSet u.steps slot { c with idxSet := w, idxPend := true } StepClk.reset })

/-- With a valid estimate P and a measurement M, the new estimate lies between P and the clamped M, both included; with k = 0 it is the clamped M; the step is short exactly when M is below half of P. Without a valid estimate the new one is M. (R41) -/
def Obligations.PeriodEstimateFollowsItsRule : Prop :=
  ∀ p m k : Nat,
    let mc := min (max m (p / 2)) (2 * p)
    (periodUpdate true p m k).2 = some (decide (m < p / 2)) ∧
    min p mc ≤ (periodUpdate true p m k).1 ∧ (periodUpdate true p m k).1 ≤ max p mc ∧
    (periodUpdate true p m 0).1 = mc ∧ periodUpdate false p m k = (m, none)

/-- Take the marks of one cycle, by the port or by a register write, on any of the two slots. On each slot that the command marks, that is attached, not in the cycle of its last mark and not closer to it than MINPER, the mark is accepted: the index becomes IDX_SET where that is pending and else counts up by one, the long and overrun flags clear, the time of the mark is kept, and with an earlier mark the measured step and the new period estimate are stored as R41 has them, without one the period stays. A slot that is not marked or not attached, one that takes register marks only where the marks come by the port, and a second mark of a cycle leave the slot as it is; a mark closer than MINPER only counts as ignored. Time does not move, and where every mark is passed over so, nothing changes. (R39, R40, R41) -/
def Obligations.AcceptedMarkUpdatesTheSlot : Prop :=
  ∀ (s : State) (slots : BitVec 2) (port : Bool), Free s .leaf →
    let u := s.leaf.u
    let off : Nat → Prop := fun k => bit slots k = false ∨ (u.step k).en = false ∨ (port = true ∧ (u.step k).regOnly = true) ∨ (u.step k).seenAt = some u.clk.tb1
    let early : Nat → Prop := fun k => ∃ a, (u.step k).acceptedAt = some a ∧ (u.clk.tb1 - a).toNat < (u.reg R.STEP_MINPER).toNat
    (off 0 → off 1 → LeafBecomes (.stepMark slots port) s { s.leaf with u := { u with gather := none } }) ∧
    ∃ l, LeafBecomes (.stepMark slots port) s l ∧ l.u.clk = u.clk ∧ ∀ k, k < 2 →
      let c := u.step k
      let c' := l.u.step k
      let d := (u.clk.tb1 - c.markAt).toNat
      (off k → c' = c) ∧
      (¬off k → early k → c' = { c with cntIgn := sat8 c.cntIgn 1, seenAt := some u.clk.tb1 }) ∧
      (¬off k → ¬early k →
        c'.seenAt = some u.clk.tb1 ∧ c'.acceptedAt = some u.clk.tb1 ∧ c'.idx = (if c.idxPend then c.idxSet else c.idx + 1) ∧
        c'.idxPend = false ∧ c'.haveMark = true ∧ c'.markAt = u.clk.tb1 ∧ c'.long = false ∧ c'.overrun = false ∧
        (c.haveMark = false → c'.per = c.per ∧ c'.estValid = c.estValid ∧ c'.lastM = c.lastM) ∧
        (c.haveMark = true → c'.estValid = true ∧ c'.lastM = BitVec.ofNat 48 (min d (2 ^ 48 - 1)) ∧
          c'.per = BitVec.ofNat 48 (periodUpdate c.estValid c.per.toNat (min d (2 ^ 48 - 1)) c.k).1))

/-- A rising edge on the tray build's 1PPS input sets the pps status bit and latches TB0's nanoseconds and fraction in PPSCAP; time goes on as it was, and no other register changes. (R49) -/
def Obligations.PpsInputLatchesTime : Prop :=
  ∀ s : State, Free s .tray → ∃ v, BlkBecomes .tray .ppsIn s v ∧
    v = { s.tray.u with regs := v.regs, rcNow := v.rcNow } ∧
    (∀ i, bit (v.reg R.TBS_STS) i = (decide (i = 3) || bit (s.tray.u.reg R.TBS_STS) i)) ∧
    v.reg 0x1100 = s.tray.u.clk.tb.extractLsb' 32 32 ∧ v.reg 0x1104 = s.tray.u.clk.tb.extractLsb' 64 32 ∧
    v.reg 0x1108 = s.tray.u.clk.tb.extractLsb' 0 32 ∧ ∀ k, k ∉ [R.TBS_STS, 0x1100, 0x1104, 0x1108] → v.reg k = s.tray.u.reg k

/-- In a cycle in which no held read is due, a sum slot with good parity whose source is mapped to a sum counter with good parity adds its value; a sum past 0x00FFFFFFFFFFFFFF, or a slot with its saturation mark, leaves the maximum with the overflow bit set, and the first time sets ovf_any. No other counter changes. An increment that does not saturate creates no record and, where no window taps the source, changes the one counter and nothing else. (R58, R59, R62, R66) -/
def Obligations.SumCounterSaturates : Prop :=
  ∀ (s : State) (w : W64), Free s .leaf →
    let l := s.leaf
    let src := fld w 46 14
    let e := smGet l.ctr.srcMap src 0
    let n := fld e 0 13
    bit w 63 = true → slotParityOk w = true → l.u.armed 0x04 0 1 = false → l.ctr.fault = false → l.readDue = false → bit e 15 = true →
    fld w 60 2 = 0 → l.isGauge n = false → smGet l.ctr.parity n false = false →
    let c := l.counter n
    let sum := c.val.toNat + fld w 0 32
    ∃ l', LeafBecomes (.ringSlotArrival w) s l' ∧
      l'.counter n = (if bit w 45 = false ∧ sum ≤ 0x00FFFFFFFFFFFFFF then ⟨BitVec.ofNat 56 sum, c.ovf⟩ else ⟨0xFFFFFFFFFFFFFF#56, true⟩) ∧
      (∀ m, m ≠ n → l'.counter m = l.counter m) ∧ l'.u.clk = l.u.clk ∧
      (bit w 45 = false ∧ sum ≤ 0x00FFFFFFFFFFFFFF → l'.u.rcd = l.u.rcd) ∧
      (¬(bit w 45 = false ∧ sum ≤ 0x00FFFFFFFFFFFFFF) → c.ovf = false → bit (l'.u.reg R.CNT_STS) 2 = true) ∧
      (bit w 45 = false ∧ sum ≤ 0x00FFFFFFFFFFFFFF → l.ctr.windows = [] →
        l' = { l with ctr := { l.ctr with store := smSet l.ctr.store n ⟨BitVec.ofNat 56 sum, c.ovf⟩ ⟨0, false⟩ } })

/-- A gauge slot whose source is mapped to a gauge counter replaces the counter's value, zero-extended, and leaves its overflow bit and every other counter. A sum slot for a gauge counter, and a gauge slot for a sum counter, leave every counter and count as a mismatch. In a cycle in which a held read is due the counters are what that read leaves: no slot is applied. (R58, R63, R65) -/
def Obligations.GaugeCounterTakesTheLastValue : Prop :=
  ∀ (s : State) (w : W64), Free s .leaf →
    (s.leaf.readDue = true → ∃ l', LeafBecomes (.ringSlotArrival w) s l' ∧ ∀ m, l'.counter m = s.leaf.serveOne.counter m) ∧ (
    let l := s.leaf
    let src := fld w 46 14
    let e := smGet l.ctr.srcMap src 0
    let n := fld e 0 13
    bit w 63 = true → slotParityOk w = true → l.u.armed 0x04 0 1 = false → l.ctr.fault = false → l.readDue = false → bit e 15 = true →
    (fld w 60 2 = 1 → l.isGauge n = true → ∃ l', LeafBecomes (.ringSlotArrival w) s l' ∧ l'.u = l.u ∧
      l'.counter n = ⟨BitVec.ofNat 56 (fld w 0 32), (l.counter n).ovf⟩ ∧ ∀ m, m ≠ n → l'.counter m = l.counter m) ∧
    (fld w 60 2 = (if l.isGauge n then 0 else 1) → ∃ l', LeafBecomes (.ringSlotArrival w) s l' ∧
      l'.u.reg 0x406C = satInc32 (l.u.reg 0x406C) ∧ ∀ m, l'.counter m = l.counter m))

/-- An increment at a stop that is not bypassed is added to its source's accumulator, which stops at 0xFFFFFFFF with its saturation mark; a newer gauge value replaces an unsent one. A bypassed stop takes nothing. Nothing else of the block changes. (R62, R418) -/
def Obligations.StopAccumulatesAndSaturates : Prop :=
  ∀ (s : State) (base : BitVec 14) (src : Fin 64) (inc : W16) (g : Option W32), Free s .leaf →
    let l := s.leaf
    let st := l.stop base.toNat
    let a := smGet st.acc src SrcAcc.zero
    (st.byp = true → LeafBecomes (.stopIncrement base src inc g) s l) ∧
    (st.byp = false → LeafBecomes (.stopIncrement base src inc g) s
      (l.setStop base.toNat { st with acc := smSet st.acc src { a with acc := BitVec.ofNat 32 (min (a.acc.toNat + inc.toNat) 0xFFFFFFFF), sat := a.sat || decide (0xFFFFFFFF < a.acc.toNat + inc.toNat), gauge := (match g with | some x => some x | none => a.gauge) } SrcAcc.zero }))

/-- A credit message for an attached slot adds its grant to the slot's credit, up to 65,535 (the cap is the register's width), and keeps its level for the slot's next accepted mark. For a slot that is not attached only cause 5 of SMP is raised. No other register changes in the first case. (R83) -/
def Obligations.CreditIsAddedAtOnceAndTheLevelWaits : Prop :=
  ∀ (s : State) (slot : Fin 2) (level : BitVec 2) (grant : W16), Free s .leaf →
    let l := s.leaf
    let k := 0x3054 + 4 * (slot : Nat)
    ((l.u.step slot).en = true → ∃ v, OnlyRegs l.u v [k] ∧ (v.reg k).toNat = min ((l.u.reg k).toNat + grant.toNat) 65535 ∧
      LeafBecomes (.creditMessage slot level grant) s
        { l with u := v, ctr := { l.ctr with slots := smSet l.ctr.slots slot { l.sampler slot with pendLevel := some level.toNat } SlotSampler.reset } }) ∧
    ((l.u.step slot).en = false → BlkBecomes .leaf (.creditMessage slot level grant) s (l.u.cause 0x03 0 5))

/-- A report with the key of the open newest record adds 1 to its repeat count, puts the time in its tail and takes no number. Any other report takes the next sequence number, modulo 2^32: with a place left in the ring, of 63 ordinary ones and the overflow record's, a record with that number, its kind and payload is appended behind the others; with none left the ring stays and EVR.LOST counts up. Time does not move, in either build. (R105, R107, R108) -/
def Obligations.ReportsRepeatCreateOrAreLost : Prop :=
  ∀ (s : State) (b : Build) (page : Byte) (code : W16) (sev : BitVec 3) (fl : FlashRule) (slot : Option (Fin 64)) (p : BitVec 160),
    Free s b → (s.blkOf b).gather = none →
    let u := s.blkOf b
    let d := u.draft (rk page.toNat code.toNat sev.toNat fl) (match slot with | some n => .slot n | none => .dflt) p
    let full : Prop := 63 ≤ (u.rcd.ring.filter (fun x => x.kind ≠ rkOverflow)).length ∨ 64 ≤ u.rcd.ring.length
    let same : Prop := u.rcd.isOpen = true ∧ ∃ n, u.rcd.ring.getLast? = some n ∧ n.key = d.key
    ∃ v, BlkBecomes b (.eventReport b page code sev fl slot p) s v ∧ v.clk = u.clk ∧ v.steps = u.steps ∧
      (same → ∃ pre n, u.rcd.ring = pre ++ [n] ∧ v.rcd.ring = pre ++ [{ n with rep := n.rep + 1, tail := u.clk.ns }] ∧
        v.reg R.EVR_SEQ = u.reg R.EVR_SEQ ∧ v.rcd.isOpen = decide (n.rep + 1 < 65535)) ∧
      (¬same → v.reg R.EVR_SEQ = u.reg R.EVR_SEQ + 1 ∧
        (¬full → ∃ r, v.rcd.ring = u.rcd.ring ++ [r] ∧ r.seq = u.reg R.EVR_SEQ ∧ r.key = d.key ∧ r.payload = p ∧
          r.tb0 = u.clk.ns ∧ r.rep = 0 ∧ r.continued = decide (u.rcd.last = some d.key)) ∧
        (full → v.rcd.ring = u.rcd.ring ∧ v.reg R.EVR_LOST = satInc32 (u.reg R.EVR_LOST) ∧
          bit (v.reg 0x8014) 0 = true))

/-- When the COAL window of the open record ends, the record closes; the ring, the sequence number and every register are as they were, and only time has moved. With no open record nothing changes. (R107) -/
def Obligations.RecordWindowClosesTheOpenRecord : Prop :=
  ∀ (s : State) (b : Build), Free s b →
    let u := s.blkOf b
    (u.rcd.isOpen = true → ∃ n, BlkBecomes b (.recordWindowEnd b) s
      { u with clk := u.clk.adv n, rcd := { u.rcd with isOpen := false } }) ∧
    (u.rcd.isOpen = false → BlkBecomes b (.recordWindowEnd b) s u)

/-- A read position whose block lies outside the history region fills the 16 words of HIS.RDATA with ones, sets PGCAUSE bit 3 of HIS and is ready at once; a position inside the region starts a read and clears ready. The flash itself does not change. (R117) -/
def Obligations.HistoryReadOutsideTheRegion : Prop :=
  ∀ (s : State) (b : Build) (w : W32), s.Open b →
    let u := s.blkOf b
    ∃ v, BlkBecomes b (.historyRead b w) s v ∧ v.his.flash = u.his.flash ∧ v.clk = u.clk ∧
      (u.rf R.HIS_NBLK 0 15 ≤ fld w 0 28 / 1024 → v.his.rdy = true ∧ (∀ i < 16, v.reg (0x9080 + 4 * i) = 0xFFFFFFFF#32) ∧
        bit (v.reg 0x9014) 3 = true) ∧
      (fld w 0 28 / 1024 < u.rf R.HIS_NBLK 0 15 → v.his.rdy = false ∧ v.his.readBusy = true ∧ v.his.readPos = fld w 0 28)

/-- A write of RPTR that is not a multiple of 64 only raises cause 4 of TRC and, as every write does, starts the page's arming sequence over; one that is stores the pointer. (R96) -/
def Obligations.TraceReadPointerMustBeAligned : Prop :=
  ∀ (s : State) (w : W32), Free s .leaf →
    (w.toNat % 64 ≠ 0 → BlkBecomes .leaf (.traceRptrWrite w) s ((s.leaf.u.pageWritten 0x06 0).cause 0x06 0 4)) ∧
    (w.toNat % 64 = 0 → ∃ l, LeafBecomes (.traceRptrWrite w) s l ∧ l.u.reg R.TRC_RPTR = w ∧ l.u.clk = s.leaf.u.clk)

/-- A transition of the heartbeat of an engine that is not hung restarts its timer and is its last beat; the idle level is taken, nothing else changes. A beat of a hung engine is recorded as late and clears nothing. (R122, R124) -/
def Obligations.HeartbeatRestartsTheTimer : Prop :=
  ∀ (s : State) (e : Fin 64) (idle : Bool), Free s .leaf →
    let l := s.leaf
    let x := l.engine e
    (x.hung = false → LeafBecomes (.heartbeat e true idle) s { l with kst := { l.kst with engines := smSet l.kst.engines e { x with idle := idle, timerAt := l.u.clk.tb1, lastBeat := l.u.clk.tb1 } Engine.reset } }) ∧
    (x.hung = true → ∃ l', LeafBecomes (.heartbeat e true idle) s l' ∧ (l'.engine e).hung = true ∧ (l'.engine e).idle = idle)

/-- A check of a write that touches no region, with no check waiting before it, is answered pass and nothing else changes. With a check waiting it waits behind it and is not answered. (R146, R147, R148) -/
def Obligations.UntouchedWritesPassTheGuard : Prop :=
  ∀ (s : State) (a : W64) (len : BitVec 13), Free s .leaf → s.leaf.touched a.toNat len.toNat = none →
    (s.leaf.sng.waiting = [] → BlkBecomes .leaf (.guardCheck a len) s { s.leaf.u with out := .guard 0 false :: s.leaf.u.out }) ∧
    (s.leaf.sng.waiting ≠ [] → ∃ l, LeafBecomes (.guardCheck a len) s l ∧ l.u = s.leaf.u ∧
      l.sng.waiting.length = s.leaf.sng.waiting.length + 1)

/-- A write to the command aperture that reaches byte 0x3F, of a queue that is on, of source 0 and holds fewer than 1,024 commands, puts the staged 64 bytes, the write's own included, at the ring place of PI in the brine store, adds 1 to PI modulo 65,536 and clears the staging buffer. Every other byte of the brine store, every byte of LPDDR5X, every slice, every register and every other queue stay (up to what then happens at once). (R206, R207, R195) -/
def Obligations.AppendStoresTheStagedCommand : Prop :=
  ∀ (s : State) (q : Fin 1536) (off : BitVec 6) (data : List Byte), s.Open .tray →
    let t := s.tray
    let q' : Nat := q
    let c := t.queue q'
    let l := bytesAt data 0 (0x40 - off.toNat)
    let staged := overlay (bytesAt c.stage 0 64) off.toNat l
    t.u.armed 0x29 0 0 = false →
    c.held < 1024 → t.qb q' 31 = true → t.qf q' 28 2 = 0 →
    ∃ t', TrayBecomes (.commandAppend q off data) s t' ∧ t'.u = t.u ∧ (t'.queue q').pi = (c.pi + 1) % 65536 ∧ (t'.queue q').ci = c.ci ∧
      (t'.queue q').stage = [] ∧ (∀ j, j ≠ q' → t'.queue j = t.queue j) ∧
      t'.brineBytes (ringByte q' (c.pi % 1024)) 64 = staged ∧
      (∀ a, (a < ringByte q' (c.pi % 1024) ∨ ringByte q' (c.pi % 1024) + 64 ≤ a) → smGet t'.tier.brine a 0 = smGet t.tier.brine a 0) ∧
      t'.tier.lp = t.tier.lp ∧ t'.tier.slice = t.tier.slice

/-- An append to a queue that is full, off or of another source is dropped: the memories stay, PI and CI stay, the staging buffer is cleared, APDROP of the queue's page counts up, and a full ring sets the queue's full bit. (R207) -/
def Obligations.DroppedAppendLeavesTheRing : Prop :=
  ∀ (s : State) (q : Fin 1536) (off : BitVec 6) (data : List Byte), s.Open .tray →
    let t := s.tray
    let q' : Nat := q
    let c := t.queue q'
    let page := q' / 128
    t.u.armed 0x29 0 0 = false → (1024 ≤ c.held ∨ t.qb q' 31 = false ∨ t.qf q' 28 2 ≠ 0) →
    ∃ t', TrayBecomes (.commandAppend q off data) s t' ∧ t'.tier = t.tier ∧ (t'.queue q').pi = c.pi ∧ (t'.queue q').ci = c.ci ∧
      (t'.queue q').stage = [] ∧ (1024 ≤ c.held → (t'.queue q').full = true) ∧ (∀ j, j ≠ q' → t'.queue j = t.queue j) ∧
      t'.u.clk = t.u.clk ∧ t'.u.reg (inst R.QMG_APDROP page) = satInc32 (t.u.reg (inst R.QMG_APDROP page))

/-- A scrub of a good word that finds nothing changes nothing. Of a brine-store or slice word that held no flaw and in which it finds a single-bit error, the word is good afterwards and the space's counter of corrected errors counts up. A double-bit error leaves the word poisoned. The data of every memory stays. (R194, R384) -/
def Obligations.ScrubCorrectsAWord : Prop :=
  ∀ (s : State) (space : BitVec 2) (word : BitVec 33), Free s .tray →
    let t := s.tray
    let sp := space.toNat
    t.flaw sp word.toNat = 0 →
    TrayBecomes (.patrolScrub space word 0) s t ∧
    (sp ≠ 0 → ∃ t', TrayBecomes (.patrolScrub space word 1) s t' ∧ t'.flaw sp word.toNat = 0 ∧
      t'.u.reg (ceReg sp) = satInc32 (t.u.reg (ceReg sp)) ∧ t'.tier.lp = t.tier.lp ∧ t'.tier.brine = t.tier.brine ∧
      t'.tier.slice = t.tier.slice ∧ t'.u.clk = t.u.clk) ∧
    (∃ t', TrayBecomes (.patrolScrub space word 2) s t' ∧ t'.flaw sp word.toNat = flawPoison ∧ t'.tier.lp = t.tier.lp ∧
      t'.tier.brine = t.tier.brine ∧ t'.tier.slice = t.tier.slice ∧ t'.u.clk = t.u.clk)

/-- A write of a list of bytes at an address of LPDDR5X reads back as that list, every byte outside it reads as before, and the brine store, the slices and everything that both builds hold stay; likewise for the brine store. (R196, R203, R397) -/
def Obligations.BytesWrittenReadBack : Prop :=
  ∀ (t : Tray) (a : Nat) (l : List Byte),
    ((t.lpWrite a l).lpBytes a l.length = l ∧ (∀ x, (x < a ∨ a + l.length ≤ x) → (t.lpWrite a l).lpBytes x 1 = t.lpBytes x 1) ∧
      (t.lpWrite a l).tier.brine = t.tier.brine ∧ (t.lpWrite a l).tier.slice = t.tier.slice ∧ (t.lpWrite a l).u = t.u) ∧
    ((t.brineWrite a l).brineBytes a l.length = l ∧
      (∀ x, (x < a ∨ a + l.length ≤ x) → (t.brineWrite a l).brineBytes x 1 = t.brineBytes x 1) ∧
      (t.brineWrite a l).tier.lp = t.tier.lp ∧ (t.brineWrite a l).tier.slice = t.tier.slice ∧ (t.brineWrite a l).u = t.u)

/-- A write of RCI of a host harvest ring that is not a multiple of 16 only raises cause 2 of HRV and, as every write does, starts the page's arming sequence over; the offset stays. A multiple of 16 is taken. (R244) -/
def Obligations.HarvestReadOffsetIsChecked : Prop :=
  ∀ (s : State) (ring : Fin 64) (v : W32), s.Open .tray →
    (v.toNat % 16 ≠ 0 → BlkBecomes .tray (.harvestRingRciWrite ring v) s ((s.tray.u.pageWritten 0x27 0).cause 0x27 0 2)) ∧
    (v.toNat % 16 = 0 → ∃ t', TrayBecomes (.harvestRingRciWrite ring v) s t' ∧ t'.u.reg (hrv R.HRV_RCI ring) = v)

/-- An acknowledgement of the decision copy of a transaction of which this build holds no node leaves the tray build as it is, up to what happens at once (that a message with an unknown key is ignored is log entry 56). (R222, R224) -/
def Obligations.UnknownTransactionsChangeNothing : Prop :=
  ∀ (s : State) (job txid : W32), Free s .tray → s.tray.txNode job txid = none → TrayBecomes (.txDecisionCopyAck job txid) s s.tray

/-- A leaf detach of a slot that is not attached changes nothing. Of an attached slot, the slot is not attached afterwards. (R348, R43) -/
def Obligations.DetachOfAnEmptySlotChangesNothing : Prop :=
  ∀ (s : State) (slot : Fin 2), Free s .leaf →
    ((s.leaf.u.step slot).en = false → LeafBecomes (.leafDetach slot) s s.leaf) ∧
    ((s.leaf.u.step slot).en = true → ∃ l, LeafBecomes (.leafDetach slot) s l ∧ (l.u.step slot).en = false ∧ l.u.clk = s.leaf.u.clk)

/-- With STL.CTL.en at 0 an idle core asks no victim: nothing changes, up to what happens at once. (R189, R275) -/
def Obligations.IdleThiefNeedsStealingOn : Prop :=
  ∀ (s : State) (core : Fin 81920), Free s .tray → bit (s.tray.u.reg R.STL_CTL) 31 = false → TrayBecomes (.thiefIdle core) s s.tray

/-- A CI write of the leaf's host ring that would make PI minus CI exceed the ring's places leaves CI and sets PGCAUSE bit 3 of HEV, starts the page's arming sequence over as every write does, and does nothing else but what that cause raises; any other value is taken. (R303) -/
def Obligations.ConsumerIndexIsChecked : Prop :=
  ∀ (s : State) (q : Fin 512) (w : W32), Free s .leaf →
    let l := s.leaf
    (l.hevCap < (l.u.reg R.HEV_PI - w).toNat → BlkBecomes .leaf (.ciWrite .leaf q w) s ((l.u.pageWritten 0x16 0).cause 0x16 0 3) ∧
      ((l.u.pageWritten 0x16 0).cause 0x16 0 3).reg R.HEV_CI = l.u.reg R.HEV_CI ∧ bit (((l.u.pageWritten 0x16 0).cause 0x16 0 3).reg 0x16014) 3 = true) ∧
    ((l.u.reg R.HEV_PI - w).toNat ≤ l.hevCap → ∃ l', LeafBecomes (.ciWrite .leaf q w) s l' ∧ l'.u.reg R.HEV_CI = w ∧
      l'.u.clk = l.u.clk)

/-- When a vector is unmasked and the function may send, a pending message goes out once and its pending bit clears; with no pending message none goes out; and while the function may not send, the pending bit stays and none goes out. (R312) -/
def Obligations.UnmaskingSendsTheHeldMessage : Prop :=
  ∀ (s : State) (vec : Fin 64), s.Open .tray →
    let u := s.tray.u
    let key := pbaKey ((vec : Nat) / 32)
    let i := (vec : Nat) % 32
    ∃ v, BlkBecomes .tray (.msixVectorUnmask vec) s v ∧ v.clk = u.clk ∧ v.rcd = u.rcd ∧
      (bit (u.reg key) i = true → u.pw.busMaster = true → v.out = .msix vec :: u.out ∧ bit (v.reg key) i = false) ∧
      ((bit (u.reg key) i = false ∨ u.pw.busMaster = false) → v.out = u.out ∧ v.reg key = u.reg key)

/-- A compression go that arrives while a job runs or a dump holds the engine sets CMP.STS.refused, raises cause 2 of CMP, starts the page's arming sequence over as every write does, and changes nothing else. (R334) -/
def Obligations.CompressionGoWhileBusyIsRefused : Prop :=
  ∀ s : State, Free s .leaf → (s.leaf.cmp.running = true ∨ s.leaf.dumpHoldsEngine = true) →
    let v := (s.leaf.u.pageWritten 0x0F 0).cause 0x0F 0 2
    LeafBecomes .compressionGo s { s.leaf with u := v, cmp := { s.leaf.cmp with refused := true } }

/-- A code at or below RSTLV is a cold reset of the leaf from source 2 in that cycle. A code above it and at or below WARNLV, with no warning active, begins a warning that keeps the code as its lowest, with PGCAUSE bit 0 of PWR set; a code above WARNLV with no warning active begins none. Time does not move in the last two cases. (R369, R374) -/
def Obligations.SupplyLevelsDecide : Prop :=
  ∀ (s : State) (code rail : Byte), Free s .leaf →
    let u := s.leaf.u
    (code.toNat ≤ u.rstLv → ∃ l, LeafBecomes (.supplyWarningStart .leaf code rail) s l ∧ l.u.held = some .cold ∧ l.u.clk.tb1 = 0 ∧
      l.u.pw.code = code.toNat ∧ l.u.reg R.BLK_RSTCAUSE = 2) ∧
    (u.rstLv < code.toNat → code.toNat ≤ u.warnLv → u.pw.warning = none →
      ∃ l, LeafBecomes (.supplyWarningStart .leaf code rail) s l ∧ l.u.clk = u.clk ∧ l.u.pw.warning.isSome = true ∧
        (∀ w ∈ l.u.pw.warning, w.low = code.toNat) ∧ bit (l.u.reg 0x14014) 0 = true) ∧
    (u.rstLv < code.toNat → u.warnLv < code.toNat → u.pw.warning = none →
      ∃ l, LeafBecomes (.supplyWarningStart .leaf code rail) s l ∧ l.u.clk = u.clk ∧ l.u.pw.warning = none)

/-- A park of a build that is parked or waits to park changes nothing. After an unpark the build is neither parked nor waiting to park. (R377) -/
def Obligations.ParkingIsIdempotent : Prop :=
  ∀ (s : State) (b : Build), s.Open b →
    let u := s.blkOf b
    ((u.pw.parked = true ∨ u.pw.parkPend = true) → BlkBecomes b (.park b) s u) ∧
    ∃ v, BlkBecomes b (.unpark b) s v ∧ v.pw.parked = false ∧ v.pw.parkPend = false ∧ v.clk = u.clk

/-- A write of BLK.DBG without 0xDB60 in its high half changes nothing, nor does one that writes the state it has. With the key, a change puts the new state in BLK.DBG and extends M3 with one byte of it. (R389, R403) -/
def Obligations.DebugModeNeedsItsKey : Prop :=
  ∀ (s : State) (b : Build) (w : W32), s.Open b →
    let u := s.blkOf b
    ((fld w 16 16 ≠ 0xDB60 ∨ bit w 0 = bit (u.reg R.BLK_DBG) 0) → BlkBecomes b (.debugModeWrite b w) s u) ∧
    (fld w 16 16 = 0xDB60 → bit w 0 ≠ bit (u.reg R.BLK_DBG) 0 → ∃ v, BlkBecomes b (.debugModeWrite b w) s v ∧ v.clk = u.clk ∧
      bit (v.reg R.BLK_DBG) 0 = bit w 0 ∧ v.idn.m 3 = sha384 (digestBytes (u.idn.m 3) ++ [BitVec.ofNat 8 (bit w 0).toNat]))

/-- In the leaf, a write of 1 to an injection bit of a page arms nothing and counts in ERR.INJREF where the two keys have not both come in order, debug mode is off or the page's inj_en is 0 (a bit that is no cause of the page ignores the write and is not counted). A first key starts the sequence and a second key without a first ends it; neither arms a bit. (R389, R390) -/
def Obligations.InjectionNeedsBothKeysInOrder : Prop :=
  ∀ (s : State) (page : BitVec 8) (i : Fin 8), Free s .leaf → page.toNat < 0x1A →
    let u := s.leaf.u
    let p := page.toNat
    (Nat.testBit (pgCauses u.build p) i = true →
      ¬(u.stage p 0 = 2 ∧ bit (u.reg R.BLK_DBG) 0 = true ∧ bit (u.reg (inst (p * 0x1000 + 0x0C) 0)) 0 = true) →
      ∃ l, LeafBecomes (.injectionArm .leaf page (BitVec.ofNat 32 (2 ^ (i : Nat)))) s l ∧ l.u.armed p 0 i = u.armed p 0 i ∧
        l.u.reg R.ERR_INJREF = satInc32 (u.reg R.ERR_INJREF) ∧ l.u.stage p 0 = 0) ∧
    (∃ l, LeafBecomes (.injectionKey .leaf page 0x1A7E0000#32) s l ∧ l.u.stage p 0 = 1 ∧ ∀ j, l.u.armed p 0 j = u.armed p 0 j) ∧
    (u.stage p 0 ≠ 1 → ∃ l, LeafBecomes (.injectionKey .leaf page 0x5EED0000#32) s l ∧ l.u.stage p 0 = 0 ∧
      ∀ j, l.u.armed p 0 j = u.armed p 0 j)

/-- A detector of a cause that the page has sets its PGCAUSE bit, whatever the mask, and moves no time and no record. Masked, it changes no other register. Unmasked, with ERR.FIRST empty, ERR.FIRST takes the page and the bit and ERR.FIRSTT the TB0 time; with ERR.FIRST filled both stay. (R383, R442) -/
def Obligations.CauseSetsItsBitAndFillsErrFirst : Prop :=
  ∀ (u : Blk) (p n i : Nat), Nat.testBit (pgCauses u.build p) i = true →
    let v := u.cause p n i
    let key := inst (p * 0x1000 + 0x14) n
    bit (v.reg key) i = true ∧ v.clk = u.clk ∧ v.rcd = u.rcd ∧ v.steps = u.steps ∧
    (bit (u.reg (key + 4)) i = true → OnlyRegs u v [key]) ∧
    (bit (u.reg (key + 4)) i = false → bit (u.reg R.ERR_FIRST) 31 = false →
      v.reg R.ERR_FIRST = BitVec.ofNat 32 (firstCode (pageNo u.build p n) i) ∧
      v.reg R.ERR_FIRSTT_L = u.clk.tb.extractLsb' 32 32 ∧ v.reg R.ERR_FIRSTT_H = u.clk.tb.extractLsb' 64 32) ∧
    (bit (u.reg R.ERR_FIRST) 31 = true → v.reg R.ERR_FIRST = u.reg R.ERR_FIRST ∧ v.reg R.ERR_FIRSTT_L = u.reg R.ERR_FIRSTT_L)

/-- A write of EXTIDX with value v from 1 to 3 sets M(4 + v) to the SHA-384 of its value followed by EXTBUF and changes nothing else; a value of 0 changes nothing (the hash is the published one, log entry 7). (R403) -/
def Obligations.MeasurementExtendHashes : Prop :=
  ∀ (s : State) (b : Build) (w : W32), s.Open b →
    let u := s.blkOf b
    let v := fld w 0 2
    (v = 0 → BlkBecomes b (.measurementExtend b w) s u) ∧
    (v ≠ 0 → BlkBecomes b (.measurementExtend b w) s { u with idn := { u.idn with meas := smSet u.idn.meas (4 + v) (sha384 (digestBytes (u.idn.m (4 + v)) ++ u.regBytes R.IDN_EXTBUF 12)) 0 } })

/-- Enrol changes nothing while IDN.STS.valid is 1. Otherwise, where no supply warning or park holds flash work, the identity is valid afterwards, the device key is the fresh one, and the certificate chain is gone (the key itself is a free value, log entry 7; that the chain goes is log entry 32); where one does, the identity stays invalid and the enrolment waits (log entry 115). (R396, R370) -/
def Obligations.EnrolmentOnlyWithoutIdentity : Prop :=
  ∀ (s : State) (b : Build), s.Open b →
    let u := s.blkOf b
    (u.idn.valid = true → BlkBecomes b (.enroll b) s u) ∧
    (u.idn.valid = false → u.idn.pending.contains .enroll = false → u.flashWaits = false →
      ∃ v, BlkBecomes b (.enroll b) s v ∧ v.idn.valid = true ∧ v.idn.devPub = Config.deviceKey u.fresh ∧ v.idn.chain = [] ∧ v.clk = u.clk) ∧
    (u.idn.valid = false → u.flashWaits = true →
      ∃ v, BlkBecomes b (.enroll b) s v ∧ v.idn.valid = false ∧ .enroll ∈ v.idn.pending ∧ v.clk = u.clk)

/-- For every state in which no reset holds the build that takes the command (for a register access of the T build: the ladder has opened its registers, before which the access changes nothing), each of the 24 commands of the register port and of time, steps and the step angle, with every operand, answers the next state in which its build has taken the effect that the operation named here gives, and the other build and the queue are as they were. (spec/02_time_step_angle.md, spec/20_integration_ports.md, spec/21_register_pages.md) -/
def Obligations.RegisterAndTimeCommandsComplete : Prop :=
  ∀ s : State,
    (Free s .leaf →
      (∀ (a : BitVec 25) (n : BitVec 4) (data : W64) (priv : Bool) (env : PortEnv), LeafBecomes (.registerWrite .leaf a n data priv env) s (s.leaf.write (fld a 2 16 * 4) (data.setWidth 32) priv env)) ∧
      (∀ (a : BitVec 25) (n : BitVec 4) (env : ReadEnv), LeafBecomes (.rcRead .leaf a n env) s (s.leaf.readOut (fld a 2 16 * 4) env.priv env.same)) ∧
      (∀ (w : W32), BlkBecomes .leaf (.incFracWrite .leaf w) s (s.leaf.u.incFrac w)) ∧
      (∀ (ns : Byte), BlkBecomes .leaf (.incNsWrite .leaf ns) s (s.leaf.u.incNs ns)) ∧
      (LeafBecomes (.offsetStep .leaf) s (s.leaf.blk (fun u => u.offsetStep))) ∧
      (LeafBecomes (.load .leaf) s (s.leaf.blk (fun u => u.loadTb0))) ∧
      (BlkBecomes .leaf (.holdover .leaf) s (s.leaf.u.holdover)) ∧
      (∀ (tb1 : Bool), BlkBecomes .leaf (.tb0NslRead .leaf tb1) s (s.leaf.u.timeRead tb1)) ∧
      (∀ (act : Option TimedAction), BlkBecomes .leaf (.timedAction .leaf act) s (s.leaf.u.timedAction act)) ∧
      (∀ (slots : BitVec 2) (viaPort : Bool), LeafBecomes (.stepMark slots viaPort) s (s.leaf.stepMarks slots viaPort)) ∧
      (∀ (slot : Fin 64), LeafBecomes (.longStep .leaf slot) s (s.leaf.longStep (slot % 2))) ∧
      (∀ (slot : Fin 2) (hi : W16), LeafBecomes (.pseedWrite slot hi) s (s.leaf.pseedHigh slot hi)) ∧
      (∀ (slot : Fin 2) (w : W32), LeafBecomes (.idxSetWrite slot w) s (s.leaf.idxSet slot w)) ∧
      (∀ (slot : Fin 2) (w : W32), LeafBecomes (.stepSlotEnable slot w) s (s.leaf.stepCtl slot (setBit w 31 true))) ∧
      (∀ (slot : Fin 64), LeafBecomes (.angRead .leaf slot) s (s.leaf.angOut (slot % 2))) ∧
      (∀ (slot : Fin 2), LeafBecomes (.scheduleEntryFire slot) s (s.leaf.scheduleFire slot)) ∧
      (LeafBecomes .astbSwap s (s.leaf.astbSwap)) ∧
      (∀ (port : Fin 8) (dst : W48) (src : W48) (ptp : List Byte), LeafBecomes (.timeFrameReceive .leaf port dst src ptp) s (s.leaf.blk (fun u => u.timeMessage 0xF u.rxStamp ptp)))) ∧
    (Free s .tray →
      (BlkBecomes .tray (.holdover .tray) s (s.tray.u.holdover)) ∧
      (∀ (act : Option TimedAction), BlkBecomes .tray (.timedAction .tray act) s (s.tray.u.timedAction act)) ∧
      (∀ (slot : Fin 64), TrayBecomes (.longStep .tray slot) s (s.tray.longStep slot)) ∧
      (TrayBecomes .ppsIn s (s.tray.blk Blk.ppsIn)) ∧
      (TrayBecomes .ppsOutRise s (s.tray.blk Blk.ppsRise)) ∧
      (TrayBecomes .ppsOutFall s (s.tray.blk Blk.ppsFall)) ∧
      (∀ (link : Byte) (n : Notice), TrayBecomes (.stepMarkNotice link n) s (s.tray.notice link.toNat n)) ∧
      (∀ (slot : Fin 64), TrayBecomes (.stepSourceSwitched slot) s (s.tray.sourceSwitched slot)) ∧
      (∀ (port : Fin 8) (dst : W48) (src : W48) (ptp : List Byte), TrayBecomes (.timeFrameReceive .tray port dst src ptp) s (s.tray.timeFrame port dst src ptp)) ∧
      (∀ (port : Fin 8) (dst : W48) (src : W48) (ptp : List Byte), TrayBecomes (.ptpForward port dst src ptp) s (s.tray.timeFrame port dst src ptp))) ∧
    (s.Open .tray →
      (∀ (a : BitVec 25) (n : BitVec 4) (data : W64) (priv : Bool) (env : PortEnv), TrayBecomes (.registerWrite .tray a n data priv env) s (s.tray.write a.toNat n.toNat data env)) ∧
      (∀ (a : BitVec 25) (n : BitVec 4) (env : ReadEnv), TrayBecomes (.rcRead .tray a n env) s (s.tray.readOut a.toNat n.toNat env.same)) ∧
      (∀ (w : W32), BlkBecomes .tray (.incFracWrite .tray w) s (s.tray.u.incFrac w)) ∧
      (∀ (ns : Byte), BlkBecomes .tray (.incNsWrite .tray ns) s (s.tray.u.incNs ns)) ∧
      (TrayBecomes (.offsetStep .tray) s (s.tray.offsetStep)) ∧
      (TrayBecomes (.load .tray) s (s.tray.loadTb0)) ∧
      (∀ (tb1 : Bool), BlkBecomes .tray (.tb0NslRead .tray tb1) s (s.tray.u.timeRead tb1)) ∧
      (∀ (slot : Fin 64), TrayBecomes (.angRead .tray slot) s (s.tray.angOut slot))) ∧
    (s.tray.u.pw.step < 2 →
      (∀ (a : BitVec 25) (n : BitVec 4) (data : W64) (priv : Bool) (env : PortEnv), exec (.registerWrite .tray a n data priv env) s = .next s) ∧
      (∀ (a : BitVec 25) (n : BitVec 4) (env : ReadEnv), exec (.rcRead .tray a n env) s = .next s) ∧
      (∀ (w : W32), exec (.incFracWrite .tray w) s = .next s) ∧
      (∀ (ns : Byte), exec (.incNsWrite .tray ns) s = .next s) ∧
      (exec (.offsetStep .tray) s = .next s) ∧
      (exec (.load .tray) s = .next s) ∧
      (∀ (tb1 : Bool), exec (.tb0NslRead .tray tb1) s = .next s) ∧
      (∀ (slot : Fin 64), exec (.angRead .tray slot) s = .next s))

/-- For every state in which no reset holds the build that takes the command, each of the 29 commands of counters, the sampler, credit and trace, with every operand, answers the next state in which its build has taken the effect that the operation named here gives, and the other build and the queue are as they were. (spec/03_counters_sampler.md, spec/04_trace.md) -/
def Obligations.CounterAndTraceCommandsComplete : Prop :=
  ∀ s : State,
    (Free s .leaf →
      (LeafBecomes .ringCalibrate s ((s.leaf.pageWritten 0x03).calibrate)) ∧
      (LeafBecomes .latencyMarkerReturn s (s.leaf.markerReturn)) ∧
      (LeafBecomes .ringFault s (s.leaf.ringFault)) ∧
      (LeafBecomes .unprivilegedCounterAccess s (s.leaf.unprivileged)) ∧
      (∀ (auto : Bool) (n : BitVec 13), LeafBecomes (.counterCapture auto n) s ((s.leaf.pageWritten 0x04).capture auto n.toNat)) ∧
      (LeafBecomes .captureComplete s (s.leaf.captureComplete)) ∧
      (∀ (auto : Bool) (n : BitVec 13), LeafBecomes (.counterClear auto n) s ((s.leaf.pageWritten 0x04).clearReq auto n.toNat)) ∧
      (LeafBecomes .clrall s ((s.leaf.pageWritten 0x04).clrAll)) ∧
      (LeafBecomes .capHAutoRead s (s.leaf.capHRead)) ∧
      (∀ (unit : Fin 64), LeafBecomes (.windowEdge unit) s (s.leaf.windowEdge unit)) ∧
      (∀ (slot : Fin 2), LeafBecomes (.selSwap slot) s (s.leaf.selSwap slot)) ∧
      (LeafBecomes .sampleReadComplete s (s.leaf.sampleComplete)) ∧
      (∀ (slot : Fin 2) (level : BitVec 2) (grant : W16), LeafBecomes (.creditMessage slot level grant) s (s.leaf.credit slot level.toNat grant.toNat)) ∧
      (∀ (src : Fin 8) (item : TrcHead) (val : W64), LeafBecomes (.traceItem src item val) s (s.leaf.traceItem src (item.item val))) ∧
      (∀ (src : Fin 8), LeafBecomes (.traceLossExit src) s (s.leaf.lossExit src)) ∧
      (LeafBecomes .traceEnable s ((s.leaf.pageWritten 0x06).trcEnable)) ∧
      (∀ (src : Fin 8) (w : W32), LeafBecomes (.traceSourceEnable src w) s ((s.leaf.pageWritten 0x06).srcCfgWrite src w)) ∧
      (LeafBecomes .traceBlockAck s (s.leaf.trcBlock.dumpDmaCheck)) ∧
      (LeafBecomes .traceFlush s ((s.leaf.pageWritten 0x06).trcFlush)) ∧
      (LeafBecomes .traceFlushDone s (s.leaf.trcFlushDone.dumpDmaCheck)) ∧
      (LeafBecomes .traceDmaError s (s.leaf.trcDmaError.dumpDmaCheck)) ∧
      (∀ (src : Fin 8), LeafBecomes (.traceLpEntry src) s (s.leaf.lpEntry src)) ∧
      (∀ (src : Fin 8), LeafBecomes (.traceLpExit src) s (s.leaf.lpExit src)) ∧
      (∀ (w : W32), LeafBecomes (.traceRptrWrite w) s ((s.leaf.pageWritten 0x06).trcRptr w))) ∧
    (Free s .tray →
      (∀ (ring : Fin 2048), TrayBecomes (.creditReturn ring) s (s.tray.creditReturn ring))) ∧
    (∀ (slot : W64), (s.leaf.u.held ≠ some .cold → LeafBecomes (.ringSlotArrival slot) s (s.leaf.slotArrival slot))) ∧
    (∀ (base : BitVec 14) (src : Fin 64) (inc : W16) (gauge : Option W32), (s.leaf.u.held ≠ some .cold → LeafBecomes (.stopIncrement base src inc gauge) s (s.leaf.stopIncrement base.toNat src inc.toNat gauge))) ∧
    (∀ (base : BitVec 14) (byp : Bool), (s.leaf.u.held ≠ some .cold → LeafBecomes (.stopBypass base byp) s (s.leaf.stopBypass base.toNat byp))) ∧
    (∀ (lost : Bool), (s.leaf.u.held ≠ some .cold → LeafBecomes (.heldSlotRead lost) s (s.leaf.heldRead lost))) ∧
    (∀ (src : Fin 8), (s.leaf.u.held ≠ none → LeafBecomes (.traceLpEntry src) s (s.leaf.lpLevel src true))) ∧
    (∀ (src : Fin 8), (s.leaf.u.held ≠ none → LeafBecomes (.traceLpExit src) s (s.leaf.lpLevel src false)))

/-- For every state in which no reset holds the build that takes the command (for a register access of the T build: the ladder has opened its registers, before which the access changes nothing), each of the 16 commands of event records, the history and cones, with every operand, answers the next state in which its build has taken the effect that the operation named here gives, and the other build and the queue are as they were. (spec/05_history_cones.md) -/
def Obligations.RecordAndHistoryCommandsComplete : Prop :=
  ∀ s : State,
    (Free s .leaf →
      (∀ (page : Byte) (code : W16) (sev : BitVec 3) (flash : FlashRule) (slot : Option (Fin 64)) (payload : BitVec 160), BlkBecomes .leaf (.eventReport .leaf page code sev flash slot payload) s (s.leaf.u.report (rk page.toNat code.toNat sev.toNat flash) (match slot with | some n => .slot n | none => .dflt) payload)) ∧
      (BlkBecomes .leaf (.recordWindowEnd .leaf) s (s.leaf.u.windowEnd)) ∧
      (∀ (fail : Bool), BlkBecomes .leaf (.flashProgramDone .leaf fail) s ((s.leaf.u.flashProgramDone fail).parkSettle)) ∧
      (∀ (fail : Bool), BlkBecomes .leaf (.flashEraseDone .leaf fail) s ((s.leaf.u.flashEraseDone fail).parkSettle)) ∧
      (∀ (susp : Bool), BlkBecomes .leaf (.historyEnable .leaf susp) s (((s.leaf.u.pageWritten 0x09 0).hisEnable susp).flashStart)) ∧
      (BlkBecomes .leaf (.historyScanDone .leaf) s (s.leaf.u.hisScanDone)) ∧
      (BlkBecomes .leaf (.historyFormat .leaf) s ((s.leaf.u.pageWritten 0x09 0).hisFormat)) ∧
      (∀ (w : W32), BlkBecomes .leaf (.historyRead .leaf w) s ((s.leaf.u.pageWritten 0x09 0).hisRead w)) ∧
      (BlkBecomes .leaf (.historyReadDone .leaf) s (s.leaf.u.hisReadDone)) ∧
      (∀ (cone : Byte) (w : W32), BlkBecomes .leaf (.coneEnable .leaf cone w) s (s.leaf.u.coneCfg cone.toNat (setBit w 31 true))) ∧
      (∀ (cone : Byte), BlkBecomes .leaf (.conePoll .leaf cone) s (s.leaf.u.conePoll cone.toNat)) ∧
      (∀ (cone : Byte) (ident : Option (BitVec 128)), BlkBecomes .leaf (.identityReadDone .leaf cone ident) s (s.leaf.u.identityDone cone.toNat ident)) ∧
      (BlkBecomes .leaf (.coneRestart .leaf) s (s.leaf.u.coneRestart)) ∧
      (∀ (cone : Byte), BlkBecomes .leaf (.coneCheckpoint .leaf cone) s (s.leaf.u.checkpointDue cone.toNat))) ∧
    (Free s .tray →
      (∀ (page : Byte) (code : W16) (sev : BitVec 3) (flash : FlashRule) (slot : Option (Fin 64)) (payload : BitVec 160), BlkBecomes .tray (.eventReport .tray page code sev flash slot payload) s (s.tray.u.report (rk page.toNat code.toNat sev.toNat flash) (match slot with | some n => .slot n | none => .dflt) payload)) ∧
      (BlkBecomes .tray (.recordWindowEnd .tray) s (s.tray.u.windowEnd)) ∧
      (∀ (fail : Bool), BlkBecomes .tray (.flashProgramDone .tray fail) s ((s.tray.u.flashProgramDone fail).parkSettle)) ∧
      (∀ (fail : Bool), BlkBecomes .tray (.flashEraseDone .tray fail) s ((s.tray.u.flashEraseDone fail).parkSettle)) ∧
      (BlkBecomes .tray (.historyScanDone .tray) s (s.tray.u.hisScanDone)) ∧
      (TrayBecomes (.operatingMinute .tray) s (s.tray.blk (fun u => u.operatingMinute))) ∧
      (BlkBecomes .tray (.historyReadDone .tray) s (s.tray.u.hisReadDone)) ∧
      (∀ (codes : List (Option (BitVec 6))), TrayBecomes (.operatingSecond .tray codes) s (s.tray.blk (fun u => u.operatingSecond codes))) ∧
      (∀ (cone : Byte), BlkBecomes .tray (.conePoll .tray cone) s (s.tray.u.conePoll cone.toNat)) ∧
      (∀ (cone : Byte) (ident : Option (BitVec 128)), BlkBecomes .tray (.identityReadDone .tray cone ident) s (s.tray.u.identityDone cone.toNat ident)) ∧
      (∀ (cone : Byte), BlkBecomes .tray (.coneCheckpoint .tray cone) s (s.tray.u.checkpointDue cone.toNat))) ∧
    (s.Open .tray →
      (∀ (susp : Bool), BlkBecomes .tray (.historyEnable .tray susp) s (((s.tray.u.pageWritten 0x09 0).hisEnable susp).flashStart)) ∧
      (BlkBecomes .tray (.historyFormat .tray) s ((s.tray.u.pageWritten 0x09 0).hisFormat)) ∧
      (∀ (w : W32), BlkBecomes .tray (.historyRead .tray w) s ((s.tray.u.pageWritten 0x09 0).hisRead w)) ∧
      (∀ (cone : Byte) (w : W32), BlkBecomes .tray (.coneEnable .tray cone w) s (s.tray.u.coneCfg cone.toNat (setBit w 31 true))) ∧
      (BlkBecomes .tray (.coneRestart .tray) s (s.tray.u.coneRestart))) ∧
    (s.tray.u.pw.step < 2 →
      (∀ (susp : Bool), exec (.historyEnable .tray susp) s = .next s) ∧
      (exec (.historyFormat .tray) s = .next s) ∧
      (∀ (w : W32), exec (.historyRead .tray w) s = .next s) ∧
      (∀ (cone : Byte) (w : W32), exec (.coneEnable .tray cone w) s = .next s) ∧
      (exec (.coneRestart .tray) s = .next s)) ∧
    ((s.leaf.u.held ≠ some .cold → LeafBecomes (.operatingMinute .leaf) s (s.leaf.blk (fun u => u.operatingMinute)))) ∧
    ((s.tray.u.held ≠ none → s.tray.u.held ≠ some .cold → exec (.operatingMinute .tray) s = .next { s with tray := s.tray.blk (fun u => u.operatingMinute) })) ∧
    (∀ (codes : List (Option (BitVec 6))), (s.leaf.u.held ≠ some .cold → LeafBecomes (.operatingSecond .leaf codes) s (s.leaf.blk (fun u => u.operatingSecond codes)))) ∧
    (∀ (codes : List (Option (BitVec 6))), (s.tray.u.held ≠ none → s.tray.u.held ≠ some .cold → exec (.operatingSecond .tray codes) s = .next { s with tray := s.tray.blk (fun u => u.operatingSecond codes) }))

/-- For every state in which no reset holds the build that takes the command, each of the 33 commands of the kiln sitter, dumps, snapshots, the write guard and fingerprints, with every operand, answers the next state in which its build has taken the effect that the operation named here gives, and the other build and the queue are as they were. (spec/06_kiln_sitter_dump.md, spec/07_snapshot_fingerprints.md) -/
def Obligations.KilnAndSnapshotCommandsComplete : Prop :=
  ∀ s : State,
    (Free s .leaf →
      (∀ (engine : Fin 64) (beat : Bool) (idle : Bool), LeafBecomes (.heartbeat engine beat idle) s (s.leaf.heartbeat engine beat idle)) ∧
      (∀ (engine : Fin 64), LeafBecomes (.engineExpiry engine) s (s.leaf.engineExpiry engine)) ∧
      (∀ (engine : Fin 64) (start : Bool) (id : W32) (queue : W16), LeafBecomes (.contextEvent engine start id queue) s (s.leaf.context engine start id queue)) ∧
      (∀ (engine : Fin 64), LeafBecomes (.resetDelayExpiry engine) s (s.leaf.resetDelay engine)) ∧
      (∀ (dom : Fin 16) (answer : DomAnswer) (edges : BitVec 256), LeafBecomes (.resetDone dom answer edges) s (s.leaf.resetDone dom answer.ack answer.done edges)) ∧
      (∀ (dom : Fin 16), LeafBecomes (.resetEscalated dom) s (s.leaf.escalate dom)) ∧
      (∀ (engine : Fin 64), LeafBecomes (.hungClear engine) s ((s.leaf.pageWritten 0x0B).hungClear engine)) ∧
      (∀ (dom : Fin 16), LeafBecomes (.softwareResetRequest dom) s ((s.leaf.pageWritten 0x0B).softReset dom)) ∧
      (∀ (engine : Fin 64), LeafBecomes (.suspectClear engine) s ((s.leaf.pageWritten 0x0B).suspectClear engine)) ∧
      (∀ (w : W32), LeafBecomes (.replayBegin w) s ((s.leaf.pageWritten 0x0B).replayWrite (setBit w 31 true))) ∧
      (∀ (w : W32), LeafBecomes (.replayEnd w) s ((s.leaf.pageWritten 0x0B).replayWrite (setBit w 31 false))) ∧
      (LeafBecomes .dumpGo s ((s.leaf.pageWritten 0x0C).dumpGo)) ∧
      (LeafBecomes .dumpAbort s ((s.leaf.pageWritten 0x0C).dumpAbort)) ∧
      (LeafBecomes .dumpRelease s ((s.leaf.pageWritten 0x0C).dumpRelease)) ∧
      (∀ (v : W32) (err : Bool), LeafBecomes (.dumpAccessDone v err) s (s.leaf.dumpAccess v err)) ∧
      (LeafBecomes .dumpAccessTimeout s (s.leaf.dumpAccessTimeout)) ∧
      (LeafBecomes .walkTimeout s (s.leaf.walkTimeout)) ∧
      (∀ (err : Bool), LeafBecomes (.dumpWriteStall err) s (s.leaf.dumpStall err)) ∧
      (LeafBecomes .dumpTrailerAck s (s.leaf.dumpTrailerAck)) ∧
      (∀ (id : W32), LeafBecomes (.dumpRefusal id) s (s.leaf.dumpRefused id)) ∧
      (∀ (slot : Option (Fin 2)), LeafBecomes (.snapshotArm slot) s ((if slot.isNone then s.leaf.pageWritten 0x0D else s.leaf).arm (slot.map Fin.val))) ∧
      (LeafBecomes .snapshotAbort s ((s.leaf.pageWritten 0x0D).snapAbort)) ∧
      (LeafBecomes .guardDisable s ((s.leaf.pageWritten 0x0D).guardDisable)) ∧
      (∀ (a : W64) (len : BitVec 13), LeafBecomes (.guardCheck a len) s (s.leaf.guardCheck a.toNat len.toNat)) ∧
      (LeafBecomes .waitingCheckAnswer s (s.leaf.waitingAnswer)) ∧
      (∀ (region : W32), LeafBecomes (.copyDone region) s (s.leaf.copyDone region.toNat)) ∧
      (LeafBecomes .guardTimeout s (s.leaf.guardTimeout)) ∧
      (∀ (lane : Fin 4) (snap : W32) (chunk : W32) (len : W32) (data : List Byte), LeafBecomes (.chunkSubmission lane snap chunk len data) s (s.leaf.chunkSubmit lane snap.toNat chunk.toNat len.toNat data)) ∧
      (∀ (lane : Fin 4), LeafBecomes (.chunkHashed lane) s (s.leaf.chunkHashed lane)) ∧
      (LeafBecomes .fingerprintFrameTimer s (s.leaf.fprTimer)) ∧
      (∀ (snap : W32) (first : W32) (codes : List (BitVec 2)), LeafBecomes (.electionNotice snap first codes) s (s.leaf.election snap.toNat first.toNat codes)) ∧
      (∀ (chunk : W32), LeafBecomes (.decisionQuery chunk) s (s.leaf.decisionQuery chunk.toNat))) ∧
    (Free s .tray →
      (∀ (link : Byte) (leaf : W32) (body : List Byte), TrayBecomes (.dumpSegmentReceive link leaf body) s (s.tray.dumpSegment link.toNat leaf body))) ∧
    (∀ (engine : Fin 64) (beat : Bool) (idle : Bool), (s.leaf.u.held ≠ none → LeafBecomes (.heartbeat engine beat idle) s (s.leaf.idleLevel engine idle))) ∧
    (∀ (dom : Fin 16) (answer : DomAnswer) (edges : BitVec 256), (s.leaf.u.held ≠ none → LeafBecomes (.resetDone dom answer edges) s (s.leaf.domLevels dom answer.ack answer.done edges)))

/-- For every state in which no reset holds the build that takes the command (for a register access of the T build: the ladder has opened its registers, before which the access changes nothing), each of the 16 commands of frames, links and the egress scheduler, with every operand, answers the next state in which its build has taken the effect that the operation named here gives, and the other build and the queue are as they were. (spec/08_frames_links_scheduling.md) -/
def Obligations.LinkCommandsComplete : Prop :=
  ∀ s : State,
    (Free s .leaf →
      (∀ (p : Packet), LeafBecomes (.receivePacket .leaf p) s (s.leaf.receive p)) ∧
      (∀ (link : Byte) (p : Packet), LeafBecomes (.controlReceive .leaf link p) s (s.leaf.controlReceive p.lseq p.restart p.body p.verdict)) ∧
      (∀ (link : Byte) (lseq : W32), LeafBecomes (.linkAcknowledgement .leaf link lseq) s (s.leaf.blk (fun u => u.linkAck 0 lseq))) ∧
      (∀ (link : Byte), LeafBecomes (.ackTimeout .leaf link) s (s.leaf.ackTimeout)) ∧
      (∀ (link : Byte), LeafBecomes (.restartResend .leaf link) s (s.leaf.blk (fun u => u.restartResend 0))) ∧
      (∀ (port : Fin 8), LeafBecomes (.packetSent .leaf port) s (s.leaf.packetSent)) ∧
      (∀ (w : W32), BlkBecomes .leaf (.mailboxSend .leaf w) s ((s.leaf.u.pageWritten 0x10 0).mailboxSend w)) ∧
      (∀ (port : Fin 8), LeafBecomes (.gateSwap .leaf port) s (s.leaf.blk (fun u => u.gateSwap 0))) ∧
      (∀ (port : Fin 8), LeafBecomes (.gateEntryChange .leaf port) s (s.leaf.blk (fun u => u.gateEntryChange 0))) ∧
      (∀ (port : Fin 8), LeafBecomes (.launchTime .leaf port) s (s.leaf.blk (fun u => u.launchTime 0))) ∧
      (∀ (port : Fin 8), LeafBecomes (.queueSample .leaf port) s (s.leaf.hevHand.blk (fun u => u.queueSample 0))) ∧
      (BlkBecomes .leaf (.tsqE3Read .leaf) s (s.leaf.u.tsqE3Read))) ∧
    (Free s .tray →
      (∀ (p : Packet), TrayBecomes (.receivePacket .tray p) s (s.tray.receive p)) ∧
      (∀ (link : Byte) (p : Packet), TrayBecomes (.controlReceive .tray link p) s (s.tray.controlReceive link.toNat p)) ∧
      (∀ (link : Byte) (lseq : W32), TrayBecomes (.linkAcknowledgement .tray link lseq) s (s.tray.linkAck link.toNat lseq)) ∧
      (∀ (link : Byte), TrayBecomes (.ackTimeout .tray link) s (s.tray.ackTimeout link.toNat)) ∧
      (∀ (link : Byte), TrayBecomes (.restartResend .tray link) s (s.tray.blk (fun u => u.restartResend link.toNat))) ∧
      (∀ (port : Fin 8), TrayBecomes (.packetSent .tray port) s (s.tray.packetSent port)) ∧
      (∀ (port : Fin 8), TrayBecomes (.gateEntryChange .tray port) s (s.tray.blk (fun u => u.gateEntryChange port))) ∧
      (∀ (port : Fin 8), TrayBecomes (.launchTime .tray port) s (s.tray.blk (fun u => u.launchTime port))) ∧
      (∀ (port : Fin 8), TrayBecomes (.queueSample .tray port) s (s.tray.blk (fun u => u.queueSample port))) ∧
      (∀ (leaf : W32) (body : List Byte), TrayBecomes (.segmentReceive leaf body) s (s.tray.segment leaf body)) ∧
      (∀ (k : BitVec 18), TrayBecomes (.reassemblyTimeout k) s (s.tray.asmTimeout k.toNat)) ∧
      (∀ (port : Fin 8), TrayBecomes (.ethernetLinkDown port) s (s.tray.etherDown port)) ∧
      (∀ (port : Fin 8) (ty : Fin 4), TrayBecomes (.ethernetLinkUp port ty) s (s.tray.etherUp port ty))) ∧
    (s.Open .tray →
      (∀ (w : W32), BlkBecomes .tray (.mailboxSend .tray w) s ((s.tray.u.pageWritten 0x10 0).mailboxSend w)) ∧
      (∀ (port : Fin 8), TrayBecomes (.gateSwap .tray port) s (s.tray.blk (fun u => u.gateSwap port))) ∧
      (BlkBecomes .tray (.tsqE3Read .tray) s (s.tray.u.tsqE3Read))) ∧
    (s.tray.u.pw.step < 2 →
      (∀ (w : W32), exec (.mailboxSend .tray w) s = .next s) ∧
      (∀ (port : Fin 8), exec (.gateSwap .tray port) s = .next s) ∧
      (exec (.tsqE3Read .tray) s = .next s))

/-- For every state in which no reset holds the build that takes the command (for a register access of the T build: the ladder has opened its registers, before which the access changes nothing), each of the 45 commands of the memory tier, cores, stealing, the current throttle, command queues and their opcodes, with every operand, answers the next state in which its build has taken the effect that the operation named here gives, and the other build and the queue are as they were. (spec/09_tray_architecture.md, spec/10_command_queues_transactions.md) -/
def Obligations.TierAndQueueCommandsComplete : Prop :=
  ∀ s : State,
    (Free s .tray →
      (∀ (dist : Fin 64), TrayBecomes (.distributeFrame dist) s (s.tray.distribute dist)) ∧
      (∀ (way : CoreWay), TrayBecomes (.projectionArrival way) s (s.tray.arrive way.core way.data)) ∧
      (∀ (core : Fin 81920) (idx : Byte), TrayBecomes (.workUnitEnd core idx) s (s.tray.unitEnd core idx.toNat)) ∧
      (∀ (core : Fin 81920), TrayBecomes (.forcedRefresh core) s (s.tray)) ∧
      (∀ (space : BitVec 2) (word : BitVec 33) (found : Fin 3), TrayBecomes (.patrolScrub space word found) s (s.tray.scrub space.toNat word.toNat found)) ∧
      (∀ (mean : W32), TrayBecomes (.currentInterval mean) s (s.tray.currentInterval mean.toNat)) ∧
      (∀ (cls : Fin 6), TrayBecomes (.commandDispatch cls) s (s.tray.dispatch cls)) ∧
      (∀ (q : Fin 1536), TrayBecomes (.nop q) s (s.tray.runTable q 0)) ∧
      (∀ (q : Fin 1536), TrayBecomes (.waitq q) s (s.tray.waitq q)) ∧
      (∀ (q : Fin 1536), TrayBecomes (.waitat q) s (s.tray.waitat q)) ∧
      (∀ (q : Fin 1536), TrayBecomes (.waitSatisfied q) s (s.tray.waitMet q)) ∧
      (∀ (q : Fin 1536), TrayBecomes (.waitqTimeout q) s (s.tray.waitqTimeout q)) ∧
      (∀ (q : Fin 1536), TrayBecomes (.txclose q) s (s.tray.txclose q)) ∧
      (∀ (q : Fin 1536), TrayBecomes (.txabort q) s (s.tray.txabort q)) ∧
      (∀ (q : Fin 1536), TrayBecomes (.mark q) s (s.tray.runTable q 5)) ∧
      (∀ (q : Fin 1536), TrayBecomes (.mload q) s (s.tray.runTable q 0x10)) ∧
      (∀ (q : Fin 1536), TrayBecomes (.munload q) s (s.tray.runTable q 0x11)) ∧
      (∀ (q : Fin 1536), TrayBecomes (.mbind q) s (s.tray.runTable q 0x12)) ∧
      (∀ (q : Fin 1536), TrayBecomes (.munbind q) s (s.tray.runTable q 0x13)) ∧
      (∀ (q : Fin 1536), TrayBecomes (.pdefine q) s (s.tray.runTable q 0x20)) ∧
      (∀ (q : Fin 1536), TrayBecomes (.pfree q) s (s.tray.runTable q 0x21)) ∧
      (∀ (pset : BitVec 10), TrayBecomes (.pfreeRelease pset) s (s.tray.freeCheck pset.toNat)) ∧
      (∀ (q : Fin 1536), TrayBecomes (.cutclose q) s (s.tray.runTable q 0x22)) ∧
      (∀ (q : Fin 1536), TrayBecomes (.copy q) s (s.tray.copyGo q)) ∧
      (∀ (q : Fin 1536), TrayBecomes (.zcomp q) s (s.tray.zipGo q 0x40)) ∧
      (∀ (q : Fin 1536), TrayBecomes (.zdecomp q) s (s.tray.zipGo q 0x41)) ∧
      (∀ (q : Fin 1536), TrayBecomes (.msend q) s (s.tray.msend q)) ∧
      (∀ (q : Fin 1536), TrayBecomes (.start q) s (s.tray.startGo q)) ∧
      (∀ (q : Fin 1536), TrayBecomes (.contain q) s (s.tray.contain q)) ∧
      (∀ (q : Fin 1536), TrayBecomes (.sattach q) s (s.tray.runTable q 0x60)) ∧
      (∀ (q : Fin 1536), TrayBecomes (.sdetach q) s (s.tray.runTable q 0x61)) ∧
      (∀ (q : Fin 1536), TrayBecomes (.sepoch q) s (s.tray.runTable q 0x62)) ∧
      (∀ (core : Fin 81920), TrayBecomes (.thiefIdle core) s (s.tray.thiefIdle core)) ∧
      (∀ (core : Fin 81920), TrayBecomes (.stealRequest core) s (s.tray.stealRequest core)) ∧
      (∀ (core : Fin 81920), TrayBecomes (.stealRefused core) s (s.tray.stealRefused core)) ∧
      (∀ (core : Fin 81920), TrayBecomes (.stealBackoffExpiry core) s (s.tray.backoffExpiry core)) ∧
      (∀ (core : Fin 81920), TrayBecomes (.stealTransferDone core) s (s.tray.transferDone core)) ∧
      (∀ (q : Fin 1536) (engine : Fin 32), TrayBecomes (.dataCommandComplete q engine) s (s.tray.dataDone q engine)) ∧
      (∀ (dist : Fin 64), TrayBecomes (.distributorStalled dist) s (s.tray.longStall dist))) ∧
    (s.Open .tray →
      (∀ (ring : Fin 2048) (w : W32), TrayBecomes (.ingestRingEnable ring w) s (s.tray.ringCfg ring (setBit w 31 true))) ∧
      (∀ (q : Fin 1536) (off : BitVec 6) (data : List Byte), TrayBecomes (.apertureStageWrite q off data) s (s.tray.posted (fun v => v.aperture q off.toNat (data.take (0x3F - off.toNat))))) ∧
      (∀ (q : Fin 1536) (off : BitVec 6) (data : List Byte), TrayBecomes (.commandAppend q off data) s (s.tray.posted (fun v => v.aperture q off.toNat (bytesAt data 0 (0x40 - off.toNat))))) ∧
      (∀ (q : Fin 1536), TrayBecomes (.queueResume q) s (s.tray.queueResume q)) ∧
      (∀ (q : Fin 1536), TrayBecomes (.queueFlush q) s (s.tray.queueFlush q)) ∧
      (∀ (cls : Fin 6) (pass : W32), TrayBecomes (.classUnitReset cls pass) s (s.tray.classReset cls pass))) ∧
    (s.tray.u.pw.step < 2 →
      (∀ (ring : Fin 2048) (w : W32), exec (.ingestRingEnable ring w) s = .next s) ∧
      (∀ (q : Fin 1536) (off : BitVec 6) (data : List Byte), exec (.apertureStageWrite q off data) s = .next s) ∧
      (∀ (q : Fin 1536) (off : BitVec 6) (data : List Byte), exec (.commandAppend q off data) s = .next s) ∧
      (∀ (q : Fin 1536), exec (.queueResume q) s = .next s) ∧
      (∀ (q : Fin 1536), exec (.queueFlush q) s = .next s) ∧
      (∀ (cls : Fin 6) (pass : W32), exec (.classUnitReset cls pass) s = .next s)) ∧
    (∀ (space : BitVec 2) (word : BitVec 33) (found : Fin 3), (s.tray.u.held ≠ none → exec (.patrolScrub space word found) s = .next { s with tray := s.tray.scrub space.toNat word.toNat found }))

/-- For every state in which no reset holds the build that takes the command, each of the 12 commands of pod-wide transactions, with every operand, answers the next state in which its build has taken the effect that the operation named here gives, and the other build and the queue are as they were. (spec/10_command_queues_transactions.md) -/
def Obligations.TransactionCommandsComplete : Prop :=
  ∀ s : State,
    (Free s .tray →
      (∀ (idx : Byte), TrayBecomes (.commitPoint idx) s (s.tray.commitPoint idx.toNat)) ∧
      (∀ (link : Byte) (m : TxMsg), TrayBecomes (.txPrepare link m) s (s.tray.txPrepare link.toNat m)) ∧
      (∀ (job : W32) (txid : W32), TrayBecomes (.voteTime job txid) s (s.tray.voteTime job txid)) ∧
      (∀ (link : Byte) (m : TxMsg), TrayBecomes (.txVote link m) s (s.tray.txVote link.toNat m)) ∧
      (∀ (job : W32) (txid : W32), TrayBecomes (.txDecision job txid) s (s.tray.txDecision job txid)) ∧
      (∀ (link : Byte) (m : TxMsg), TrayBecomes (.txDecisionCopy link m) s (s.tray.txCopy link.toNat m)) ∧
      (∀ (job : W32) (txid : W32), TrayBecomes (.txDecisionCopyAck job txid) s (s.tray.txCopyAck job txid)) ∧
      (∀ (link : Byte) (m : TxMsg), TrayBecomes (.txCommit link m) s (s.tray.txCommit link.toNat m)) ∧
      (∀ (m : TxMsg), TrayBecomes (.txAbort m) s (s.tray.txAbort m)) ∧
      (∀ (link : Byte) (m : TxMsg), TrayBecomes (.txCommitAck link m) s (s.tray.txCommitAck link.toNat m)) ∧
      (∀ (job : W32) (txid : W32), TrayBecomes (.transactionInDoubt job txid) s (s.tray.txDoubt job txid)) ∧
      (∀ (link : Byte) (m : TxMsg), TrayBecomes (.txOutcomeQuery link m) s (s.tray.txQuery link.toNat m)))

/-- For every state in which no reset holds the build that takes the command (for a register access of the T build: the ladder has opened its registers, before which the access changes nothing), each of the 30 commands of pan sets, harvests, tree ensembles, health, containment and the expulsion budget, with every operand, answers the next state in which its build has taken the effect that the operation named here gives, and the other build and the queue are as they were. (spec/11_pans_reduction.md, spec/12_tree_ensembles.md, spec/13_health_containment.md) -/
def Obligations.PanAndHealthCommandsComplete : Prop :=
  ∀ s : State,
    (Free s .leaf →
      (∀ (m : CtnMsg), LeafBecomes (.containmentRequest m) s (s.leaf.ctnRequest m)) ∧
      (∀ (kind : Fin 3) (level : Bool), LeafBecomes (.containmentHostAck kind level) s (s.leaf.ctnHostAck (kind + 1) level)) ∧
      (LeafBecomes .containmentAckTimeout s (s.leaf.ctnTimeout)) ∧
      (∀ (m : CtnMsg), LeafBecomes (.stateQuery m) s (s.leaf.ctnQuery m))) ∧
    (Free s .tray →
      (∀ (pset : BitVec 10), TrayBecomes (.cutAngleDeadline pset) s (s.tray.angleDeadline pset.toNat)) ∧
      (∀ (pset : BitVec 10), TrayBecomes (.cutTimeDeadline pset) s (s.tray.timeDeadline pset.toNat)) ∧
      (∀ (pset : BitVec 10), TrayBecomes (.harvestPublish pset) s (s.tray.harvestPublish pset.toNat)) ∧
      (∀ (ring : Fin 64), TrayBecomes (.harvestRingWrite ring) s (s.tray.ringWrite ring)) ∧
      (TrayBecomes .harvestRelay s (s.tray.relayNext)) ∧
      (∀ (child : Fin 192) (body : List Byte), TrayBecomes (.harvestSegmentReceive child body) s (s.tray.harvestSegment child body)) ∧
      (∀ (handle : Fin 64) (gath : Fin 64), TrayBecomes (.partialReceive handle gath) s (s.tray.partialReceive handle gath)) ∧
      (∀ (handle : Fin 64) (gath : Fin 64), TrayBecomes (.scoreSend handle gath) s (s.tray.scoreSend handle gath)) ∧
      (∀ (handle : Fin 64) (gath : Fin 64), TrayBecomes (.scoreExpired handle gath) s (s.tray.scoreExpired handle gath)) ∧
      (∀ (handle : Fin 64) (group : BitVec 14), TrayBecomes (.batchReady handle group) s (s.tray.batchReady handle group.toNat)) ∧
      (∀ (handle : Fin 64) (group : BitVec 14), TrayBecomes (.shortBatch handle group) s (s.tray.shortBatch handle group.toNat)) ∧
      (∀ (handle : Fin 64) (group : BitVec 14) (waited : W32), TrayBecomes (.streamLoadDone handle group waited) s (s.tray.streamLoaded handle group.toNat waited.toNat)) ∧
      (∀ (handle : Fin 64) (group : BitVec 14), TrayBecomes (.streamBatchDone handle group) s (s.tray.streamDone handle group.toNat)) ∧
      (∀ (body : List Byte), TrayBecomes (.referenceMessage body) s (s.tray.refReceive body)) ∧
      (∀ (m : CtnMsg), TrayBecomes (.containmentAcknowledgement m) s (s.tray.containAck m)) ∧
      (∀ (q : Fin 1536), TrayBecomes (.containmentUnacknowledged q) s (s.tray.containUnacked q)) ∧
      (∀ (m : CtnMsg), TrayBecomes (.stateQueryAnswer m) s (s.tray.queryAnswer m)) ∧
      (∀ (m : CtnMsg), TrayBecomes (.grantRequest m) s (s.tray.grantRequest m)) ∧
      (∀ (m : CtnMsg), TrayBecomes (.grant m) s (s.tray.grant m)) ∧
      (∀ (m : CtnMsg), TrayBecomes (.deny m) s (s.tray.deny m)) ∧
      (∀ (slot : Fin 64) (member : Byte), TrayBecomes (.grantTimeout slot member) s (s.tray.grantTimeout slot member.toNat)) ∧
      (∀ (m : CtnMsg), TrayBecomes (.grantReturned m) s (s.tray.grantReturned m)) ∧
      (∀ (m : CtnMsg), TrayBecomes (.budgetOpen m) s (s.tray.budgetOpen m))) ∧
    (s.Open .tray →
      (∀ (slot : Fin 64) (w : W32), TrayBecomes (.healthEnable slot w) s (s.tray.scfgWrite slot (setBit w 31 true))) ∧
      (∀ (slot : Fin 64) (w : W32), TrayBecomes (.sparesWrite slot w) s (s.tray.sparesWrite slot w)) ∧
      (∀ (ring : Fin 64) (v : W32), TrayBecomes (.harvestRingRciWrite ring v) s ((s.tray.pageWritten 0x27 0).rciWrite ring v.toNat))) ∧
    (s.tray.u.pw.step < 2 →
      (∀ (slot : Fin 64) (w : W32), exec (.healthEnable slot w) s = .next s) ∧
      (∀ (slot : Fin 64) (w : W32), exec (.sparesWrite slot w) s = .next s) ∧
      (∀ (ring : Fin 64) (v : W32), exec (.harvestRingRciWrite ring v) s = .next s)) ∧
    (∀ (kind : Fin 3) (level : Bool), (s.leaf.u.held ≠ none → LeafBecomes (.containmentHostAck kind level) s (s.leaf.ctnLevel (kind + 1) level)))

/-- For every state in which no reset holds the build that takes the command (for a register access of the T build: the ladder has opened its registers, before which the access changes nothing), each of the 11 commands of host event queues, interrupts and the leaf compression engine, with every operand, answers the next state in which its build has taken the effect that the operation named here gives, and the other build and the queue are as they were. (spec/14_host_events_ordering.md, spec/15_compression.md) -/
def Obligations.EventAndCompressionCommandsComplete : Prop :=
  ∀ s : State,
    (Free s .leaf →
      (LeafBecomes .eventRecordWriteAck s (s.leaf.hevAck)) ∧
      (∀ (evq : Fin 512) (w : W32), LeafBecomes (.ciWrite .leaf evq w) s ((s.leaf.pageWritten 0x16).hevCi w)) ∧
      (∀ (evq : Fin 512), LeafBecomes (.coalescingTimer .leaf evq) s (s.leaf.hevTimer)) ∧
      (LeafBecomes .eventDmaError s (s.leaf.hevError)) ∧
      (∀ (evq : Fin 512) (w : W32), LeafBecomes (.eventQueueEnable .leaf evq w) s ((s.leaf.pageWritten 0x16).hevEnable)) ∧
      (LeafBecomes .compressionGo s ((s.leaf.pageWritten 0x0F).cmpGo)) ∧
      (∀ (produced : W32), LeafBecomes (.compressionAbort produced) s ((s.leaf.pageWritten 0x0F).cmpAbort produced.toNat)) ∧
      (∀ (dmaErr : Bool), LeafBecomes (.compressionJobDone dmaErr) s (s.leaf.cmpDone dmaErr))) ∧
    (Free s .tray →
      (TrayBecomes .eventRecordStage s (s.tray.stageEvent)) ∧
      (∀ (evq : Fin 512), TrayBecomes (.coalescingTimer .tray evq) s (s.tray.evTimer evq)) ∧
      (TrayBecomes .busMasterEnable s (s.tray.busMaster))) ∧
    (s.Open .tray →
      (∀ (evq : Fin 512) (w : W32), TrayBecomes (.ciWrite .tray evq w) s (s.tray.evCiWrite evq w)) ∧
      (∀ (evq : Fin 512) (w : W32), TrayBecomes (.eventQueueEnable .tray evq w) s (s.tray.evCfg evq (setBit w 31 true))) ∧
      (∀ (vector : Fin 64), TrayBecomes (.msixVectorUnmask vector) s (s.tray.unmask vector))) ∧
    (s.tray.u.pw.step < 2 →
      (∀ (evq : Fin 512) (w : W32), exec (.ciWrite .tray evq w) s = .next s) ∧
      (∀ (evq : Fin 512) (w : W32), exec (.eventQueueEnable .tray evq w) s = .next s) ∧
      (∀ (vector : Fin 64), exec (.msixVectorUnmask vector) s = .next s))

/-- For every state in which no reset holds the build that takes the command (for a register access of the T build: the ladder has opened its registers, before which the access changes nothing) (a cold reset: no cold reset holds it; a release: a reset holds it; a supply code or temperature: what it leaves in a held build is stated too), each of the 38 commands of job start, teardown, census, spares, replay, the ladder, admission, supply, resets and temperature, with every operand, answers the next state in which its build has taken the effect that the operation named here gives, and the other build and the queue are as they were. (spec/16_job_continuity.md, spec/17_power_reset_hotplug.md) -/
def Obligations.JobAndPowerCommandsComplete : Prop :=
  ∀ s : State,
    (Free s .leaf →
      (∀ (m : StartMsg), LeafBecomes (.leafAttach m) s (s.leaf.leafAttach m)) ∧
      (∀ (slot : Fin 2), LeafBecomes (.leafDetach slot) s (s.leaf.leafDetach slot)) ∧
      (∀ (m : StartMsg), LeafBecomes (.replayArm m) s (s.leaf.replayArm m)) ∧
      (∀ (flashOk : Bool) (crcOk : Bool) (fails : List (BitVec 13 × BitVec 17)) (chans : Byte), LeafBecomes (.ladderStepEnd .leaf flashOk crcOk fails chans) s (s.leaf.ladderStep flashOk crcOk)) ∧
      (BlkBecomes .leaf (.helloRetry .leaf) s (s.leaf.u.helloRetry)) ∧
      (∀ (epoch : Byte) (peer : W32) (detail : Byte), BlkBecomes .leaf (.accept .leaf epoch peer detail) s (s.leaf.u.accept epoch peer detail.toNat)) ∧
      (BlkBecomes .leaf (.helloRefuse .leaf) s (s.leaf.u.helloRefused)) ∧
      (LeafBecomes .linkEnable s ((s.leaf.pageWritten 0x10).blk (fun u => u.lnkCtl (setBit (u.reg R.LNK_CTL) 31 true)))) ∧
      (∀ (link : Byte), LeafBecomes (.keepalive .leaf link) s (s.leaf.blk (fun u => u.keepalive 0))) ∧
      (∀ (source : Byte), LeafBecomes (.warmReset .leaf source) s (s.leaf.warmReset source.toNat)) ∧
      (LeafBecomes .unitReset s (s.leaf.unitReset)) ∧
      (∀ (pci : Bool) (port : Fin 8), LeafBecomes (.linkReset .leaf pci port) s (s.leaf.linkResetAll)) ∧
      (BlkBecomes .leaf (.park .leaf) s (s.leaf.u.park)) ∧
      (BlkBecomes .leaf (.unpark .leaf) s (s.leaf.u.unpark.idnResume))) ∧
    (Free s .tray →
      (∀ (link : Byte) (m : StartMsg), TrayBecomes (.startPart link m) s (s.tray.startPart link.toNat m)) ∧
      (∀ (link : Byte) (m : StartMsg), TrayBecomes (.hopAcknowledgement link m) s (s.tray.hopAcked link.toNat m)) ∧
      (∀ (job : W32) (bseq : W32) (link : Byte), TrayBecomes (.hopTimeout job bseq link) s (s.tray.hopTimeout job bseq link.toNat)) ∧
      (∀ (m : StartMsg), TrayBecomes (.leafAcknowledgement m) s (s.tray.leafAcked m)) ∧
      (∀ (job : W32) (bseq : W32) (leaf : W32), TrayBecomes (.leafNotAttached job bseq leaf) s (s.tray.leafTimeout job bseq leaf)) ∧
      (∀ (link : Byte) (m : StartMsg), TrayBecomes (.teardownPart link m) s (s.tray.teardownPart link.toNat m)) ∧
      (∀ (job : W32) (bseq : W32) (link : Byte), TrayBecomes (.teardownResend job bseq link) s (s.tray.teardownResend job bseq link.toNat)) ∧
      (∀ (job : W32), TrayBecomes (.releaseDeadline job) s (s.tray.releaseDeadline job)) ∧
      (∀ (body : List Byte), TrayBecomes (.censusReport body) s (s.tray.censusReport body)) ∧
      (∀ (body : List Byte), TrayBecomes (.holderStateReport body) s (s.tray.holderReport none body)) ∧
      (∀ (body : List Byte), TrayBecomes (.writtenReport body) s (s.tray.writtenReport body)) ∧
      (∀ (slot : Fin 64), TrayBecomes (.censusDeadline slot) s (s.tray.censusDeadline slot)) ∧
      (∀ (body : List Byte), TrayBecomes (.copiedReport body) s (s.tray.copiedReport body)) ∧
      (∀ (flashOk : Bool) (crcOk : Bool) (fails : List (BitVec 13 × BitVec 17)) (chans : Byte), TrayBecomes (.ladderStepEnd .tray flashOk crcOk fails chans) s (s.tray.ladderStep flashOk crcOk (groupFails fails) chans)) ∧
      (TrayBecomes .ladderStepOverran s (s.tray.ladderOverran)) ∧
      (∀ (p : Packet), TrayBecomes (.hello p) s (s.tray.hello p)) ∧
      (TrayBecomes .tokenRefill s (s.tray.tokenRefill 312500)) ∧
      (BlkBecomes .tray (.helloRetry .tray) s (s.tray.u.helloRetry)) ∧
      (∀ (epoch : Byte) (peer : W32) (detail : Byte), BlkBecomes .tray (.accept .tray epoch peer detail) s (s.tray.u.accept epoch peer detail.toNat)) ∧
      (BlkBecomes .tray (.helloRefuse .tray) s (s.tray.u.helloRefused)) ∧
      (∀ (link : Byte), TrayBecomes (.keepalive .tray link) s (s.tray.blk (fun u => u.keepalive link.toNat))) ∧
      (∀ (code : Byte) (rail : Byte), TrayBecomes (.supplyWarningStart .tray code rail) s (s.tray.supply code.toNat rail.toNat true)) ∧
      (∀ (code : Byte) (rail : Byte) (took : Bool), TrayBecomes (.supplyWarningEnd .tray code rail took) s (s.tray.supply code.toNat rail.toNat took)) ∧
      (TrayBecomes (.supplyWarningLong .tray) s (s.tray.blk (fun u => u.warningLong))) ∧
      (∀ (source : Byte), TrayBecomes (.warmReset .tray source) s (s.tray.warmReset source.toNat)) ∧
      (∀ (pci : Bool) (port : Fin 8), TrayBecomes (.linkReset .tray pci port) s (s.tray.linkResetOf pci port)) ∧
      (∀ (tj : Byte) (sensor : Byte), TrayBecomes (.thermalLimit tj sensor) s (s.tray.junction tj.toNat sensor.toNat)) ∧
      (∀ (tj : Byte) (sensor : Byte), TrayBecomes (.thermalClear tj sensor) s (s.tray.junction tj.toNat sensor.toNat)) ∧
      (∀ (tj : Byte) (sensor : Byte), TrayBecomes (.thermtrip tj sensor) s (s.tray.junction tj.toNat sensor.toNat))) ∧
    (s.Open .tray →
      (BlkBecomes .tray (.park .tray) s (s.tray.u.park)) ∧
      (BlkBecomes .tray (.unpark .tray) s (s.tray.u.unpark.idnResume))) ∧
    (s.tray.u.pw.step < 2 →
      (exec (.park .tray) s = .next s) ∧
      (exec (.unpark .tray) s = .next s)) ∧
    (∀ (code : Byte) (rail : Byte), LeafBecomes (.supplyWarningStart .leaf code rail) s (s.leaf.supply code.toNat true)) ∧
    (∀ (code : Byte) (rail : Byte), (s.tray.u.held ≠ none → exec (.supplyWarningStart .tray code rail) s = .next { s with tray := s.tray.supply code.toNat rail.toNat true })) ∧
    (∀ (code : Byte) (rail : Byte) (took : Bool), LeafBecomes (.supplyWarningEnd .leaf code rail took) s (s.leaf.supply code.toNat took)) ∧
    (∀ (code : Byte) (rail : Byte) (took : Bool), (s.tray.u.held ≠ none → exec (.supplyWarningEnd .tray code rail took) s = .next { s with tray := s.tray.supply code.toNat rail.toNat took })) ∧
    ((s.leaf.u.held ≠ some .cold → LeafBecomes (.supplyWarningLong .leaf) s (s.leaf.blk (fun u => u.warningLong)))) ∧
    ((s.tray.u.held ≠ none → s.tray.u.held ≠ some .cold → exec (.supplyWarningLong .tray) s = .next { s with tray := s.tray.blk (fun u => u.warningLong) })) ∧
    (∀ (source : Byte), (s.leaf.u.held ≠ some .cold → LeafBecomes (.coldReset .leaf source) s (s.leaf.coldReset source.toNat))) ∧
    (∀ (source : Byte), (s.tray.u.held ≠ some .cold → exec (.coldReset .tray source) s = .next { s with tray := s.tray.coldReset source.toNat })) ∧
    (∀ (taHash : BitVec 384) (taValid : Bool), (s.leaf.u.held ≠ none → LeafBecomes (.resetRelease .leaf taHash taValid) s (s.leaf.release taHash taValid))) ∧
    (∀ (taHash : BitVec 384) (taValid : Bool), (s.tray.u.held ≠ none → exec (.resetRelease .tray taHash taValid) s = .next { s with tray := s.tray.release taHash taValid })) ∧
    (∀ (tj : Byte) (sensor : Byte), (s.tray.u.held ≠ none → exec (.thermalLimit tj sensor) s = .next { s with tray := s.tray.junction tj.toNat sensor.toNat })) ∧
    (∀ (tj : Byte) (sensor : Byte), (s.tray.u.held ≠ none → exec (.thermalClear tj sensor) s = .next { s with tray := s.tray.junction tj.toNat sensor.toNat })) ∧
    (∀ (tj : Byte) (sensor : Byte), (s.tray.u.held ≠ none → exec (.thermtrip tj sensor) s = .next { s with tray := s.tray.junction tj.toNat sensor.toNat }))

/-- For every state in which no reset holds the build that takes the command (for a register access of the T build: the ladder has opened its registers, before which the access changes nothing), each of the 12 commands of debug mode, injection, the error interrupt, identity, configuration and attestation, with every operand, answers the next state in which its build has taken the effect that the operation named here gives, and the other build and the queue are as they were. (spec/18_errors_injection.md, spec/19_identity_protection.md) -/
def Obligations.ErrorAndIdentityCommandsComplete : Prop :=
  ∀ s : State,
    (Free s .leaf →
      (∀ (w : W32), BlkBecomes .leaf (.debugModeWrite .leaf w) s (s.leaf.u.debugWrite w)) ∧
      (∀ (page : BitVec 8) (w : W32), LeafBecomes (.injectionKey .leaf page w) s (s.leaf.headAt page.toNat H.PGINJSEL w)) ∧
      (∀ (page : BitVec 8) (w : W32), LeafBecomes (.injectionArm .leaf page w) s (s.leaf.headAt page.toNat H.PGINJ w)) ∧
      (LeafBecomes (.correctedErrorSecond .leaf) s (s.leaf.blk (fun u => u.correctedSecond 1000000000))) ∧
      (∀ (w : W32), BlkBecomes .leaf (.errorInterruptEnable .leaf w) s ((s.leaf.u.pageWritten 0x15 0).errCtl (setBit w 31 true))) ∧
      (BlkBecomes .leaf (.enroll .leaf) s (s.leaf.u.enroll)) ∧
      (∀ (verdict : BitVec 3) (flashOk : Bool), LeafBecomes (.installCerts .leaf verdict flashOk) s (s.leaf.installCerts verdict.toNat flashOk)) ∧
      (∀ (v : SigVerdict) (flashOk : Bool), LeafBecomes (.configurationApply .leaf v flashOk) s (s.leaf.cfgApply v flashOk)) ∧
      (LeafBecomes (.reportRequest .leaf) s (s.leaf.report)) ∧
      (∀ (w : W32), BlkBecomes .leaf (.measurementExtend .leaf w) s (s.leaf.u.extIdx w)) ∧
      (∀ (nonce : List Byte), BlkBecomes .leaf (.attestationRequest .leaf nonce) s (s.leaf.u.attestAnswer (bytesAt nonce 0 32)))) ∧
    (Free s .tray →
      (TrayBecomes (.correctedErrorSecond .tray) s (s.tray.blk (fun u => u.correctedSecond 312500000))) ∧
      (∀ (nonce : List Byte), BlkBecomes .tray (.attestationRequest .tray nonce) s (s.tray.u.attestAnswer (bytesAt nonce 0 32))) ∧
      (∀ (link : Byte) (body : List Byte), TrayBecomes (.attestationReport link body) s (s.tray))) ∧
    (s.Open .tray →
      (∀ (w : W32), BlkBecomes .tray (.debugModeWrite .tray w) s (s.tray.u.debugWrite w)) ∧
      (∀ (page : BitVec 8) (w : W32), TrayBecomes (.injectionKey .tray page w) s (s.tray.headAt page.toNat H.PGINJSEL w)) ∧
      (∀ (page : BitVec 8) (w : W32), TrayBecomes (.injectionArm .tray page w) s (s.tray.headAt page.toNat H.PGINJ w)) ∧
      (∀ (w : W32), BlkBecomes .tray (.errorInterruptEnable .tray w) s ((s.tray.u.pageWritten 0x15 0).errCtl (setBit w 31 true))) ∧
      (BlkBecomes .tray (.enroll .tray) s (s.tray.u.enroll)) ∧
      (∀ (verdict : BitVec 3) (flashOk : Bool), TrayBecomes (.installCerts .tray verdict flashOk) s (s.tray.installCerts verdict.toNat flashOk)) ∧
      (∀ (v : SigVerdict) (flashOk : Bool), TrayBecomes (.configurationApply .tray v flashOk) s (s.tray.cfgApply v flashOk)) ∧
      (TrayBecomes (.reportRequest .tray) s (s.tray.report)) ∧
      (∀ (w : W32), BlkBecomes .tray (.measurementExtend .tray w) s (s.tray.u.extIdx w))) ∧
    (s.tray.u.pw.step < 2 →
      (∀ (w : W32), exec (.debugModeWrite .tray w) s = .next s) ∧
      (∀ (page : BitVec 8) (w : W32), exec (.injectionKey .tray page w) s = .next s) ∧
      (∀ (page : BitVec 8) (w : W32), exec (.injectionArm .tray page w) s = .next s) ∧
      (∀ (w : W32), exec (.errorInterruptEnable .tray w) s = .next s) ∧
      (exec (.enroll .tray) s = .next s) ∧
      (∀ (verdict : BitVec 3) (flashOk : Bool), exec (.installCerts .tray verdict flashOk) s = .next s) ∧
      (∀ (v : SigVerdict) (flashOk : Bool), exec (.configurationApply .tray v flashOk) s = .next s) ∧
      (exec (.reportRequest .tray) s = .next s) ∧
      (∀ (w : W32), exec (.measurementExtend .tray w) s = .next s))
end

