-- ==== Sys2Proof/Laws/SMap.lean ====
section
/-!
SUPPORT. What the operations of a sparse map do: what a read gives after a write, and that every operation keeps the canonical form.
-/

namespace Sys2Proof.Machine

variable {α : Type}

/-! ### Reads after writes -/

@[simp] theorem smGet?_nil (a : Nat) : smGet? ([] : SMap α) a = none := rfl

@[simp] theorem smGet_nil (a : Nat) (d : α) : smGet ([] : SMap α) a d = d := rfl

@[simp] theorem smGet?_put_same (m : SMap α) (a : Nat) (v : α) : smGet? (smPut m a v) a = some v := by
  induction m with
  | nil => simp [smPut, smGet?]
  | cons e t ih =>
    obtain ⟨k, w⟩ := e
    simp only [smPut]
    split
    · simp [smGet?]
    · split
      · simp [smGet?]
      · rename_i h1 h2
        simp [smGet?, Ne.symm h2, ih]

theorem smGet?_put_ne (m : SMap α) {a b : Nat} (v : α) (h : b ≠ a) : smGet? (smPut m a v) b = smGet? m b := by
  induction m with
  | nil => simp [smPut, smGet?, Ne.symm h]
  | cons e t ih =>
    obtain ⟨k, w⟩ := e
    simp only [smPut]
    split
    · simp [smGet?, Ne.symm h]
    · split
      · rename_i h1 h2
        subst h2
        simp [smGet?, Ne.symm h]
      · simp [smGet?, ih]

@[simp] theorem smGet_put_same (m : SMap α) (a : Nat) (v d : α) : smGet (smPut m a v) a d = v := by simp [smGet]

theorem smGet_put_ne (m : SMap α) {a b : Nat} (v d : α) (h : b ≠ a) : smGet (smPut m a v) b d = smGet m b d := by
  simp [smGet, smGet?_put_ne m v h]

theorem smGet?_del_ne (m : SMap α) {a b : Nat} (h : b ≠ a) : smGet? (smDel m a) b = smGet? m b := by
  induction m with
  | nil => rfl
  | cons e t ih =>
    obtain ⟨k, w⟩ := e
    simp only [smDel]
    split
    · rename_i h2
      subst h2
      simp [smGet?, Ne.symm h, ih]
    · simp [smGet?, ih]

/-- A deleted key is not in the map. -/
@[simp] theorem smGet?_del_same (m : SMap α) (a : Nat) : smGet? (smDel m a) a = none := by
  induction m with
  | nil => rfl
  | cons e t ih =>
    obtain ⟨k, w⟩ := e
    simp only [smDel]
    split
    · exact ih
    · rename_i hk
      simpa only [smGet?, if_neg hk] using ih

/-! ### The canonical form -/

/-- A map is sorted when its first key is below every later one and the rest is sorted. -/
theorem smSorted_cons (k : Nat) (v : α) (t : SMap α) :
    smSorted ((k, v) :: t) = true ↔ (∀ e ∈ t, k < e.1) ∧ smSorted t = true := by
  induction t generalizing k v with
  | nil => simp [smSorted]
  | cons e t ih =>
    obtain ⟨k', v'⟩ := e
    constructor
    · intro h
      simp only [smSorted, Bool.and_eq_true, decide_eq_true_eq] at h
      refine ⟨fun x hx => ?_, h.2⟩
      rcases List.mem_cons.mp hx with rfl | hx
      · exact h.1
      · exact Nat.lt_trans h.1 (((ih k' v').mp h.2).1 x hx)
    · rintro ⟨h1, h2⟩
      simp only [smSorted, Bool.and_eq_true, decide_eq_true_eq]
      exact ⟨h1 (k', v') (List.mem_cons_self ..), h2⟩

theorem smPut_keys {m : SMap α} {a : Nat} {v : α} {e : Nat × α} (h : e ∈ smPut m a v) : e = (a, v) ∨ e ∈ m := by
  induction m with
  | nil => simpa [smPut] using h
  | cons x t ih =>
    obtain ⟨k, w⟩ := x
    simp only [smPut] at h
    split at h
    · simpa using h
    · split at h
      · simp only [List.mem_cons] at h ⊢
        tauto
      · simp only [List.mem_cons] at h ⊢
        rcases h with h | h
        · tauto
        · rcases ih h with h | h <;> tauto

theorem smDel_keys {m : SMap α} {a : Nat} {e : Nat × α} (h : e ∈ smDel m a) : e ∈ m := by
  induction m with
  | nil => simpa [smDel] using h
  | cons x t ih =>
    obtain ⟨k, w⟩ := x
    simp only [smDel] at h
    split at h
    · exact List.mem_cons_of_mem _ (ih h)
    · simp only [List.mem_cons] at h ⊢
      rcases h with h | h
      · exact .inl h
      · exact .inr (ih h)

theorem smSorted_put {m : SMap α} (a : Nat) (v : α) (h : smSorted m = true) : smSorted (smPut m a v) = true := by
  induction m with
  | nil => rfl
  | cons x t ih =>
    obtain ⟨k, w⟩ := x
    obtain ⟨h1, h2⟩ := (smSorted_cons k w t).mp h
    simp only [smPut]
    split
    · rename_i hk
      refine (smSorted_cons a v _).mpr ⟨fun e he => ?_, h⟩
      rcases List.mem_cons.mp he with rfl | he
      · exact hk
      · exact Nat.lt_trans hk (h1 e he)
    · split
      · rename_i hk
        subst hk
        exact (smSorted_cons a v t).mpr ⟨h1, h2⟩
      · rename_i hk1 hk2
        refine (smSorted_cons k w _).mpr ⟨fun e he => ?_, ih h2⟩
        rcases smPut_keys he with rfl | he
        · simp only; omega
        · exact h1 e he

theorem smSorted_del {m : SMap α} (a : Nat) (h : smSorted m = true) : smSorted (smDel m a) = true := by
  induction m with
  | nil => rfl
  | cons x t ih =>
    obtain ⟨k, w⟩ := x
    obtain ⟨h1, h2⟩ := (smSorted_cons k w t).mp h
    simp only [smDel]
    split
    · exact ih h2
    · exact (smSorted_cons k w _).mpr ⟨fun e he => h1 e (smDel_keys he), ih h2⟩

variable [DecidableEq α]

theorem smGet_set_ne (m : SMap α) {a b : Nat} (v d d' : α) (h : b ≠ a) : smGet (smSet m a v d) b d' = smGet m b d' := by
  unfold smSet
  split
  · simp [smGet, smGet?_del_ne m h]
  · exact smGet_put_ne m v d' h

theorem smGet_set_same (m : SMap α) (a : Nat) (v d : α) : smGet (smSet m a v d) a d = v := by
  unfold smSet
  split
  · rename_i hv
    simp [smGet, hv]
  · exact smGet_put_same m a v d

theorem smSorted_set {m : SMap α} (a : Nat) (v d : α) (h : smSorted m = true) : smSorted (smSet m a v d) = true := by
  unfold smSet
  split
  · exact smSorted_del a h
  · exact smSorted_put a v h

@[simp] theorem smCanon_nil (d : Nat → α) : smCanon ([] : SMap α) d = true := rfl

/-- Setting a value keeps the canonical form: the value an unlisted key reads as is never listed. -/
theorem smCanon_set {m : SMap α} {d : Nat → α} (a : Nat) (v : α) (h : smCanon m d = true) : smCanon (smSet m a v (d a)) d = true := by
  simp only [smCanon, Bool.and_eq_true, List.all_eq_true, decide_eq_true_eq] at h ⊢
  refine ⟨smSorted_set a v (d a) h.1, fun e he => ?_⟩
  unfold smSet at he
  split at he
  · exact h.2 e (smDel_keys he)
  · rename_i hv
    rcases smPut_keys he with rfl | he
    · exact hv
    · exact h.2 e he

/-- Writing bytes keeps the canonical form of a byte memory. -/
theorem smCanon_writeBytes (l : List Byte) (m : SMap Byte) (a : Nat) (d : Byte) (h : smCanon m (fun _ => d) = true) :
    smCanon (smWriteBytes m a d l) (fun _ => d) = true := by
  induction l generalizing m a with
  | nil => exact h
  | cons b t ih => exact ih _ _ (smCanon_set (d := fun _ => d) a b h)

/-- Writing bytes keeps every address outside the bytes written. -/
theorem smGet_writeBytes_outside (l : List Byte) (m : SMap Byte) (a : Nat) (d : Byte) {x : Nat} (h : x < a ∨ a + l.length ≤ x) :
    smGet (smWriteBytes m a d l) x d = smGet m x d := by
  induction l generalizing m a with
  | nil => rfl
  | cons b t ih =>
    simp only [List.length_cons] at h
    rw [smWriteBytes, ih _ _ (by omega)]
    exact smGet_set_ne m b d d (by omega)

theorem smCanon_sorted {m : SMap α} {d : Nat → α} (h : smCanon m d = true) : smSorted m = true := by
  simp only [smCanon, Bool.and_eq_true] at h
  exact h.1

end Sys2Proof.Machine
end

