-- ==== Sys2Proof/Laws/State.lean ====
section
/-!
SUPPORT. What each named update of the state changes and what it leaves: one lemma for each field and each update, and one for each of the ways in which a
command acts on the state.
-/

namespace Sys2Proof.Machine

/-! ### Updates of what both builds hold -/

@[simp] theorem Blk.setReg_build (u : Blk) (k : Nat) (v : W32) : (u.setReg k v).build = u.build := rfl
@[simp] theorem Blk.setReg_regs (u : Blk) (k : Nat) (v : W32) : (u.setReg k v).regs = smSet u.regs k v (regReset u.build k) := rfl
@[simp] theorem Blk.setReg_cyc (u : Blk) (k : Nat) (v : W32) : (u.setReg k v).cyc = u.cyc := rfl
@[simp] theorem Blk.setReg_rcNow (u : Blk) (k : Nat) (v : W32) : (u.setReg k v).rcNow = u.rcNow := rfl
@[simp] theorem Blk.setReg_held (u : Blk) (k : Nat) (v : W32) : (u.setReg k v).held = u.held := rfl
@[simp] theorem Blk.setReg_clk (u : Blk) (k : Nat) (v : W32) : (u.setReg k v).clk = u.clk := rfl
@[simp] theorem Blk.setReg_steps (u : Blk) (k : Nat) (v : W32) : (u.setReg k v).steps = u.steps := rfl
@[simp] theorem Blk.setReg_timed (u : Blk) (k : Nat) (v : W32) : (u.setReg k v).timed = u.timed := rfl
@[simp] theorem Blk.setReg_rcd (u : Blk) (k : Nat) (v : W32) : (u.setReg k v).rcd = u.rcd := rfl
@[simp] theorem Blk.setReg_gather (u : Blk) (k : Nat) (v : W32) : (u.setReg k v).gather = u.gather := rfl
@[simp] theorem Blk.setReg_his (u : Blk) (k : Nat) (v : W32) : (u.setReg k v).his = u.his := rfl
@[simp] theorem Blk.setReg_cones (u : Blk) (k : Nat) (v : W32) : (u.setReg k v).cones = u.cones := rfl
@[simp] theorem Blk.setReg_ports (u : Blk) (k : Nat) (v : W32) : (u.setReg k v).ports = u.ports := rfl
@[simp] theorem Blk.setReg_links (u : Blk) (k : Nat) (v : W32) : (u.setReg k v).links = u.links := rfl
@[simp] theorem Blk.setReg_tree (u : Blk) (k : Nat) (v : W32) : (u.setReg k v).tree = u.tree := rfl
@[simp] theorem Blk.setReg_mailbox (u : Blk) (k : Nat) (v : W32) : (u.setReg k v).mailbox = u.mailbox := rfl
@[simp] theorem Blk.setReg_pw (u : Blk) (k : Nat) (v : W32) : (u.setReg k v).pw = u.pw := rfl
@[simp] theorem Blk.setReg_idn (u : Blk) (k : Nat) (v : W32) : (u.setReg k v).idn = u.idn := rfl
@[simp] theorem Blk.setReg_er (u : Blk) (k : Nat) (v : W32) : (u.setReg k v).er = u.er := rfl
@[simp] theorem Blk.setReg_host (u : Blk) (k : Nat) (v : W32) : (u.setReg k v).host = u.host := rfl
@[simp] theorem Blk.setReg_poison (u : Blk) (k : Nat) (v : W32) : (u.setReg k v).poison = u.poison := rfl
@[simp] theorem Blk.setReg_arrived (u : Blk) (k : Nat) (v : W32) : (u.setReg k v).arrived = u.arrived := rfl
@[simp] theorem Blk.setReg_fresh (u : Blk) (k : Nat) (v : W32) : (u.setReg k v).fresh = u.fresh := rfl
@[simp] theorem Blk.setReg_out (u : Blk) (k : Nat) (v : W32) : (u.setReg k v).out = u.out := rfl

@[simp] theorem Blk.setN_build (u : Blk) (k v : Nat) : (u.setN k v).build = u.build := rfl
@[simp] theorem Blk.setN_cyc (u : Blk) (k v : Nat) : (u.setN k v).cyc = u.cyc := rfl
@[simp] theorem Blk.setN_rcNow (u : Blk) (k v : Nat) : (u.setN k v).rcNow = u.rcNow := rfl
@[simp] theorem Blk.setN_held (u : Blk) (k v : Nat) : (u.setN k v).held = u.held := rfl
@[simp] theorem Blk.setN_clk (u : Blk) (k v : Nat) : (u.setN k v).clk = u.clk := rfl
@[simp] theorem Blk.setN_steps (u : Blk) (k v : Nat) : (u.setN k v).steps = u.steps := rfl
@[simp] theorem Blk.setN_timed (u : Blk) (k v : Nat) : (u.setN k v).timed = u.timed := rfl
@[simp] theorem Blk.setN_rcd (u : Blk) (k v : Nat) : (u.setN k v).rcd = u.rcd := rfl
@[simp] theorem Blk.setN_gather (u : Blk) (k v : Nat) : (u.setN k v).gather = u.gather := rfl
@[simp] theorem Blk.setN_his (u : Blk) (k v : Nat) : (u.setN k v).his = u.his := rfl
@[simp] theorem Blk.setN_cones (u : Blk) (k v : Nat) : (u.setN k v).cones = u.cones := rfl
@[simp] theorem Blk.setN_ports (u : Blk) (k v : Nat) : (u.setN k v).ports = u.ports := rfl
@[simp] theorem Blk.setN_links (u : Blk) (k v : Nat) : (u.setN k v).links = u.links := rfl
@[simp] theorem Blk.setN_tree (u : Blk) (k v : Nat) : (u.setN k v).tree = u.tree := rfl
@[simp] theorem Blk.setN_mailbox (u : Blk) (k v : Nat) : (u.setN k v).mailbox = u.mailbox := rfl
@[simp] theorem Blk.setN_pw (u : Blk) (k v : Nat) : (u.setN k v).pw = u.pw := rfl
@[simp] theorem Blk.setN_idn (u : Blk) (k v : Nat) : (u.setN k v).idn = u.idn := rfl
@[simp] theorem Blk.setN_er (u : Blk) (k v : Nat) : (u.setN k v).er = u.er := rfl
@[simp] theorem Blk.setN_host (u : Blk) (k v : Nat) : (u.setN k v).host = u.host := rfl
@[simp] theorem Blk.setN_poison (u : Blk) (k v : Nat) : (u.setN k v).poison = u.poison := rfl
@[simp] theorem Blk.setN_arrived (u : Blk) (k v : Nat) : (u.setN k v).arrived = u.arrived := rfl
@[simp] theorem Blk.setN_fresh (u : Blk) (k v : Nat) : (u.setN k v).fresh = u.fresh := rfl
@[simp] theorem Blk.setN_out (u : Blk) (k v : Nat) : (u.setN k v).out = u.out := rfl

@[simp] theorem Blk.modReg_build (u : Blk) (k : Nat) (f : W32 → W32) : (u.modReg k f).build = u.build := rfl
@[simp] theorem Blk.modReg_cyc (u : Blk) (k : Nat) (f : W32 → W32) : (u.modReg k f).cyc = u.cyc := rfl
@[simp] theorem Blk.modReg_rcNow (u : Blk) (k : Nat) (f : W32 → W32) : (u.modReg k f).rcNow = u.rcNow := rfl
@[simp] theorem Blk.modReg_held (u : Blk) (k : Nat) (f : W32 → W32) : (u.modReg k f).held = u.held := rfl
@[simp] theorem Blk.modReg_clk (u : Blk) (k : Nat) (f : W32 → W32) : (u.modReg k f).clk = u.clk := rfl
@[simp] theorem Blk.modReg_steps (u : Blk) (k : Nat) (f : W32 → W32) : (u.modReg k f).steps = u.steps := rfl
@[simp] theorem Blk.modReg_timed (u : Blk) (k : Nat) (f : W32 → W32) : (u.modReg k f).timed = u.timed := rfl
@[simp] theorem Blk.modReg_rcd (u : Blk) (k : Nat) (f : W32 → W32) : (u.modReg k f).rcd = u.rcd := rfl
@[simp] theorem Blk.modReg_gather (u : Blk) (k : Nat) (f : W32 → W32) : (u.modReg k f).gather = u.gather := rfl
@[simp] theorem Blk.modReg_his (u : Blk) (k : Nat) (f : W32 → W32) : (u.modReg k f).his = u.his := rfl
@[simp] theorem Blk.modReg_cones (u : Blk) (k : Nat) (f : W32 → W32) : (u.modReg k f).cones = u.cones := rfl
@[simp] theorem Blk.modReg_ports (u : Blk) (k : Nat) (f : W32 → W32) : (u.modReg k f).ports = u.ports := rfl
@[simp] theorem Blk.modReg_links (u : Blk) (k : Nat) (f : W32 → W32) : (u.modReg k f).links = u.links := rfl
@[simp] theorem Blk.modReg_tree (u : Blk) (k : Nat) (f : W32 → W32) : (u.modReg k f).tree = u.tree := rfl
@[simp] theorem Blk.modReg_mailbox (u : Blk) (k : Nat) (f : W32 → W32) : (u.modReg k f).mailbox = u.mailbox := rfl
@[simp] theorem Blk.modReg_pw (u : Blk) (k : Nat) (f : W32 → W32) : (u.modReg k f).pw = u.pw := rfl
@[simp] theorem Blk.modReg_idn (u : Blk) (k : Nat) (f : W32 → W32) : (u.modReg k f).idn = u.idn := rfl
@[simp] theorem Blk.modReg_er (u : Blk) (k : Nat) (f : W32 → W32) : (u.modReg k f).er = u.er := rfl
@[simp] theorem Blk.modReg_host (u : Blk) (k : Nat) (f : W32 → W32) : (u.modReg k f).host = u.host := rfl
@[simp] theorem Blk.modReg_poison (u : Blk) (k : Nat) (f : W32 → W32) : (u.modReg k f).poison = u.poison := rfl
@[simp] theorem Blk.modReg_arrived (u : Blk) (k : Nat) (f : W32 → W32) : (u.modReg k f).arrived = u.arrived := rfl
@[simp] theorem Blk.modReg_fresh (u : Blk) (k : Nat) (f : W32 → W32) : (u.modReg k f).fresh = u.fresh := rfl
@[simp] theorem Blk.modReg_out (u : Blk) (k : Nat) (f : W32 → W32) : (u.modReg k f).out = u.out := rfl

@[simp] theorem Blk.bump_build (u : Blk) (k : Nat) : (u.bump k).build = u.build := rfl
@[simp] theorem Blk.bump_cyc (u : Blk) (k : Nat) : (u.bump k).cyc = u.cyc := rfl
@[simp] theorem Blk.bump_rcNow (u : Blk) (k : Nat) : (u.bump k).rcNow = u.rcNow := rfl
@[simp] theorem Blk.bump_held (u : Blk) (k : Nat) : (u.bump k).held = u.held := rfl
@[simp] theorem Blk.bump_clk (u : Blk) (k : Nat) : (u.bump k).clk = u.clk := rfl
@[simp] theorem Blk.bump_steps (u : Blk) (k : Nat) : (u.bump k).steps = u.steps := rfl
@[simp] theorem Blk.bump_timed (u : Blk) (k : Nat) : (u.bump k).timed = u.timed := rfl
@[simp] theorem Blk.bump_rcd (u : Blk) (k : Nat) : (u.bump k).rcd = u.rcd := rfl
@[simp] theorem Blk.bump_gather (u : Blk) (k : Nat) : (u.bump k).gather = u.gather := rfl
@[simp] theorem Blk.bump_his (u : Blk) (k : Nat) : (u.bump k).his = u.his := rfl
@[simp] theorem Blk.bump_cones (u : Blk) (k : Nat) : (u.bump k).cones = u.cones := rfl
@[simp] theorem Blk.bump_ports (u : Blk) (k : Nat) : (u.bump k).ports = u.ports := rfl
@[simp] theorem Blk.bump_links (u : Blk) (k : Nat) : (u.bump k).links = u.links := rfl
@[simp] theorem Blk.bump_tree (u : Blk) (k : Nat) : (u.bump k).tree = u.tree := rfl
@[simp] theorem Blk.bump_mailbox (u : Blk) (k : Nat) : (u.bump k).mailbox = u.mailbox := rfl
@[simp] theorem Blk.bump_pw (u : Blk) (k : Nat) : (u.bump k).pw = u.pw := rfl
@[simp] theorem Blk.bump_idn (u : Blk) (k : Nat) : (u.bump k).idn = u.idn := rfl
@[simp] theorem Blk.bump_er (u : Blk) (k : Nat) : (u.bump k).er = u.er := rfl
@[simp] theorem Blk.bump_host (u : Blk) (k : Nat) : (u.bump k).host = u.host := rfl
@[simp] theorem Blk.bump_poison (u : Blk) (k : Nat) : (u.bump k).poison = u.poison := rfl
@[simp] theorem Blk.bump_arrived (u : Blk) (k : Nat) : (u.bump k).arrived = u.arrived := rfl
@[simp] theorem Blk.bump_fresh (u : Blk) (k : Nat) : (u.bump k).fresh = u.fresh := rfl
@[simp] theorem Blk.bump_out (u : Blk) (k : Nat) : (u.bump k).out = u.out := rfl

@[simp] theorem Blk.count_build (u : Blk) (k n : Nat) : (u.count k n).build = u.build := rfl
@[simp] theorem Blk.count_cyc (u : Blk) (k n : Nat) : (u.count k n).cyc = u.cyc := rfl
@[simp] theorem Blk.count_rcNow (u : Blk) (k n : Nat) : (u.count k n).rcNow = u.rcNow := rfl
@[simp] theorem Blk.count_held (u : Blk) (k n : Nat) : (u.count k n).held = u.held := rfl
@[simp] theorem Blk.count_clk (u : Blk) (k n : Nat) : (u.count k n).clk = u.clk := rfl
@[simp] theorem Blk.count_steps (u : Blk) (k n : Nat) : (u.count k n).steps = u.steps := rfl
@[simp] theorem Blk.count_timed (u : Blk) (k n : Nat) : (u.count k n).timed = u.timed := rfl
@[simp] theorem Blk.count_rcd (u : Blk) (k n : Nat) : (u.count k n).rcd = u.rcd := rfl
@[simp] theorem Blk.count_gather (u : Blk) (k n : Nat) : (u.count k n).gather = u.gather := rfl
@[simp] theorem Blk.count_his (u : Blk) (k n : Nat) : (u.count k n).his = u.his := rfl
@[simp] theorem Blk.count_cones (u : Blk) (k n : Nat) : (u.count k n).cones = u.cones := rfl
@[simp] theorem Blk.count_ports (u : Blk) (k n : Nat) : (u.count k n).ports = u.ports := rfl
@[simp] theorem Blk.count_links (u : Blk) (k n : Nat) : (u.count k n).links = u.links := rfl
@[simp] theorem Blk.count_tree (u : Blk) (k n : Nat) : (u.count k n).tree = u.tree := rfl
@[simp] theorem Blk.count_mailbox (u : Blk) (k n : Nat) : (u.count k n).mailbox = u.mailbox := rfl
@[simp] theorem Blk.count_pw (u : Blk) (k n : Nat) : (u.count k n).pw = u.pw := rfl
@[simp] theorem Blk.count_idn (u : Blk) (k n : Nat) : (u.count k n).idn = u.idn := rfl
@[simp] theorem Blk.count_er (u : Blk) (k n : Nat) : (u.count k n).er = u.er := rfl
@[simp] theorem Blk.count_host (u : Blk) (k n : Nat) : (u.count k n).host = u.host := rfl
@[simp] theorem Blk.count_poison (u : Blk) (k n : Nat) : (u.count k n).poison = u.poison := rfl
@[simp] theorem Blk.count_arrived (u : Blk) (k n : Nat) : (u.count k n).arrived = u.arrived := rfl
@[simp] theorem Blk.count_fresh (u : Blk) (k n : Nat) : (u.count k n).fresh = u.fresh := rfl
@[simp] theorem Blk.count_out (u : Blk) (k n : Nat) : (u.count k n).out = u.out := rfl

@[simp] theorem Blk.setRb_build (u : Blk) (k i : Nat) (b : Bool) : (u.setRb k i b).build = u.build := rfl
@[simp] theorem Blk.setRb_cyc (u : Blk) (k i : Nat) (b : Bool) : (u.setRb k i b).cyc = u.cyc := rfl
@[simp] theorem Blk.setRb_rcNow (u : Blk) (k i : Nat) (b : Bool) : (u.setRb k i b).rcNow = u.rcNow := rfl
@[simp] theorem Blk.setRb_held (u : Blk) (k i : Nat) (b : Bool) : (u.setRb k i b).held = u.held := rfl
@[simp] theorem Blk.setRb_clk (u : Blk) (k i : Nat) (b : Bool) : (u.setRb k i b).clk = u.clk := rfl
@[simp] theorem Blk.setRb_steps (u : Blk) (k i : Nat) (b : Bool) : (u.setRb k i b).steps = u.steps := rfl
@[simp] theorem Blk.setRb_timed (u : Blk) (k i : Nat) (b : Bool) : (u.setRb k i b).timed = u.timed := rfl
@[simp] theorem Blk.setRb_rcd (u : Blk) (k i : Nat) (b : Bool) : (u.setRb k i b).rcd = u.rcd := rfl
@[simp] theorem Blk.setRb_gather (u : Blk) (k i : Nat) (b : Bool) : (u.setRb k i b).gather = u.gather := rfl
@[simp] theorem Blk.setRb_his (u : Blk) (k i : Nat) (b : Bool) : (u.setRb k i b).his = u.his := rfl
@[simp] theorem Blk.setRb_cones (u : Blk) (k i : Nat) (b : Bool) : (u.setRb k i b).cones = u.cones := rfl
@[simp] theorem Blk.setRb_ports (u : Blk) (k i : Nat) (b : Bool) : (u.setRb k i b).ports = u.ports := rfl
@[simp] theorem Blk.setRb_links (u : Blk) (k i : Nat) (b : Bool) : (u.setRb k i b).links = u.links := rfl
@[simp] theorem Blk.setRb_tree (u : Blk) (k i : Nat) (b : Bool) : (u.setRb k i b).tree = u.tree := rfl
@[simp] theorem Blk.setRb_mailbox (u : Blk) (k i : Nat) (b : Bool) : (u.setRb k i b).mailbox = u.mailbox := rfl
@[simp] theorem Blk.setRb_pw (u : Blk) (k i : Nat) (b : Bool) : (u.setRb k i b).pw = u.pw := rfl
@[simp] theorem Blk.setRb_idn (u : Blk) (k i : Nat) (b : Bool) : (u.setRb k i b).idn = u.idn := rfl
@[simp] theorem Blk.setRb_er (u : Blk) (k i : Nat) (b : Bool) : (u.setRb k i b).er = u.er := rfl
@[simp] theorem Blk.setRb_host (u : Blk) (k i : Nat) (b : Bool) : (u.setRb k i b).host = u.host := rfl
@[simp] theorem Blk.setRb_poison (u : Blk) (k i : Nat) (b : Bool) : (u.setRb k i b).poison = u.poison := rfl
@[simp] theorem Blk.setRb_arrived (u : Blk) (k i : Nat) (b : Bool) : (u.setRb k i b).arrived = u.arrived := rfl
@[simp] theorem Blk.setRb_fresh (u : Blk) (k i : Nat) (b : Bool) : (u.setRb k i b).fresh = u.fresh := rfl
@[simp] theorem Blk.setRb_out (u : Blk) (k i : Nat) (b : Bool) : (u.setRb k i b).out = u.out := rfl

@[simp] theorem Blk.emit_build (u : Blk) (o : Out) : (u.emit o).build = u.build := rfl
@[simp] theorem Blk.emit_regs (u : Blk) (o : Out) : (u.emit o).regs = u.regs := rfl
@[simp] theorem Blk.emit_cyc (u : Blk) (o : Out) : (u.emit o).cyc = u.cyc := rfl
@[simp] theorem Blk.emit_rcNow (u : Blk) (o : Out) : (u.emit o).rcNow = u.rcNow := rfl
@[simp] theorem Blk.emit_held (u : Blk) (o : Out) : (u.emit o).held = u.held := rfl
@[simp] theorem Blk.emit_clk (u : Blk) (o : Out) : (u.emit o).clk = u.clk := rfl
@[simp] theorem Blk.emit_steps (u : Blk) (o : Out) : (u.emit o).steps = u.steps := rfl
@[simp] theorem Blk.emit_timed (u : Blk) (o : Out) : (u.emit o).timed = u.timed := rfl
@[simp] theorem Blk.emit_rcd (u : Blk) (o : Out) : (u.emit o).rcd = u.rcd := rfl
@[simp] theorem Blk.emit_gather (u : Blk) (o : Out) : (u.emit o).gather = u.gather := rfl
@[simp] theorem Blk.emit_his (u : Blk) (o : Out) : (u.emit o).his = u.his := rfl
@[simp] theorem Blk.emit_cones (u : Blk) (o : Out) : (u.emit o).cones = u.cones := rfl
@[simp] theorem Blk.emit_ports (u : Blk) (o : Out) : (u.emit o).ports = u.ports := rfl
@[simp] theorem Blk.emit_links (u : Blk) (o : Out) : (u.emit o).links = u.links := rfl
@[simp] theorem Blk.emit_tree (u : Blk) (o : Out) : (u.emit o).tree = u.tree := rfl
@[simp] theorem Blk.emit_mailbox (u : Blk) (o : Out) : (u.emit o).mailbox = u.mailbox := rfl
@[simp] theorem Blk.emit_pw (u : Blk) (o : Out) : (u.emit o).pw = u.pw := rfl
@[simp] theorem Blk.emit_idn (u : Blk) (o : Out) : (u.emit o).idn = u.idn := rfl
@[simp] theorem Blk.emit_er (u : Blk) (o : Out) : (u.emit o).er = u.er := rfl
@[simp] theorem Blk.emit_host (u : Blk) (o : Out) : (u.emit o).host = u.host := rfl
@[simp] theorem Blk.emit_poison (u : Blk) (o : Out) : (u.emit o).poison = u.poison := rfl
@[simp] theorem Blk.emit_arrived (u : Blk) (o : Out) : (u.emit o).arrived = u.arrived := rfl
@[simp] theorem Blk.emit_fresh (u : Blk) (o : Out) : (u.emit o).fresh = u.fresh := rfl
@[simp] theorem Blk.emit_out (u : Blk) (o : Out) : (u.emit o).out = o :: u.out := rfl

@[simp] theorem Blk.adv_build (u : Blk) (k : Nat) : (u.adv k).build = u.build := rfl
@[simp] theorem Blk.adv_regs (u : Blk) (k : Nat) : (u.adv k).regs = u.regs := rfl
@[simp] theorem Blk.adv_cyc (u : Blk) (k : Nat) : (u.adv k).cyc = if k = 0 then u.cyc else u.regs := rfl
@[simp] theorem Blk.adv_rcNow (u : Blk) (k : Nat) : (u.adv k).rcNow = if k = 0 then u.rcNow else [] := rfl
@[simp] theorem Blk.adv_held (u : Blk) (k : Nat) : (u.adv k).held = u.held := rfl
@[simp] theorem Blk.adv_clk (u : Blk) (k : Nat) : (u.adv k).clk = u.clk.adv k := rfl
@[simp] theorem Blk.adv_steps (u : Blk) (k : Nat) : (u.adv k).steps = u.steps := rfl
@[simp] theorem Blk.adv_timed (u : Blk) (k : Nat) : (u.adv k).timed = u.timed := rfl
@[simp] theorem Blk.adv_rcd (u : Blk) (k : Nat) : (u.adv k).rcd = u.rcd := rfl
@[simp] theorem Blk.adv_gather (u : Blk) (k : Nat) : (u.adv k).gather = u.gather := rfl
@[simp] theorem Blk.adv_his (u : Blk) (k : Nat) : (u.adv k).his = u.his := rfl
@[simp] theorem Blk.adv_cones (u : Blk) (k : Nat) : (u.adv k).cones = u.cones := rfl
@[simp] theorem Blk.adv_ports (u : Blk) (k : Nat) : (u.adv k).ports = u.ports := rfl
@[simp] theorem Blk.adv_links (u : Blk) (k : Nat) : (u.adv k).links = u.links := rfl
@[simp] theorem Blk.adv_tree (u : Blk) (k : Nat) : (u.adv k).tree = u.tree := rfl
@[simp] theorem Blk.adv_mailbox (u : Blk) (k : Nat) : (u.adv k).mailbox = u.mailbox := rfl
@[simp] theorem Blk.adv_pw (u : Blk) (k : Nat) : (u.adv k).pw = u.pw := rfl
@[simp] theorem Blk.adv_idn (u : Blk) (k : Nat) : (u.adv k).idn = u.idn := rfl
@[simp] theorem Blk.adv_er (u : Blk) (k : Nat) : (u.adv k).er = u.er := rfl
@[simp] theorem Blk.adv_host (u : Blk) (k : Nat) : (u.adv k).host = u.host := rfl
@[simp] theorem Blk.adv_poison (u : Blk) (k : Nat) : (u.adv k).poison = u.poison := rfl
@[simp] theorem Blk.adv_arrived (u : Blk) (k : Nat) : (u.adv k).arrived = u.arrived := rfl
@[simp] theorem Blk.adv_fresh (u : Blk) (k : Nat) : (u.adv k).fresh = u.fresh := rfl
@[simp] theorem Blk.adv_out (u : Blk) (k : Nat) : (u.adv k).out = u.out := rfl

@[simp] theorem Blk.setStep_build (u : Blk) (s : Nat) (c : StepClk) : (u.setStep s c).build = u.build := rfl
@[simp] theorem Blk.setStep_regs (u : Blk) (s : Nat) (c : StepClk) : (u.setStep s c).regs = u.regs := rfl
@[simp] theorem Blk.setStep_cyc (u : Blk) (s : Nat) (c : StepClk) : (u.setStep s c).cyc = u.cyc := rfl
@[simp] theorem Blk.setStep_rcNow (u : Blk) (s : Nat) (c : StepClk) : (u.setStep s c).rcNow = u.rcNow := rfl
@[simp] theorem Blk.setStep_held (u : Blk) (s : Nat) (c : StepClk) : (u.setStep s c).held = u.held := rfl
@[simp] theorem Blk.setStep_clk (u : Blk) (s : Nat) (c : StepClk) : (u.setStep s c).clk = u.clk := rfl
@[simp] theorem Blk.setStep_steps (u : Blk) (s : Nat) (c : StepClk) : (u.setStep s c).steps = smSet u.steps s c StepClk.reset := rfl
@[simp] theorem Blk.setStep_timed (u : Blk) (s : Nat) (c : StepClk) : (u.setStep s c).timed = u.timed := rfl
@[simp] theorem Blk.setStep_rcd (u : Blk) (s : Nat) (c : StepClk) : (u.setStep s c).rcd = u.rcd := rfl
@[simp] theorem Blk.setStep_gather (u : Blk) (s : Nat) (c : StepClk) : (u.setStep s c).gather = u.gather := rfl
@[simp] theorem Blk.setStep_his (u : Blk) (s : Nat) (c : StepClk) : (u.setStep s c).his = u.his := rfl
@[simp] theorem Blk.setStep_cones (u : Blk) (s : Nat) (c : StepClk) : (u.setStep s c).cones = u.cones := rfl
@[simp] theorem Blk.setStep_ports (u : Blk) (s : Nat) (c : StepClk) : (u.setStep s c).ports = u.ports := rfl
@[simp] theorem Blk.setStep_links (u : Blk) (s : Nat) (c : StepClk) : (u.setStep s c).links = u.links := rfl
@[simp] theorem Blk.setStep_tree (u : Blk) (s : Nat) (c : StepClk) : (u.setStep s c).tree = u.tree := rfl
@[simp] theorem Blk.setStep_mailbox (u : Blk) (s : Nat) (c : StepClk) : (u.setStep s c).mailbox = u.mailbox := rfl
@[simp] theorem Blk.setStep_pw (u : Blk) (s : Nat) (c : StepClk) : (u.setStep s c).pw = u.pw := rfl
@[simp] theorem Blk.setStep_idn (u : Blk) (s : Nat) (c : StepClk) : (u.setStep s c).idn = u.idn := rfl
@[simp] theorem Blk.setStep_er (u : Blk) (s : Nat) (c : StepClk) : (u.setStep s c).er = u.er := rfl
@[simp] theorem Blk.setStep_host (u : Blk) (s : Nat) (c : StepClk) : (u.setStep s c).host = u.host := rfl
@[simp] theorem Blk.setStep_poison (u : Blk) (s : Nat) (c : StepClk) : (u.setStep s c).poison = u.poison := rfl
@[simp] theorem Blk.setStep_arrived (u : Blk) (s : Nat) (c : StepClk) : (u.setStep s c).arrived = u.arrived := rfl
@[simp] theorem Blk.setStep_fresh (u : Blk) (s : Nat) (c : StepClk) : (u.setStep s c).fresh = u.fresh := rfl
@[simp] theorem Blk.setStep_out (u : Blk) (s : Nat) (c : StepClk) : (u.setStep s c).out = u.out := rfl

@[simp] theorem Blk.freshen_build (u : Blk) : (u.freshen).build = u.build := rfl
@[simp] theorem Blk.freshen_regs (u : Blk) : (u.freshen).regs = u.regs := rfl
@[simp] theorem Blk.freshen_cyc (u : Blk) : (u.freshen).cyc = u.cyc := rfl
@[simp] theorem Blk.freshen_rcNow (u : Blk) : (u.freshen).rcNow = u.rcNow := rfl
@[simp] theorem Blk.freshen_held (u : Blk) : (u.freshen).held = u.held := rfl
@[simp] theorem Blk.freshen_clk (u : Blk) : (u.freshen).clk = u.clk := rfl
@[simp] theorem Blk.freshen_steps (u : Blk) : (u.freshen).steps = u.steps := rfl
@[simp] theorem Blk.freshen_timed (u : Blk) : (u.freshen).timed = u.timed := rfl
@[simp] theorem Blk.freshen_rcd (u : Blk) : (u.freshen).rcd = u.rcd := rfl
@[simp] theorem Blk.freshen_gather (u : Blk) : (u.freshen).gather = u.gather := rfl
@[simp] theorem Blk.freshen_his (u : Blk) : (u.freshen).his = u.his := rfl
@[simp] theorem Blk.freshen_cones (u : Blk) : (u.freshen).cones = u.cones := rfl
@[simp] theorem Blk.freshen_ports (u : Blk) : (u.freshen).ports = u.ports := rfl
@[simp] theorem Blk.freshen_links (u : Blk) : (u.freshen).links = u.links := rfl
@[simp] theorem Blk.freshen_tree (u : Blk) : (u.freshen).tree = u.tree := rfl
@[simp] theorem Blk.freshen_mailbox (u : Blk) : (u.freshen).mailbox = u.mailbox := rfl
@[simp] theorem Blk.freshen_pw (u : Blk) : (u.freshen).pw = u.pw := rfl
@[simp] theorem Blk.freshen_idn (u : Blk) : (u.freshen).idn = u.idn := rfl
@[simp] theorem Blk.freshen_er (u : Blk) : (u.freshen).er = u.er := rfl
@[simp] theorem Blk.freshen_host (u : Blk) : (u.freshen).host = u.host := rfl
@[simp] theorem Blk.freshen_poison (u : Blk) : (u.freshen).poison = u.poison := rfl
@[simp] theorem Blk.freshen_arrived (u : Blk) : (u.freshen).arrived = u.arrived := rfl
@[simp] theorem Blk.freshen_fresh (u : Blk) : (u.freshen).fresh = u.fresh + 1 := rfl
@[simp] theorem Blk.freshen_out (u : Blk) : (u.freshen).out = u.out := rfl

/-! ### A build changes what it shares with the other kind of build -/

@[simp] theorem Leaf.blk_u (l : Leaf) (f : Blk → Blk) : (l.blk f).u = f l.u := rfl
@[simp] theorem Leaf.blk_ctr (l : Leaf) (f : Blk → Blk) : (l.blk f).ctr = l.ctr := rfl
@[simp] theorem Leaf.blk_sch (l : Leaf) (f : Blk → Blk) : (l.blk f).sch = l.sch := rfl
@[simp] theorem Leaf.blk_trc (l : Leaf) (f : Blk → Blk) : (l.blk f).trc = l.trc := rfl
@[simp] theorem Leaf.blk_kst (l : Leaf) (f : Blk → Blk) : (l.blk f).kst = l.kst := rfl
@[simp] theorem Leaf.blk_dmp (l : Leaf) (f : Blk → Blk) : (l.blk f).dmp = l.dmp := rfl
@[simp] theorem Leaf.blk_sng (l : Leaf) (f : Blk → Blk) : (l.blk f).sng = l.sng := rfl
@[simp] theorem Leaf.blk_fpr (l : Leaf) (f : Blk → Blk) : (l.blk f).fpr = l.fpr := rfl
@[simp] theorem Leaf.blk_ctn (l : Leaf) (f : Blk → Blk) : (l.blk f).ctn = l.ctn := rfl
@[simp] theorem Leaf.blk_hev (l : Leaf) (f : Blk → Blk) : (l.blk f).hev = l.hev := rfl
@[simp] theorem Leaf.blk_cmp (l : Leaf) (f : Blk → Blk) : (l.blk f).cmp = l.cmp := rfl

@[simp] theorem Tray.blk_u (t : Tray) (f : Blk → Blk) : (t.blk f).u = f t.u := rfl
@[simp] theorem Tray.blk_tier (t : Tray) (f : Blk → Blk) : (t.blk f).tier = t.tier := rfl
@[simp] theorem Tray.blk_rings (t : Tray) (f : Blk → Blk) : (t.blk f).rings = t.rings := rfl
@[simp] theorem Tray.blk_asm (t : Tray) (f : Blk → Blk) : (t.blk f).asm = t.asm := rfl
@[simp] theorem Tray.blk_dists (t : Tray) (f : Blk → Blk) : (t.blk f).dists = t.dists := rfl
@[simp] theorem Tray.blk_cores (t : Tray) (f : Blk → Blk) : (t.blk f).cores = t.cores := rfl
@[simp] theorem Tray.blk_transit (t : Tray) (f : Blk → Blk) : (t.blk f).transit = t.transit := rfl
@[simp] theorem Tray.blk_dataWay (t : Tray) (f : Blk → Blk) : (t.blk f).dataWay = t.dataWay := rfl
@[simp] theorem Tray.blk_mcIds (t : Tray) (f : Blk → Blk) : (t.blk f).mcIds = t.mcIds := rfl
@[simp] theorem Tray.blk_mct (t : Tray) (f : Blk → Blk) : (t.blk f).mct = t.mct := rfl
@[simp] theorem Tray.blk_thieves (t : Tray) (f : Blk → Blk) : (t.blk f).thieves = t.thieves := rfl
@[simp] theorem Tray.blk_credSince (t : Tray) (f : Blk → Blk) : (t.blk f).credSince = t.credSince := rfl
@[simp] theorem Tray.blk_credCounted (t : Tray) (f : Blk → Blk) : (t.blk f).credCounted = t.credCounted := rfl
@[simp] theorem Tray.blk_queues (t : Tray) (f : Blk → Blk) : (t.blk f).queues = t.queues := rfl
@[simp] theorem Tray.blk_served (t : Tray) (f : Blk → Blk) : (t.blk f).served = t.served := rfl
@[simp] theorem Tray.blk_flights (t : Tray) (f : Blk → Blk) : (t.blk f).flights = t.flights := rfl
@[simp] theorem Tray.blk_txs (t : Tray) (f : Blk → Blk) : (t.blk f).txs = t.txs := rfl
@[simp] theorem Tray.blk_nodes (t : Tray) (f : Blk → Blk) : (t.blk f).nodes = t.nodes := rfl
@[simp] theorem Tray.blk_copies (t : Tray) (f : Blk → Blk) : (t.blk f).copies = t.copies := rfl
@[simp] theorem Tray.blk_due (t : Tray) (f : Blk → Blk) : (t.blk f).due = t.due := rfl
@[simp] theorem Tray.blk_models (t : Tray) (f : Blk → Blk) : (t.blk f).models = t.models := rfl
@[simp] theorem Tray.blk_binds (t : Tray) (f : Blk → Blk) : (t.blk f).binds = t.binds := rfl
@[simp] theorem Tray.blk_scores (t : Tray) (f : Blk → Blk) : (t.blk f).scores = t.scores := rfl
@[simp] theorem Tray.blk_partials (t : Tray) (f : Blk → Blk) : (t.blk f).partials = t.partials := rfl
@[simp] theorem Tray.blk_scoreIds (t : Tray) (f : Blk → Blk) : (t.blk f).scoreIds = t.scoreIds := rfl
@[simp] theorem Tray.blk_gNoted (t : Tray) (f : Blk → Blk) : (t.blk f).gNoted = t.gNoted := rfl
@[simp] theorem Tray.blk_batches (t : Tray) (f : Blk → Blk) : (t.blk f).batches = t.batches := rfl
@[simp] theorem Tray.blk_spans (t : Tray) (f : Blk → Blk) : (t.blk f).spans = t.spans := rfl
@[simp] theorem Tray.blk_psets (t : Tray) (f : Blk → Blk) : (t.blk f).psets = t.psets := rfl
@[simp] theorem Tray.blk_gens (t : Tray) (f : Blk → Blk) : (t.blk f).gens = t.gens := rfl
@[simp] theorem Tray.blk_staged (t : Tray) (f : Blk → Blk) : (t.blk f).staged = t.staged := rfl
@[simp] theorem Tray.blk_stagedIds (t : Tray) (f : Blk → Blk) : (t.blk f).stagedIds = t.stagedIds := rfl
@[simp] theorem Tray.blk_relay (t : Tray) (f : Blk → Blk) : (t.blk f).relay = t.relay := rfl
@[simp] theorem Tray.blk_relayRem (t : Tray) (f : Blk → Blk) : (t.blk f).relayRem = t.relayRem := rfl
@[simp] theorem Tray.blk_evqs (t : Tray) (f : Blk → Blk) : (t.blk f).evqs = t.evqs := rfl
@[simp] theorem Tray.blk_thr (t : Tray) (f : Blk → Blk) : (t.blk f).thr = t.thr := rfl
@[simp] theorem Tray.blk_hlt (t : Tray) (f : Blk → Blk) : (t.blk f).hlt = t.hlt := rfl
@[simp] theorem Tray.blk_job (t : Tray) (f : Blk → Blk) : (t.blk f).job = t.job := rfl
@[simp] theorem Tray.blk_descs (t : Tray) (f : Blk → Blk) : (t.blk f).descs = t.descs := rfl
@[simp] theorem Tray.blk_bseqs (t : Tray) (f : Blk → Blk) : (t.blk f).bseqs = t.bseqs := rfl
@[simp] theorem Tray.blk_lives (t : Tray) (f : Blk → Blk) : (t.blk f).lives = t.lives := rfl
@[simp] theorem Tray.blk_snaps (t : Tray) (f : Blk → Blk) : (t.blk f).snaps = t.snaps := rfl
@[simp] theorem Tray.blk_dumps (t : Tray) (f : Blk → Blk) : (t.blk f).dumps = t.dumps := rfl
@[simp] theorem Tray.blk_ptpDrop (t : Tray) (f : Blk → Blk) : (t.blk f).ptpDrop = t.ptpDrop := rfl
@[simp] theorem Tray.blk_pciIds (t : Tray) (f : Blk → Blk) : (t.blk f).pciIds = t.pciIds := rfl
@[simp] theorem Tray.blk_tap (t : Tray) (f : Blk → Blk) : (t.blk f).tap = t.tap := rfl

/-! ### The clock -/

@[simp] theorem Clock.adv_zero (c : Clock) : c.adv 0 = c := by simp [Clock.adv]

/-- Cycles add up: time passes in pieces as it passes at once. -/
theorem Clock.adv_adv (c : Clock) (j k : Nat) : (c.adv j).adv k = c.adv (j + k) := by
  simp only [Clock.adv, Clock.mk.injEq, and_true, true_and]
  refine ⟨?_, ?_, ?_⟩
  · rw [Nat.add_mul, BitVec.ofNat_add, BitVec.add_assoc]
  · rw [BitVec.ofNat_add, BitVec.add_assoc]
  · rw [Nat.add_mul, Nat.add_assoc]

/-! ### How a command acts on the state -/

/-- A command of a leaf that no reset holds. -/
theorem onLeaf_free {s : State} (f : Leaf → Leaf) (h : s.leaf.u.held = none) : onLeaf f s = .next { s with leaf := f s.leaf } := by
  simp [onLeaf, h]

/-- A command of a leaf that a reset holds. -/
theorem onLeaf_held {s : State} (f : Leaf → Leaf) (h : s.leaf.u.held ≠ none) : onLeaf f s = .next s := by
  cases hh : s.leaf.u.held with
  | none => exact absurd hh h
  | some k => simp [onLeaf, hh]

theorem onTray_free {s : State} (f : Tray → Tray) (h : s.tray.u.held = none) :
    onTray f s = .next { s with tray := (f s.tray).settle s.tray } := by
  simp [onTray, h]

theorem onTray_held {s : State} (f : Tray → Tray) (h : s.tray.u.held ≠ none) : onTray f s = .next s := by
  cases hh : s.tray.u.held with
  | none => exact absurd hh h
  | some k => simp [onTray, hh]

/-- All a command of the leaf can do: the leaf changes by `f` or, held, not at all; the tray build and the queue stay. -/
theorem onLeaf_cases {f : Leaf → Leaf} {s t : State} (h : onLeaf f s = .next t) :
    (s.leaf.u.held = none ∧ t = { s with leaf := f s.leaf }) ∨ (s.leaf.u.held ≠ none ∧ t = s) := by
  by_cases hh : s.leaf.u.held = none
  · rw [onLeaf_free f hh] at h
    exact .inl ⟨hh, (Host.Outcome.next.inj h).symm⟩
  · rw [onLeaf_held f hh] at h
    exact .inr ⟨hh, (Host.Outcome.next.inj h).symm⟩

/-- All a command of the tray build can do. -/
theorem onTray_cases {f : Tray → Tray} {s t : State} (h : onTray f s = .next t) :
    (s.tray.u.held = none ∧ t = { s with tray := (f s.tray).settle s.tray }) ∨ (s.tray.u.held ≠ none ∧ t = s) := by
  by_cases hh : s.tray.u.held = none
  · rw [onTray_free f hh] at h
    exact .inl ⟨hh, (Host.Outcome.next.inj h).symm⟩
  · rw [onTray_held f hh] at h
    exact .inr ⟨hh, (Host.Outcome.next.inj h).symm⟩

/-- A command of driver software that reaches the registers of a T build that no reset holds. -/
theorem onBar_open {s : State} (f : Tray → Tray) (h : 2 ≤ s.tray.u.pw.step) : onBar f s = onTray f s := if_pos h

/-- A command of driver software that comes before the register port is open changes nothing. -/
theorem onBar_closed {s : State} (f : Tray → Tray) (h : s.tray.u.pw.step < 2) : onBar f s = .next s := if_neg (by omega)

theorem onInput_free {s : State} (g f : Leaf → Leaf) (h : s.leaf.u.held = none) : onInput g f s = .next { s with leaf := f s.leaf } := by
  simp [onInput, h]

theorem onInput_held {s : State} (g f : Leaf → Leaf) (h : s.leaf.u.held ≠ none) : onInput g f s = .next { s with leaf := g s.leaf } := by
  cases hh : s.leaf.u.held with
  | none => exact absurd hh h
  | some k => simp [onInput, hh]

theorem onRing_free {s : State} (f : Leaf → Leaf) (h : s.leaf.u.held ≠ some .cold) : onRing f s = .next { s with leaf := f s.leaf } := by
  simp [onRing, h]

theorem onPowered_leaf {s : State} (f : Leaf → Leaf) (g : Tray → Tray) (h : s.leaf.u.held = none) :
    onPowered .leaf f g s = .next { s with leaf := f s.leaf } := by
  simp [onPowered, h]

theorem onPowered_tray {s : State} (f : Leaf → Leaf) (g : Tray → Tray) (h : s.tray.u.held = none) :
    onPowered .tray f g s = .next { s with tray := (g s.tray).settle s.tray } := by
  simp [onPowered, h]

theorem onSupply_tray {s : State} (f : Leaf → Leaf) (g : Tray → Tray) (h : s.tray.u.held = none) :
    onSupply .tray f g s = .next { s with tray := (g s.tray).settle s.tray } := by
  simp [onSupply, h]

theorem onSupply_held {s : State} (f : Leaf → Leaf) (g : Tray → Tray) (h : s.tray.u.held ≠ none) :
    onSupply .tray f g s = .next { s with tray := g s.tray } := by
  cases hh : s.tray.u.held with
  | none => exact absurd hh h
  | some k => simp [onSupply, hh]

theorem onReset_leaf {s : State} (f : Leaf → Leaf) (g : Tray → Tray) (h : s.leaf.u.held ≠ some .cold) :
    onReset .leaf f g s = .next { s with leaf := f s.leaf } := by
  simp [onReset, h]

theorem onReset_tray {s : State} (f : Leaf → Leaf) (g : Tray → Tray) (h : s.tray.u.held ≠ some .cold) :
    onReset .tray f g s = .next { s with tray := g s.tray } := by
  simp [onReset, h]

@[simp] theorem onHost_leaf (f : Leaf → Leaf) (g : Tray → Tray) (s : State) : onHost .leaf f g s = onLeaf f s := rfl
@[simp] theorem onHost_tray (f : Leaf → Leaf) (g : Tray → Tray) (s : State) : onHost .tray f g s = onBar g s := rfl
@[simp] theorem onSupply_leaf (f : Leaf → Leaf) (g : Tray → Tray) (s : State) : onSupply .leaf f g s = .next { s with leaf := f s.leaf } := rfl
@[simp] theorem onHostBlk_leaf (f : Blk → Blk) (s : State) : onHostBlk .leaf f s = onLeaf (fun l => l.blk f) s := rfl
@[simp] theorem onHostBlk_tray (f : Blk → Blk) (s : State) : onHostBlk .tray f s = onBar (fun t => t.blk f) s := rfl
@[simp] theorem onEither_leaf (f : Leaf → Leaf) (g : Tray → Tray) (s : State) : onEither .leaf f g s = onLeaf f s := rfl
@[simp] theorem onEither_tray (f : Leaf → Leaf) (g : Tray → Tray) (s : State) : onEither .tray f g s = onTray g s := rfl
@[simp] theorem onBlk_leaf (f : Blk → Blk) (s : State) : onBlk .leaf f s = onLeaf (fun l => l.blk f) s := rfl
@[simp] theorem onBlk_tray (f : Blk → Blk) (s : State) : onBlk .tray f s = onTray (fun t => t.blk f) s := rfl

end Sys2Proof.Machine
end

