-- ==== Sys2Proof/Laws/Exec.lean ====
section
/-!
SUPPORT. All a command can do: it takes the leaf and the tray build each by itself, answers a next state, leaves the queue, and leaves a build that a cold
reset holds as it is, but for the levels of its inputs and for its release.
-/

namespace Sys2Proof.Machine

/-! ### What inputs bring to a build that a cold reset holds -/

theorem Leaf.SameButInputs.refl (l : Leaf) : l.SameButInputs l := ⟨rfl, fun _ => rfl, fun _ => rfl, fun _ => rfl⟩

theorem Tray.SameButInputs.refl (t : Tray) : t.SameButInputs t := ⟨rfl, .inl rfl⟩

theorem supply_same {l : Leaf} (h : l.u.held = some .cold) (code : Nat) (took : Bool) : l.SameButInputs (l.supply code took) := by
  simp only [Leaf.supply, if_pos h]
  exact ⟨rfl, fun _ => rfl, fun _ => rfl, fun _ => rfl⟩

theorem lpLevel_same (l : Leaf) (s : Nat) (b : Bool) : l.SameButInputs (l.lpLevel s b) := by
  refine ⟨rfl, fun k => ?_, fun _ => rfl, fun _ => rfl⟩
  by_cases h : k = s
  · subst h
    simp [Leaf.lpLevel, Leaf.modSrc, Leaf.setSrc, Leaf.src, smGet_set_same]
  · simp [Leaf.lpLevel, Leaf.modSrc, Leaf.setSrc, Leaf.src, smGet_set_ne _ _ _ _ h]

theorem idleLevel_same (l : Leaf) (e : Nat) (b : Bool) : l.SameButInputs (l.idleLevel e b) := by
  refine ⟨rfl, fun _ => rfl, fun k => ?_, fun _ => rfl⟩
  by_cases h : k = e
  · subst h
    simp [Leaf.idleLevel, Leaf.setEngine, Leaf.engine, smGet_set_same]
  · simp [Leaf.idleLevel, Leaf.setEngine, Leaf.engine, smGet_set_ne _ _ _ _ h]

theorem domLevels_same (l : Leaf) (d : Nat) (a b : Bool) (x : BitVec 256) : l.SameButInputs (l.domLevels d a b x) := by
  refine ⟨rfl, fun _ => rfl, fun _ => rfl, fun k => ?_⟩
  by_cases h : k = d
  · subst h
    simp [Leaf.domLevels, Leaf.seeEdges, Leaf.setDom, Leaf.dom, smGet_set_same]
  · simp [Leaf.domLevels, Leaf.seeEdges, Leaf.setDom, Leaf.dom, smGet_set_ne _ _ _ _ h]

theorem ctnLevel_same (l : Leaf) (k : Nat) (b : Bool) : l.SameButInputs (l.ctnLevel k b) := by
  refine ⟨?_, fun _ => rfl, fun _ => rfl, fun _ => rfl⟩
  simp only [Leaf.ctnLevel, Ctn.setShake, Ctn.shake]
  split <;> [rfl; (split <;> rfl)]

theorem traySupply_same {t : Tray} (h : t.u.held = some .cold) (code rail : Nat) (took : Bool) : t.SameButInputs (t.supply code rail took) := by
  simp only [Tray.supply, if_pos h]
  exact ⟨rfl, .inl rfl⟩

theorem junction_same {t : Tray} (h : t.u.held = some .cold) (tj sensor : Nat) : t.SameButInputs (t.junction tj sensor) := by
  simp only [Tray.junction, if_pos h, Tray.blk]
  split
  · exact ⟨rfl, .inr rfl⟩
  · exact ⟨rfl, .inl rfl⟩

theorem readWord_tier (t : Tray) (space word : Nat) : (t.readWord space word).tier = { t.tier with bad := (t.readWord space word).tier.bad } := by
  simp only [Tray.readWord]
  repeat' split
  all_goals rfl

theorem scrub_same {t : Tray} (h : t.u.held = some .cold) (space word found : Nat) : t.SameButInputs (t.scrub space word found) := by
  simp only [Tray.scrub, if_pos h]
  refine ⟨?_, .inl rfl⟩
  rw [readWord_tier]
  split <;> rfl

/-! ### The ways in which a command acts -/

/-- What holds of the effects `F` and `G` of a command on the two builds; `r` and `q` tell whether it is a release of the leaf and of the tray build. -/
def Acts (x : State → Host.Outcome State Fault Refusal) (r q : Prop) : Prop :=
  ∃ (F : Leaf → Leaf) (G : Tray → Tray), (∀ s, x s = .next { s with leaf := F s.leaf, tray := G s.tray }) ∧
    (¬r → ∀ l : Leaf, l.u.held = some .cold → l.SameButInputs (F l)) ∧ (¬q → ∀ t : Tray, t.u.held = some .cold → t.SameButInputs (G t))

theorem idle_leaf (r : Prop) : ¬r → ∀ l : Leaf, l.u.held = some .cold → l.SameButInputs (id l) := fun _ l _ => .refl l
theorem idle_tray (q : Prop) : ¬q → ∀ t : Tray, t.u.held = some .cold → t.SameButInputs (id t) := fun _ t _ => .refl t

theorem onLeaf_acts (f : Leaf → Leaf) (r q : Prop) : Acts (onLeaf f) r q :=
  ⟨fun l => if l.u.held.isSome then l else f l, id, fun s => by simp only [onLeaf]; split <;> rfl,
    fun _ l h => by simpa [h] using Leaf.SameButInputs.refl l, idle_tray q⟩

theorem onInput_acts (g f : Leaf → Leaf) (h : ∀ l : Leaf, l.SameButInputs (g l)) (r q : Prop) : Acts (onInput g f) r q :=
  ⟨fun l => if l.u.held.isSome then g l else f l, id, fun s => by simp only [onInput]; split <;> rfl,
    fun _ l hl => by simpa [hl] using h l, idle_tray q⟩

theorem onRing_acts (f : Leaf → Leaf) (r q : Prop) : Acts (onRing f) r q :=
  ⟨fun l => if l.u.held = some .cold then l else f l, id, fun s => by simp only [onRing]; split <;> rfl,
    fun _ l h => by simpa [h] using Leaf.SameButInputs.refl l, idle_tray q⟩

theorem onTray_acts (f : Tray → Tray) (r q : Prop) : Acts (onTray f) r q :=
  ⟨id, fun t => if t.u.held.isSome then t else (f t).settle t, fun s => by simp only [onTray]; split <;> rfl, idle_leaf r,
    fun _ t h => by simpa [h] using Tray.SameButInputs.refl t⟩

theorem onEither_acts (b : Build) (f : Leaf → Leaf) (g : Tray → Tray) (r q : Prop) : Acts (onEither b f g) r q := by
  cases b
  · exact onLeaf_acts f r q
  · exact onTray_acts g r q

theorem onBar_acts (f : Tray → Tray) (r q : Prop) : Acts (onBar f) r q := by
  refine ⟨id, fun t => if 2 ≤ t.u.pw.step then (if t.u.held.isSome then t else (f t).settle t) else t, fun s => ?_, idle_leaf r, fun _ t h => ?_⟩
  · simp only [onBar]
    split <;> [(simp only [onTray]; split <;> rfl); rfl]
  · simpa [h] using Tray.SameButInputs.refl t

theorem onHost_acts (b : Build) (f : Leaf → Leaf) (g : Tray → Tray) (r q : Prop) : Acts (onHost b f g) r q := by
  cases b
  · exact onLeaf_acts f r q
  · exact onBar_acts g r q

theorem onReset_acts (b : Build) (f : Leaf → Leaf) (g : Tray → Tray) (r q : Prop) : Acts (onReset b f g) r q := by
  cases b
  · exact ⟨fun l => if l.u.held = some .cold then l else f l, id, fun s => by simp only [onReset]; split <;> rfl,
      fun _ l h => by simpa [h] using Leaf.SameButInputs.refl l, idle_tray q⟩
  · exact ⟨id, fun t => if t.u.held = some .cold then t else g t, fun s => by simp only [onReset]; split <;> rfl, idle_leaf r,
      fun _ t h => by simpa [h] using Tray.SameButInputs.refl t⟩

theorem onPowered_acts (b : Build) (f : Leaf → Leaf) (g : Tray → Tray) (r q : Prop) : Acts (onPowered b f g) r q := by
  cases b
  · exact ⟨fun l => if l.u.held = some .cold then l else f l, id, fun s => by simp only [onPowered]; split <;> rfl,
      fun _ l h => by simpa [h] using Leaf.SameButInputs.refl l, idle_tray q⟩
  · exact ⟨id, fun t => if t.u.held = some .cold then t else if t.u.held.isSome then g t else (g t).settle t,
      fun s => by simp only [onPowered]; split <;> [rfl; (split <;> rfl)], idle_leaf r,
      fun _ t h => by simpa [h] using Tray.SameButInputs.refl t⟩

theorem onSupply_acts (b : Build) (f : Leaf → Leaf) (g : Tray → Tray) (hf : ∀ l : Leaf, l.u.held = some .cold → l.SameButInputs (f l))
    (hg : ∀ t : Tray, t.u.held = some .cold → t.SameButInputs (g t)) (r q : Prop) : Acts (onSupply b f g) r q := by
  cases b
  · exact ⟨f, id, fun s => rfl, fun _ => hf, idle_tray q⟩
  · exact ⟨id, fun t => if t.u.held.isSome then g t else (g t).settle t, fun s => by simp only [onSupply]; split <;> rfl, idle_leaf r,
      fun _ t h => by simpa [h] using hg t h⟩

/-- A release acts on its build alone. -/
theorem onRelease_acts (b : Build) (f : Leaf → Leaf) (g : Tray → Tray) : Acts (onRelease b f g) (b = .leaf) (b = .tray) := by
  cases b
  · exact ⟨f, id, fun s => rfl, fun h => absurd rfl h, idle_tray _⟩
  · exact ⟨id, g, fun s => rfl, idle_leaf _, fun h => absurd rfl h⟩

/-- All a command can do. -/
theorem exec_acts (c : Instr) : Acts (exec c) (∃ h v, c = .resetRelease .leaf h v) (∃ h v, c = .resetRelease .tray h v) := by
  cases c with
  | registerWrite b a n data priv env => exact onHost_acts b (fun l => l.write (fld a 2 16 * 4) (data.setWidth 32) priv env) (fun t => t.write a.toNat n.toNat data env) _ _
  | rcRead b a n env => exact onHost_acts b (fun l => l.readOut (fld a 2 16 * 4) env.priv env.same) (fun t => t.readOut a.toNat n.toNat env.same) _ _
  | incFracWrite b w => exact onHost_acts b (fun l => l.blk (fun u => u.incFrac w)) (fun t => t.blk (fun u => u.incFrac w)) _ _
  | incNsWrite b ns => exact onHost_acts b (fun l => l.blk (fun u => u.incNs ns)) (fun t => t.blk (fun u => u.incNs ns)) _ _
  | offsetStep b => exact onHost_acts b (fun l => l.blk (fun u => u.offsetStep)) (fun t => t.offsetStep) _ _
  | load b => exact onHost_acts b (fun l => l.blk (fun u => u.loadTb0)) (fun t => t.loadTb0) _ _
  | holdover b => exact onEither_acts b (fun l => l.blk (fun u => u.holdover)) (fun t => t.blk (fun u => u.holdover)) _ _
  | tb0NslRead b tb1 => exact onHost_acts b (fun l => l.blk (fun u => u.timeRead tb1)) (fun t => t.blk (fun u => u.timeRead tb1)) _ _
  | timedAction b act => exact onEither_acts b (fun l => l.blk (fun u => u.timedAction act)) (fun t => t.blk (fun u => u.timedAction act)) _ _
  | stepMark slots viaPort => exact onLeaf_acts (fun l => l.stepMarks slots viaPort) _ _
  | longStep b slot => exact onEither_acts b (fun l => l.longStep (slot % 2)) (fun t => t.longStep slot) _ _
  | pseedWrite slot hi => exact onLeaf_acts (fun l => l.pseedHigh slot hi) _ _
  | idxSetWrite slot w => exact onLeaf_acts (fun l => l.idxSet slot w) _ _
  | stepSlotEnable slot w => exact onLeaf_acts (fun l => l.stepCtl slot (setBit w 31 true)) _ _
  | angRead b slot => exact onHost_acts b (fun l => l.angOut (slot % 2)) (fun t => t.angOut slot) _ _
  | scheduleEntryFire slot => exact onLeaf_acts (fun l => l.scheduleFire slot) _ _
  | astbSwap => exact onLeaf_acts (fun l => l.astbSwap) _ _
  | ppsIn => exact onTray_acts (fun t => t.blk Blk.ppsIn) _ _
  | ppsOutRise => exact onTray_acts (fun t => t.blk Blk.ppsRise) _ _
  | ppsOutFall => exact onTray_acts (fun t => t.blk Blk.ppsFall) _ _
  | stepMarkNotice link n => exact onTray_acts (fun t => t.notice link.toNat n) _ _
  | stepSourceSwitched slot => exact onTray_acts (fun t => t.sourceSwitched slot) _ _
  | timeFrameReceive b port dst src ptp => exact onEither_acts b (fun l => l.blk (fun u => u.timeMessage 0xF u.rxStamp ptp)) (fun t => t.timeFrame port dst src ptp) _ _
  | ptpForward port dst src ptp => exact onTray_acts (fun t => t.timeFrame port dst src ptp) _ _
  | ringSlotArrival slot => exact onRing_acts (fun l => l.slotArrival slot) _ _
  | stopIncrement base src inc gauge => exact onRing_acts (fun l => l.stopIncrement base.toNat src inc.toNat gauge) _ _
  | stopBypass base byp => exact onRing_acts (fun l => l.stopBypass base.toNat byp) _ _
  | heldSlotRead lost => exact onRing_acts (fun l => l.heldRead lost) _ _
  | ringCalibrate => exact onLeaf_acts (fun l => (l.pageWritten 0x03).calibrate) _ _
  | latencyMarkerReturn => exact onLeaf_acts (fun l => l.markerReturn) _ _
  | ringFault => exact onLeaf_acts (fun l => l.ringFault) _ _
  | unprivilegedCounterAccess => exact onLeaf_acts (fun l => l.unprivileged) _ _
  | counterCapture auto n => exact onLeaf_acts (fun l => (l.pageWritten 0x04).capture auto n.toNat) _ _
  | captureComplete => exact onLeaf_acts (fun l => l.captureComplete) _ _
  | counterClear auto n => exact onLeaf_acts (fun l => (l.pageWritten 0x04).clearReq auto n.toNat) _ _
  | clrall => exact onLeaf_acts (fun l => (l.pageWritten 0x04).clrAll) _ _
  | capHAutoRead => exact onLeaf_acts (fun l => l.capHRead) _ _
  | windowEdge unit => exact onLeaf_acts (fun l => l.windowEdge unit) _ _
  | selSwap slot => exact onLeaf_acts (fun l => l.selSwap slot) _ _
  | sampleReadComplete => exact onLeaf_acts (fun l => l.sampleComplete) _ _
  | creditMessage slot level grant => exact onLeaf_acts (fun l => l.credit slot level.toNat grant.toNat) _ _
  | creditReturn ring => exact onTray_acts (fun t => t.creditReturn ring) _ _
  | traceItem src item val => exact onLeaf_acts (fun l => l.traceItem src (item.item val)) _ _
  | traceLossExit src => exact onLeaf_acts (fun l => l.lossExit src) _ _
  | traceEnable => exact onLeaf_acts (fun l => (l.pageWritten 0x06).trcEnable) _ _
  | traceSourceEnable src w => exact onLeaf_acts (fun l => (l.pageWritten 0x06).srcCfgWrite src w) _ _
  | traceBlockAck => exact onLeaf_acts (fun l => l.trcBlock.dumpDmaCheck) _ _
  | traceFlush => exact onLeaf_acts (fun l => (l.pageWritten 0x06).trcFlush) _ _
  | traceFlushDone => exact onLeaf_acts (fun l => l.trcFlushDone.dumpDmaCheck) _ _
  | traceDmaError => exact onLeaf_acts (fun l => l.trcDmaError.dumpDmaCheck) _ _
  | traceLpEntry src => exact onInput_acts (fun l => l.lpLevel src true) (fun l => l.lpEntry src) (fun l => lpLevel_same l _ _) _ _
  | traceLpExit src => exact onInput_acts (fun l => l.lpLevel src false) (fun l => l.lpExit src) (fun l => lpLevel_same l _ _) _ _
  | eventReport b page code sev flash slot payload => exact onEither_acts b (fun l => l.blk (fun u => u.report (rk page.toNat code.toNat sev.toNat flash) (match slot with | some n => .slot n | none => .dflt) payload)) (fun t => t.blk (fun u => u.report (rk page.toNat code.toNat sev.toNat flash) (match slot with | some n => .slot n | none => .dflt) payload)) _ _
  | recordWindowEnd b => exact onEither_acts b (fun l => l.blk (fun u => u.windowEnd)) (fun t => t.blk (fun u => u.windowEnd)) _ _
  | flashProgramDone b fail => exact onEither_acts b (fun l => l.blk (fun u => (u.flashProgramDone fail).parkSettle)) (fun t => t.blk (fun u => (u.flashProgramDone fail).parkSettle)) _ _
  | flashEraseDone b fail => exact onEither_acts b (fun l => l.blk (fun u => (u.flashEraseDone fail).parkSettle)) (fun t => t.blk (fun u => (u.flashEraseDone fail).parkSettle)) _ _
  | historyEnable b susp => exact onHost_acts b (fun l => l.blk (fun u => ((u.pageWritten 0x09 0).hisEnable susp).flashStart)) (fun t => t.blk (fun u => ((u.pageWritten 0x09 0).hisEnable susp).flashStart)) _ _
  | historyScanDone b => exact onEither_acts b (fun l => l.blk (fun u => u.hisScanDone)) (fun t => t.blk (fun u => u.hisScanDone)) _ _
  | historyFormat b => exact onHost_acts b (fun l => l.blk (fun u => (u.pageWritten 0x09 0).hisFormat)) (fun t => t.blk (fun u => (u.pageWritten 0x09 0).hisFormat)) _ _
  | operatingMinute b => exact onPowered_acts b (fun l => l.blk (fun u => u.operatingMinute)) (fun t => t.blk (fun u => u.operatingMinute)) _ _
  | historyRead b w => exact onHost_acts b (fun l => l.blk (fun u => (u.pageWritten 0x09 0).hisRead w)) (fun t => t.blk (fun u => (u.pageWritten 0x09 0).hisRead w)) _ _
  | historyReadDone b => exact onEither_acts b (fun l => l.blk (fun u => u.hisReadDone)) (fun t => t.blk (fun u => u.hisReadDone)) _ _
  | operatingSecond b codes => exact onPowered_acts b (fun l => l.blk (fun u => u.operatingSecond codes)) (fun t => t.blk (fun u => u.operatingSecond codes)) _ _
  | coneEnable b cone w => exact onHost_acts b (fun l => l.blk (fun u => u.coneCfg cone.toNat (setBit w 31 true))) (fun t => t.blk (fun u => u.coneCfg cone.toNat (setBit w 31 true))) _ _
  | conePoll b cone => exact onEither_acts b (fun l => l.blk (fun u => u.conePoll cone.toNat)) (fun t => t.blk (fun u => u.conePoll cone.toNat)) _ _
  | identityReadDone b cone ident => exact onEither_acts b (fun l => l.blk (fun u => u.identityDone cone.toNat ident)) (fun t => t.blk (fun u => u.identityDone cone.toNat ident)) _ _
  | coneRestart b => exact onHost_acts b (fun l => l.blk (fun u => u.coneRestart)) (fun t => t.blk (fun u => u.coneRestart)) _ _
  | coneCheckpoint b cone => exact onEither_acts b (fun l => l.blk (fun u => u.checkpointDue cone.toNat)) (fun t => t.blk (fun u => u.checkpointDue cone.toNat)) _ _
  | heartbeat engine beat idle => exact onInput_acts (fun l => l.idleLevel engine idle) (fun l => l.heartbeat engine beat idle) (fun l => idleLevel_same l _ _) _ _
  | engineExpiry engine => exact onLeaf_acts (fun l => l.engineExpiry engine) _ _
  | contextEvent engine start id queue => exact onLeaf_acts (fun l => l.context engine start id queue) _ _
  | resetDelayExpiry engine => exact onLeaf_acts (fun l => l.resetDelay engine) _ _
  | resetDone dom answer edges => exact onInput_acts (fun l => l.domLevels dom answer.ack answer.done edges) (fun l => l.resetDone dom answer.ack answer.done edges) (fun l => domLevels_same l _ _ _ _) _ _
  | resetEscalated dom => exact onLeaf_acts (fun l => l.escalate dom) _ _
  | hungClear engine => exact onLeaf_acts (fun l => (l.pageWritten 0x0B).hungClear engine) _ _
  | softwareResetRequest dom => exact onLeaf_acts (fun l => (l.pageWritten 0x0B).softReset dom) _ _
  | suspectClear engine => exact onLeaf_acts (fun l => (l.pageWritten 0x0B).suspectClear engine) _ _
  | replayBegin w => exact onLeaf_acts (fun l => (l.pageWritten 0x0B).replayWrite (setBit w 31 true)) _ _
  | replayEnd w => exact onLeaf_acts (fun l => (l.pageWritten 0x0B).replayWrite (setBit w 31 false)) _ _
  | dumpGo => exact onLeaf_acts (fun l => (l.pageWritten 0x0C).dumpGo) _ _
  | dumpAbort => exact onLeaf_acts (fun l => (l.pageWritten 0x0C).dumpAbort) _ _
  | dumpRelease => exact onLeaf_acts (fun l => (l.pageWritten 0x0C).dumpRelease) _ _
  | dumpAccessDone v err => exact onLeaf_acts (fun l => l.dumpAccess v err) _ _
  | dumpAccessTimeout => exact onLeaf_acts (fun l => l.dumpAccessTimeout) _ _
  | walkTimeout => exact onLeaf_acts (fun l => l.walkTimeout) _ _
  | dumpWriteStall err => exact onLeaf_acts (fun l => l.dumpStall err) _ _
  | dumpTrailerAck => exact onLeaf_acts (fun l => l.dumpTrailerAck) _ _
  | dumpSegmentReceive link leaf body => exact onTray_acts (fun t => t.dumpSegment link.toNat leaf body) _ _
  | dumpRefusal id => exact onLeaf_acts (fun l => l.dumpRefused id) _ _
  | snapshotArm slot => exact onLeaf_acts (fun l => (if slot.isNone then l.pageWritten 0x0D else l).arm (slot.map Fin.val)) _ _
  | snapshotAbort => exact onLeaf_acts (fun l => (l.pageWritten 0x0D).snapAbort) _ _
  | guardDisable => exact onLeaf_acts (fun l => (l.pageWritten 0x0D).guardDisable) _ _
  | guardCheck a len => exact onLeaf_acts (fun l => l.guardCheck a.toNat len.toNat) _ _
  | waitingCheckAnswer => exact onLeaf_acts (fun l => l.waitingAnswer) _ _
  | copyDone region => exact onLeaf_acts (fun l => l.copyDone region.toNat) _ _
  | guardTimeout => exact onLeaf_acts (fun l => l.guardTimeout) _ _
  | chunkSubmission lane snap chunk len data => exact onLeaf_acts (fun l => l.chunkSubmit lane snap.toNat chunk.toNat len.toNat data) _ _
  | chunkHashed lane => exact onLeaf_acts (fun l => l.chunkHashed lane) _ _
  | fingerprintFrameTimer => exact onLeaf_acts (fun l => l.fprTimer) _ _
  | electionNotice snap first codes => exact onLeaf_acts (fun l => l.election snap.toNat first.toNat codes) _ _
  | decisionQuery chunk => exact onLeaf_acts (fun l => l.decisionQuery chunk.toNat) _ _
  | receivePacket b p => exact onEither_acts b (fun l => l.receive p) (fun t => t.receive p) _ _
  | controlReceive b link p => exact onEither_acts b (fun l => l.controlReceive p.lseq p.restart p.body p.verdict) (fun t => t.controlReceive link.toNat p) _ _
  | linkAcknowledgement b link lseq => exact onEither_acts b (fun l => l.blk (fun u => u.linkAck 0 lseq)) (fun t => t.linkAck link.toNat lseq) _ _
  | ackTimeout b link => exact onEither_acts b (fun l => l.ackTimeout) (fun t => t.ackTimeout link.toNat) _ _
  | restartResend b link => exact onEither_acts b (fun l => l.blk (fun u => u.restartResend 0)) (fun t => t.blk (fun u => u.restartResend link.toNat)) _ _
  | packetSent b port => exact onEither_acts b (fun l => l.packetSent) (fun t => t.packetSent port) _ _
  | mailboxSend b w => exact onHost_acts b (fun l => l.blk (fun u => (u.pageWritten 0x10 0).mailboxSend w)) (fun t => t.blk (fun u => (u.pageWritten 0x10 0).mailboxSend w)) _ _
  | gateSwap b port => exact onHost_acts b (fun l => l.blk (fun u => u.gateSwap 0)) (fun t => t.blk (fun u => u.gateSwap port)) _ _
  | gateEntryChange b port => exact onEither_acts b (fun l => l.blk (fun u => u.gateEntryChange 0)) (fun t => t.blk (fun u => u.gateEntryChange port)) _ _
  | launchTime b port => exact onEither_acts b (fun l => l.blk (fun u => u.launchTime 0)) (fun t => t.blk (fun u => u.launchTime port)) _ _
  | queueSample b port => exact onEither_acts b (fun l => l.hevHand.blk (fun u => u.queueSample 0)) (fun t => t.blk (fun u => u.queueSample port)) _ _
  | tsqE3Read b => exact onHost_acts b (fun l => l.blk (fun u => u.tsqE3Read)) (fun t => t.blk (fun u => u.tsqE3Read)) _ _
  | segmentReceive leaf body => exact onTray_acts (fun t => t.segment leaf body) _ _
  | reassemblyTimeout k => exact onTray_acts (fun t => t.asmTimeout k.toNat) _ _
  | ethernetLinkDown port => exact onTray_acts (fun t => t.etherDown port) _ _
  | ethernetLinkUp port ty => exact onTray_acts (fun t => t.etherUp port ty) _ _
  | distributeFrame dist => exact onTray_acts (fun t => t.distribute dist) _ _
  | projectionArrival way => exact onTray_acts (fun t => t.arrive way.core way.data) _ _
  | workUnitEnd core idx => exact onTray_acts (fun t => t.unitEnd core idx.toNat) _ _
  | forcedRefresh core => exact onTray_acts (fun t => t) _ _
  | patrolScrub space word found => exact onSupply_acts .tray id (fun t => t.scrub space.toNat word.toNat found) (fun l _ => .refl l) (fun _ h => scrub_same h _ _ _) _ _
  | currentInterval mean => exact onTray_acts (fun t => t.currentInterval mean.toNat) _ _
  | ingestRingEnable ring w => exact onBar_acts (fun t => t.ringCfg ring (setBit w 31 true)) _ _
  | apertureStageWrite q off data => exact onBar_acts (fun t => t.posted (fun v => v.aperture q off.toNat (data.take (0x3F - off.toNat)))) _ _
  | commandAppend q off data => exact onBar_acts (fun t => t.posted (fun v => v.aperture q off.toNat (bytesAt data 0 (0x40 - off.toNat)))) _ _
  | commandDispatch cls => exact onTray_acts (fun t => t.dispatch cls) _ _
  | nop q => exact onTray_acts (fun t => t.runTable q 0) _ _
  | waitq q => exact onTray_acts (fun t => t.waitq q) _ _
  | waitat q => exact onTray_acts (fun t => t.waitat q) _ _
  | waitSatisfied q => exact onTray_acts (fun t => t.waitMet q) _ _
  | waitqTimeout q => exact onTray_acts (fun t => t.waitqTimeout q) _ _
  | txclose q => exact onTray_acts (fun t => t.txclose q) _ _
  | txabort q => exact onTray_acts (fun t => t.txabort q) _ _
  | mark q => exact onTray_acts (fun t => t.runTable q 5) _ _
  | mload q => exact onTray_acts (fun t => t.runTable q 0x10) _ _
  | munload q => exact onTray_acts (fun t => t.runTable q 0x11) _ _
  | mbind q => exact onTray_acts (fun t => t.runTable q 0x12) _ _
  | munbind q => exact onTray_acts (fun t => t.runTable q 0x13) _ _
  | pdefine q => exact onTray_acts (fun t => t.runTable q 0x20) _ _
  | pfree q => exact onTray_acts (fun t => t.runTable q 0x21) _ _
  | pfreeRelease pset => exact onTray_acts (fun t => t.freeCheck pset.toNat) _ _
  | cutclose q => exact onTray_acts (fun t => t.runTable q 0x22) _ _
  | copy q => exact onTray_acts (fun t => t.copyGo q) _ _
  | zcomp q => exact onTray_acts (fun t => t.zipGo q 0x40) _ _
  | zdecomp q => exact onTray_acts (fun t => t.zipGo q 0x41) _ _
  | msend q => exact onTray_acts (fun t => t.msend q) _ _
  | start q => exact onTray_acts (fun t => t.startGo q) _ _
  | contain q => exact onTray_acts (fun t => t.contain q) _ _
  | sattach q => exact onTray_acts (fun t => t.runTable q 0x60) _ _
  | sdetach q => exact onTray_acts (fun t => t.runTable q 0x61) _ _
  | sepoch q => exact onTray_acts (fun t => t.runTable q 0x62) _ _
  | queueResume q => exact onBar_acts (fun t => t.queueResume q) _ _
  | queueFlush q => exact onBar_acts (fun t => t.queueFlush q) _ _
  | thiefIdle core => exact onTray_acts (fun t => t.thiefIdle core) _ _
  | stealRequest core => exact onTray_acts (fun t => t.stealRequest core) _ _
  | stealRefused core => exact onTray_acts (fun t => t.stealRefused core) _ _
  | stealBackoffExpiry core => exact onTray_acts (fun t => t.backoffExpiry core) _ _
  | stealTransferDone core => exact onTray_acts (fun t => t.transferDone core) _ _
  | classUnitReset cls pass => exact onBar_acts (fun t => t.classReset cls pass) _ _
  | commitPoint idx => exact onTray_acts (fun t => t.commitPoint idx.toNat) _ _
  | txPrepare link m => exact onTray_acts (fun t => t.txPrepare link.toNat m) _ _
  | voteTime job txid => exact onTray_acts (fun t => t.voteTime job txid) _ _
  | txVote link m => exact onTray_acts (fun t => t.txVote link.toNat m) _ _
  | txDecision job txid => exact onTray_acts (fun t => t.txDecision job txid) _ _
  | txDecisionCopy link m => exact onTray_acts (fun t => t.txCopy link.toNat m) _ _
  | txDecisionCopyAck job txid => exact onTray_acts (fun t => t.txCopyAck job txid) _ _
  | txCommit link m => exact onTray_acts (fun t => t.txCommit link.toNat m) _ _
  | txAbort m => exact onTray_acts (fun t => t.txAbort m) _ _
  | txCommitAck link m => exact onTray_acts (fun t => t.txCommitAck link.toNat m) _ _
  | transactionInDoubt job txid => exact onTray_acts (fun t => t.txDoubt job txid) _ _
  | txOutcomeQuery link m => exact onTray_acts (fun t => t.txQuery link.toNat m) _ _
  | cutAngleDeadline pset => exact onTray_acts (fun t => t.angleDeadline pset.toNat) _ _
  | cutTimeDeadline pset => exact onTray_acts (fun t => t.timeDeadline pset.toNat) _ _
  | harvestPublish pset => exact onTray_acts (fun t => t.harvestPublish pset.toNat) _ _
  | harvestRingWrite ring => exact onTray_acts (fun t => t.ringWrite ring) _ _
  | harvestRelay => exact onTray_acts (fun t => t.relayNext) _ _
  | harvestSegmentReceive child body => exact onTray_acts (fun t => t.harvestSegment child body) _ _
  | partialReceive handle gath => exact onTray_acts (fun t => t.partialReceive handle gath) _ _
  | scoreSend handle gath => exact onTray_acts (fun t => t.scoreSend handle gath) _ _
  | scoreExpired handle gath => exact onTray_acts (fun t => t.scoreExpired handle gath) _ _
  | batchReady handle group => exact onTray_acts (fun t => t.batchReady handle group.toNat) _ _
  | shortBatch handle group => exact onTray_acts (fun t => t.shortBatch handle group.toNat) _ _
  | streamLoadDone handle group waited => exact onTray_acts (fun t => t.streamLoaded handle group.toNat waited.toNat) _ _
  | streamBatchDone handle group => exact onTray_acts (fun t => t.streamDone handle group.toNat) _ _
  | healthEnable slot w => exact onBar_acts (fun t => t.scfgWrite slot (setBit w 31 true)) _ _
  | referenceMessage body => exact onTray_acts (fun t => t.refReceive body) _ _
  | containmentRequest m => exact onLeaf_acts (fun l => l.ctnRequest m) _ _
  | containmentHostAck kind level => exact onInput_acts (fun l => l.ctnLevel (kind + 1) level) (fun l => l.ctnHostAck (kind + 1) level) (fun l => ctnLevel_same l _ _) _ _
  | containmentAckTimeout => exact onLeaf_acts (fun l => l.ctnTimeout) _ _
  | containmentAcknowledgement m => exact onTray_acts (fun t => t.containAck m) _ _
  | containmentUnacknowledged q => exact onTray_acts (fun t => t.containUnacked q) _ _
  | stateQuery m => exact onLeaf_acts (fun l => l.ctnQuery m) _ _
  | stateQueryAnswer m => exact onTray_acts (fun t => t.queryAnswer m) _ _
  | grantRequest m => exact onTray_acts (fun t => t.grantRequest m) _ _
  | grant m => exact onTray_acts (fun t => t.grant m) _ _
  | deny m => exact onTray_acts (fun t => t.deny m) _ _
  | grantTimeout slot member => exact onTray_acts (fun t => t.grantTimeout slot member.toNat) _ _
  | grantReturned m => exact onTray_acts (fun t => t.grantReturned m) _ _
  | sparesWrite slot w => exact onBar_acts (fun t => t.sparesWrite slot w) _ _
  | budgetOpen m => exact onTray_acts (fun t => t.budgetOpen m) _ _
  | eventRecordWriteAck => exact onLeaf_acts (fun l => l.hevAck) _ _
  | eventRecordStage => exact onTray_acts (fun t => t.stageEvent) _ _
  | ciWrite b evq w => exact onHost_acts b (fun l => (l.pageWritten 0x16).hevCi w) (fun t => t.evCiWrite evq w) _ _
  | coalescingTimer b evq => exact onEither_acts b (fun l => l.hevTimer) (fun t => t.evTimer evq) _ _
  | eventDmaError => exact onLeaf_acts (fun l => l.hevError) _ _
  | eventQueueEnable b evq w => exact onHost_acts b (fun l => (l.pageWritten 0x16).hevEnable) (fun t => t.evCfg evq (setBit w 31 true)) _ _
  | compressionGo => exact onLeaf_acts (fun l => (l.pageWritten 0x0F).cmpGo) _ _
  | compressionAbort produced => exact onLeaf_acts (fun l => (l.pageWritten 0x0F).cmpAbort produced.toNat) _ _
  | compressionJobDone dmaErr => exact onLeaf_acts (fun l => l.cmpDone dmaErr) _ _
  | startPart link m => exact onTray_acts (fun t => t.startPart link.toNat m) _ _
  | hopAcknowledgement link m => exact onTray_acts (fun t => t.hopAcked link.toNat m) _ _
  | hopTimeout job bseq link => exact onTray_acts (fun t => t.hopTimeout job bseq link.toNat) _ _
  | leafAttach m => exact onLeaf_acts (fun l => l.leafAttach m) _ _
  | leafAcknowledgement m => exact onTray_acts (fun t => t.leafAcked m) _ _
  | leafNotAttached job bseq leaf => exact onTray_acts (fun t => t.leafTimeout job bseq leaf) _ _
  | teardownPart link m => exact onTray_acts (fun t => t.teardownPart link.toNat m) _ _
  | teardownResend job bseq link => exact onTray_acts (fun t => t.teardownResend job bseq link.toNat) _ _
  | leafDetach slot => exact onLeaf_acts (fun l => l.leafDetach slot) _ _
  | releaseDeadline job => exact onTray_acts (fun t => t.releaseDeadline job) _ _
  | censusReport body => exact onTray_acts (fun t => t.censusReport body) _ _
  | holderStateReport body => exact onTray_acts (fun t => t.holderReport none body) _ _
  | writtenReport body => exact onTray_acts (fun t => t.writtenReport body) _ _
  | censusDeadline slot => exact onTray_acts (fun t => t.censusDeadline slot) _ _
  | copiedReport body => exact onTray_acts (fun t => t.copiedReport body) _ _
  | replayArm m => exact onLeaf_acts (fun l => l.replayArm m) _ _
  | ladderStepEnd b flashOk crcOk fails chans => exact onEither_acts b (fun l => l.ladderStep flashOk crcOk) (fun t => t.ladderStep flashOk crcOk (groupFails fails) chans) _ _
  | ladderStepOverran => exact onTray_acts (fun t => t.ladderOverran) _ _
  | hello p => exact onTray_acts (fun t => t.hello p) _ _
  | tokenRefill => exact onTray_acts (fun t => t.tokenRefill 312500) _ _
  | helloRetry b => exact onEither_acts b (fun l => l.blk (fun u => u.helloRetry)) (fun t => t.blk (fun u => u.helloRetry)) _ _
  | accept b epoch peer detail => exact onEither_acts b (fun l => l.blk (fun u => u.accept epoch peer detail.toNat)) (fun t => t.blk (fun u => u.accept epoch peer detail.toNat)) _ _
  | helloRefuse b => exact onEither_acts b (fun l => l.blk (fun u => u.helloRefused)) (fun t => t.blk (fun u => u.helloRefused)) _ _
  | linkEnable => exact onLeaf_acts (fun l => (l.pageWritten 0x10).blk (fun u => u.lnkCtl (setBit (u.reg R.LNK_CTL) 31 true))) _ _
  | keepalive b link => exact onEither_acts b (fun l => l.blk (fun u => u.keepalive 0)) (fun t => t.blk (fun u => u.keepalive link.toNat)) _ _
  | supplyWarningStart b code rail => exact onSupply_acts b (fun l => l.supply code.toNat true) (fun t => t.supply code.toNat rail.toNat true) (fun _ h => supply_same h _ _) (fun _ h => traySupply_same h _ _ _) _ _
  | supplyWarningEnd b code rail took => exact onSupply_acts b (fun l => l.supply code.toNat took) (fun t => t.supply code.toNat rail.toNat took) (fun _ h => supply_same h _ _) (fun _ h => traySupply_same h _ _ _) _ _
  | supplyWarningLong b => exact onPowered_acts b (fun l => l.blk (fun u => u.warningLong)) (fun t => t.blk (fun u => u.warningLong)) _ _
  | coldReset b source => exact onReset_acts b (fun l => l.coldReset source.toNat) (fun t => t.coldReset source.toNat) _ _
  | warmReset b source => exact onEither_acts b (fun l => l.warmReset source.toNat) (fun t => t.warmReset source.toNat) _ _
  | unitReset => exact onLeaf_acts (fun l => l.unitReset) _ _
  | linkReset b pci port => exact onEither_acts b (fun l => l.linkResetAll) (fun t => t.linkResetOf pci port) _ _
  | resetRelease b taHash taValid =>
    obtain ⟨F, G, h1, h2, h3⟩ := onRelease_acts b (fun l => l.release taHash taValid) (fun t => t.release taHash taValid)
    exact ⟨F, G, h1, fun h => h2 (fun e => h ⟨taHash, taValid, by rw [e]⟩), fun h => h3 (fun e => h ⟨taHash, taValid, by rw [e]⟩)⟩
  | park b => exact onHost_acts b (fun l => l.blk (fun u => u.park)) (fun t => t.blk (fun u => u.park)) _ _
  | unpark b => exact onHost_acts b (fun l => l.blk (fun u => u.unpark.idnResume)) (fun t => t.blk (fun u => u.unpark.idnResume)) _ _
  | debugModeWrite b w => exact onHost_acts b (fun l => l.blk (fun u => u.debugWrite w)) (fun t => t.blk (fun u => u.debugWrite w)) _ _
  | injectionKey b page w => exact onHost_acts b (fun l => l.headAt page.toNat H.PGINJSEL w) (fun t => t.headAt page.toNat H.PGINJSEL w) _ _
  | injectionArm b page w => exact onHost_acts b (fun l => l.headAt page.toNat H.PGINJ w) (fun t => t.headAt page.toNat H.PGINJ w) _ _
  | correctedErrorSecond b => exact onEither_acts b (fun l => l.blk (fun u => u.correctedSecond 1000000000)) (fun t => t.blk (fun u => u.correctedSecond 312500000)) _ _
  | errorInterruptEnable b w => exact onHost_acts b (fun l => l.blk (fun u => (u.pageWritten 0x15 0).errCtl (setBit w 31 true))) (fun t => t.blk (fun u => (u.pageWritten 0x15 0).errCtl (setBit w 31 true))) _ _
  | enroll b => exact onHost_acts b (fun l => l.blk (fun u => u.enroll)) (fun t => t.blk (fun u => u.enroll)) _ _
  | installCerts b verdict flashOk => exact onHost_acts b (fun l => l.installCerts verdict.toNat flashOk) (fun t => t.installCerts verdict.toNat flashOk) _ _
  | configurationApply b v flashOk => exact onHost_acts b (fun l => l.cfgApply v flashOk) (fun t => t.cfgApply v flashOk) _ _
  | reportRequest b => exact onHost_acts b (fun l => l.report) (fun t => t.report) _ _
  | measurementExtend b w => exact onHost_acts b (fun l => l.blk (fun u => u.extIdx w)) (fun t => t.blk (fun u => u.extIdx w)) _ _
  | attestationRequest b nonce => exact onEither_acts b (fun l => l.blk (fun u => u.attestAnswer (bytesAt nonce 0 32))) (fun t => t.blk (fun u => u.attestAnswer (bytesAt nonce 0 32))) _ _
  | attestationReport link body => exact onTray_acts (fun t => t) _ _
  | thermalLimit tj sensor => exact onSupply_acts .tray id (fun t => t.junction tj.toNat sensor.toNat) (fun l _ => .refl l) (fun _ h => junction_same h _ _) _ _
  | thermalClear tj sensor => exact onSupply_acts .tray id (fun t => t.junction tj.toNat sensor.toNat) (fun l _ => .refl l) (fun _ h => junction_same h _ _) _ _
  | thermtrip tj sensor => exact onSupply_acts .tray id (fun t => t.junction tj.toNat sensor.toNat) (fun l _ => .refl l) (fun _ h => junction_same h _ _) _ _
  | dataCommandComplete q engine => exact onTray_acts (fun t => t.dataDone q engine) _ _
  | harvestRingRciWrite ring v => exact onBar_acts (fun t => (t.pageWritten 0x27 0).rciWrite ring v.toNat) _ _
  | traceRptrWrite w => exact onLeaf_acts (fun l => (l.pageWritten 0x06).trcRptr w) _ _
  | busMasterEnable => exact onTray_acts (fun t => t.busMaster) _ _
  | msixVectorUnmask vector => exact onBar_acts (fun t => t.unmask vector) _ _
  | distributorStalled dist => exact onTray_acts (fun t => t.longStall dist) _ _

/-- A command answers a next state and leaves the queue. -/
theorem exec_next (c : Instr) (s : State) : ∃ l t, exec c s = .next { s with leaf := l, tray := t } := by
  obtain ⟨F, G, h, -, -⟩ := exec_acts c
  exact ⟨F s.leaf, G s.tray, h s⟩

end Sys2Proof.Machine
end

