-- ==== Sys2Proof/Machine/TestAccess.lean ====
section
/-!
DEFINITION. The PCI Express function's identifiers, the TAP and the IEEE 1687 instruments (spec/20_integration_ports.md, R429, R436 to R438). The table of
commands has no row for an access through them, so no step performs one: these are operations on the state beside the commands (log 112).
-/

namespace Sys2Proof.Machine

/-! ### The PCI Express function (R429) -/

/-- A base address register's attributes. -/
structure Bar where
  bytes : Nat
  is64 : Bool
  prefetchable : Bool
deriving DecidableEq, Repr

/-- BAR0: 32 MiB, 64-bit, non-prefetchable. -/
def bar0 : Bar := ⟨32 * 2 ^ 20, true, false⟩

/-- The base address registers of the function, by number: BAR0 alone. -/
def bars : List (Nat × Bar) := [(0, bar0)]

/-- The Class Code: a processing accelerator. -/
def classCode : BitVec 24 := 0x120000

/-- The function has no expansion ROM. -/
def expansionRom : Option Bar := none

/-- Whether an offset into BAR0 lies within it. -/
def inBar0 (off : Nat) : Bool := off < bar0.bytes

/-! ### The TAP (R437) -/

/-- IDCODE: 0x055543F3 at patch level 0, with the patch level in bits [31:28]. -/
def idcode : W32 := 0x055543F3#32 ||| (Config.patchLevel.setWidth 32 <<< 28)

/-- The TAP takes an instruction. -/
def Tray.tapLoad (t : Tray) (i : TapInstr) : Tray := { t with tap := i }

/-- The data register that the TAP's instruction puts between TDI and TDO. -/
inductive TapReg where
  | bypass | idcode (w : W32) | boundary | network
deriving DecidableEq, Repr

/-- What the instruction selects. Boundary scan covers the pins in VDD_IO only. -/
def Tray.tapReg (t : Tray) : TapReg :=
  match t.tap with
  | .bypass => .bypass
  | .idcode => .idcode Sys2Proof.Machine.idcode
  | .samplePreload => .boundary
  | .extest => .boundary
  | .network => .network

/-! ### The instruments (R436, R438) -/

/-- A use of an instrument. The loopback and eye instrument names its port, the register access its register (and, in the T build, its size). -/
inductive Instrument where
  | memoryBist | clockMonitor | sensorReadout
  | serdes (port : Nat)
  | lpTraining | pufHealth
  | readReg (a n : Nat)
  | writeReg (a n : Nat) (data : W64) (env : PortEnv)
  | scan
deriving DecidableEq, Repr

/-- The builds that have an instrument. -/
def Instrument.inBuild : Instrument → Build → Bool
  | .serdes _, .leaf => false
  | .lpTraining, .leaf => false
  | _, _ => true

/-- What an instrument shows. `arrays`: pass or fail of each memory array; `lanes`: eye width and height; `channels`: trained, and the margin. -/
inductive Reading where
  | none
  | arrays (pass : List Bool)
  | clock (kHz : Nat) (lock : Bool)
  | sensors (code tj : Nat)
  | lanes (eyes : List (Nat × Nat))
  | channels (c : List (Bool × Nat))
  | health (pass : Bool)
deriving DecidableEq, Repr

/-- Scan zeroises every PUF-derived secret on entry. -/
def Blk.scanEntry (u : Blk) : Blk := { u with idn := { u.idn with secrets := false } }

/-- The condition of an instrument: debug mode for register access, a disabled port for loopback; the others are always open. -/
def Blk.instrumentOpen (u : Blk) : Instrument → Bool
  | .readReg _ _ => u.rb R.BLK_DBG 0
  | .writeReg _ _ _ _ => u.rb R.BLK_DBG 0
  | .serdes p => !u.rb (inst R.ETH_CTL p) 31
  | _ => true

/-- An instrument of the leaf's segment. Memory BIST and scan end with a cold reset; a register access is unprivileged, so it reads no counter. -/
def Leaf.instrument (l : Leaf) (i : Instrument) (arrays : Nat) : Leaf × Reading :=
  if !i.inBuild .leaf || !l.u.instrumentOpen i then (l, .none)
  else match i with
    | .memoryBist => ((l.blk Blk.freshen).coldReset 0, .arrays ((List.range arrays).map (Config.bistPass l.u.fresh)))
    | .clockMonitor => (l.blk Blk.freshen, .clock (Config.clockKHz false l.u.fresh) true)
    | .sensorReadout => (l, .sensors l.u.pw.code 0)
    | .serdes _ => (l, .none)
    | .lpTraining => (l, .none)
    | .pufHealth => (l, .health l.u.idn.secrets)
    | .readReg a _ => (l.readOut a false false, .none)
    | .writeReg a _ d e => (l.write a (d.setWidth 32) false e, .none)
    | .scan => ((l.blk Blk.scanEntry).coldReset 0, .none)

/-- An instrument of the T build's segment, reached behind the TAP's network instruction. -/
def Tray.instrument (t : Tray) (i : Instrument) (arrays : Nat) : Tray × Reading :=
  if t.tap ≠ .network || !t.u.instrumentOpen i then (t, .none)
  else match i with
    | .memoryBist => ((t.blk Blk.freshen).coldReset 0, .arrays ((List.range arrays).map (Config.bistPass t.u.fresh)))
    | .clockMonitor => (t.blk Blk.freshen, .clock (Config.clockKHz true t.u.fresh) true)
    | .sensorReadout => (t, .sensors t.u.pw.code t.u.pw.tj)
    | .serdes p => (t.blk Blk.freshen, .lanes ((List.range 2).map (fun lane => Config.eye p (2 * p + lane) t.u.fresh)))
    | .lpTraining => (t, .channels ((List.range 8).map (fun c => (!bit t.tier.chans c, Config.lpMargin c))))
    | .pufHealth => (t, .health t.u.idn.secrets)
    | .readReg a n => (t.readOut a n false, .none)
    | .writeReg a n d e => (t.write a n d e, .none)
    | .scan => ((t.blk Blk.scanEntry).coldReset 0, .none)

end Sys2Proof.Machine
end

