-- ==== Sys2Proof/Laws/Ops.lean ====
section
/-!
SUPPORT. What the shared operations do: registers, the memories of the tier, host memory, and the RAM ring of the recorder.
-/

namespace Sys2Proof.Machine

/-! ### Registers -/

@[simp] theorem reg_setReg_same (u : Blk) (k : Nat) (v : W32) : (u.setReg k v).reg k = v :=
  smGet_set_same u.regs k v _

theorem reg_setReg_ne (u : Blk) {k j : Nat} (v : W32) (h : j ≠ k) : (u.setReg k v).reg j = u.reg j :=
  smGet_set_ne u.regs v _ _ h

theorem setReg_sorted {u : Blk} (k : Nat) (v : W32) (h : smSorted u.regs = true) : smSorted (u.setReg k v).regs = true :=
  smSorted_set k v _ h

@[simp] theorem reg_adv (u : Blk) (n k : Nat) : (u.adv n).reg k = u.reg k := rfl
@[simp] theorem reg_emit (u : Blk) (o : Out) (k : Nat) : (u.emit o).reg k = u.reg k := rfl

/-! ### Flaws and the memories of the tier -/

/-- A fold whose steps all keep a value keeps it. -/
theorem foldl_keeps {α β γ : Type} (p : α → γ) (f : α → β → α) (l : List β) (a : α) (h : ∀ a b, p (f a b) = p a) :
    p (l.foldl f a) = p a := by
  induction l generalizing a with
  | nil => rfl
  | cons b t ih => rw [List.foldl_cons, ih, h]

/-- A fold whose steps all keep a property keeps it. -/
theorem foldl_inv {α β : Type} (P : α → Prop) (f : α → β → α) (l : List β) (a : α) (ha : P a) (h : ∀ a b, P a → P (f a b)) :
    P (l.foldl f a) := by
  induction l generalizing a with
  | nil => exact ha
  | cons b t ih => exact ih _ (h a b ha)

@[simp] theorem setFlaw_lp (t : Tray) (s w f : Nat) : (t.setFlaw s w f).tier.lp = t.tier.lp := rfl
@[simp] theorem setFlaw_brine (t : Tray) (s w f : Nat) : (t.setFlaw s w f).tier.brine = t.tier.brine := rfl
@[simp] theorem setFlaw_slice (t : Tray) (s w f : Nat) : (t.setFlaw s w f).tier.slice = t.tier.slice := rfl

@[simp] theorem wroteBytes_lp (t : Tray) (s a n : Nat) : (t.wroteBytes s a n).tier.lp = t.tier.lp :=
  foldl_keeps (fun v : Tray => v.tier.lp) _ _ _ (fun v w => by split <;> rfl)
@[simp] theorem wroteBytes_brine (t : Tray) (s a n : Nat) : (t.wroteBytes s a n).tier.brine = t.tier.brine :=
  foldl_keeps (fun v : Tray => v.tier.brine) _ _ _ (fun v w => by split <;> rfl)
@[simp] theorem wroteBytes_slice (t : Tray) (s a n : Nat) : (t.wroteBytes s a n).tier.slice = t.tier.slice :=
  foldl_keeps (fun v : Tray => v.tier.slice) _ _ _ (fun v w => by split <;> rfl)
@[simp] theorem wroteBytes_u (t : Tray) (s a n : Nat) : (t.wroteBytes s a n).u = t.u :=
  foldl_keeps (fun v : Tray => v.u) _ _ _ (fun v w => by split <;> rfl)

/-- All a write of LPDDR5X does to the memories: the bytes are written, and the other memories stay. -/
@[simp] theorem lpWrite_lp (t : Tray) (a : Nat) (l : List Byte) : (t.lpWrite a l).tier.lp = smWriteBytes t.tier.lp a 0 l := by
  simp [Tray.lpWrite]
@[simp] theorem lpWrite_brine (t : Tray) (a : Nat) (l : List Byte) : (t.lpWrite a l).tier.brine = t.tier.brine := by
  simp [Tray.lpWrite]
@[simp] theorem lpWrite_slice (t : Tray) (a : Nat) (l : List Byte) : (t.lpWrite a l).tier.slice = t.tier.slice := by
  simp [Tray.lpWrite]
@[simp] theorem brineWrite_brine (t : Tray) (a : Nat) (l : List Byte) :
    (t.brineWrite a l).tier.brine = smWriteBytes t.tier.brine a 0 l := by
  simp [Tray.brineWrite]
@[simp] theorem brineWrite_lp (t : Tray) (a : Nat) (l : List Byte) : (t.brineWrite a l).tier.lp = t.tier.lp := by
  simp [Tray.brineWrite]
@[simp] theorem brineWrite_slice (t : Tray) (a : Nat) (l : List Byte) : (t.brineWrite a l).tier.slice = t.tier.slice := by
  simp [Tray.brineWrite]
@[simp] theorem setLine_slice (t : Tray) (c n : Nat) (v : BitVec 128) :
    (t.setLine c n v).tier.slice = smSet t.tier.slice (c * 4096 + n) v 0 := by
  simp [Tray.setLine]
@[simp] theorem setLine_lp (t : Tray) (c n : Nat) (v : BitVec 128) : (t.setLine c n v).tier.lp = t.tier.lp := by simp [Tray.setLine]
@[simp] theorem setLine_brine (t : Tray) (c n : Nat) (v : BitVec 128) : (t.setLine c n v).tier.brine = t.tier.brine := by
  simp [Tray.setLine]

/-- A write of LPDDR5X keeps the canonical form of the memories. -/
theorem lpWrite_memWf {t : Tray} (a : Nat) (l : List Byte) (h : t.memWf = true) : (t.lpWrite a l).memWf = true := by
  simp only [Tray.memWf, Memory.wf, Bool.and_eq_true, lpWrite_lp, lpWrite_brine, lpWrite_slice] at h ⊢
  exact ⟨⟨smCanon_writeBytes l _ a 0 h.1.1, h.1.2⟩, h.2⟩

/-- A write of the brine store keeps the canonical form of the memories. -/
theorem brineWrite_memWf {t : Tray} (a : Nat) (l : List Byte) (h : t.memWf = true) : (t.brineWrite a l).memWf = true := by
  simp only [Tray.memWf, Memory.wf, Bool.and_eq_true, brineWrite_lp, brineWrite_brine, brineWrite_slice] at h ⊢
  exact ⟨⟨h.1.1, smCanon_writeBytes l _ a 0 h.1.2⟩, h.2⟩

/-- A write of a slice line keeps the canonical form of the memories. -/
theorem setLine_memWf {t : Tray} (c n : Nat) (v : BitVec 128) (h : t.memWf = true) : (t.setLine c n v).memWf = true := by
  simp only [Tray.memWf, Memory.wf, Bool.and_eq_true, setLine_lp, setLine_brine, setLine_slice] at h ⊢
  exact ⟨h.1, smCanon_set (d := fun _ => 0) _ v h.2⟩

/-- What both builds hold has no part in the memories of the tier. -/
@[simp] theorem blk_memWf (t : Tray) (f : Blk → Blk) : (t.blk f).memWf = t.memWf := rfl

/-- A write of host memory keeps it sorted. -/
theorem hostWrite_sorted {u : Blk} (a : Nat) (l : List Byte) (h : smSorted u.host = true) : smSorted (u.hostWrite a l).host = true :=
  foldl_inv (fun m : SMap Byte => smSorted m = true) _ _ _ h (fun m p hm => smSorted_put p.2 p.1 hm)

/-! ### The RAM ring of the recorder -/

@[simp] theorem msixSend_rcd (u : Blk) (v : Nat) : (u.msixSend v).rcd = u.rcd := by
  simp only [Blk.msixSend, apply_ite Blk.rcd, Blk.setRb_rcd, Blk.emit_rcd, ite_self]

@[simp] theorem errInterrupt_rcd (u : Blk) : u.errInterrupt.rcd = u.rcd := by
  unfold Blk.errInterrupt
  split
  · rfl
  · exact msixSend_rcd _ _

@[simp] theorem fillFirst_rcd (u : Blk) (p i : Nat) : (u.fillFirst p i).rcd = u.rcd := by
  simp only [Blk.fillFirst, apply_ite Blk.rcd, Blk.setN_rcd, ite_self]

@[simp] theorem causeAt_rcd (u : Blk) (k p i : Nat) : (u.causeAt k p i).rcd = u.rcd := by
  simp only [Blk.causeAt, apply_ite Blk.rcd, errInterrupt_rcd, fillFirst_rcd, Blk.setRb_rcd, ite_self]

@[simp] theorem cause_rcd (u : Blk) (p n i : Nat) : (u.cause p n i).rcd = u.rcd := by
  unfold Blk.cause
  split
  · exact causeAt_rcd _ _ _ _
  · rfl

theorem mapLast_length {α : Type} (f : α → α) (l : List α) : (mapLast f l).length = l.length := by
  induction l with
  | nil => rfl
  | cons a t ih =>
    cases t with
    | nil => rfl
    | cons b t => simpa [mapLast] using ih

/-! ### Test access (R429, R436 to R438) -/

/-- IDCODE at patch level 0 (R437). -/
theorem idcode_patch0 (h : Config.patchLevel = 0) : idcode = 0x055543F3#32 := by
  unfold idcode; rw [h]; decide

theorem wroteBytes_pciIds (t : Tray) (s a n : Nat) : (t.wroteBytes s a n).pciIds = t.pciIds :=
  foldl_keeps (fun v : Tray => v.pciIds) _ _ _ (fun v w => by split <;> rfl)

theorem place_pciIds (t : Tray) (j : Nat) (r : Rec) : (t.place j r).pciIds = t.pciIds := wroteBytes_pciIds t _ _ _

theorem stageRec_pciIds (t : Tray) (j : Nat) (r : Rec) : (t.stageRec j r).pciIds = t.pciIds := by
  unfold Tray.stageRec
  extract_lets e after
  by_cases h : (decide (e.staged.length + (if r.parts.1 = 0 then r.parts.2 else 1) ≤ e.ordinary) && !after) = true
  · rw [if_pos h, place_pciIds]
  · rw [if_neg h]; rfl

theorem drainN_pciIds (t : Tray) (n : Nat) : (t.drainN n).pciIds = t.pciIds := by
  induction n generalizing t with
  | zero => rfl
  | succ n ih =>
    simp only [Tray.drainN]
    split
    · rw [ih]
      simp only [Tray.stageOne]
      split <;> simp [stageRec_pciIds]
    · rfl

/-- The recovery marker of a queue leaves configuration space. -/
theorem markNew_pciIds (t : Tray) (j : Nat) : (t.markNew j).pciIds = t.pciIds := by
  simp only [Tray.markNew]
  split
  · rfl
  · simp only [Tray.createPlace, Tray.createTake]
    split
    · rw [place_pciIds]
      exact drainN_pciIds _ _
    · exact drainN_pciIds _ _

/-- Every cold reset samples the straps again (R429). -/
@[simp] theorem coldReset_pciIds (t : Tray) (n : Nat) : (t.coldReset n).pciIds = PciIds.strapped := markNew_pciIds _ 0

/-- Scan zeroises the PUF-derived secrets and ends with a cold reset, whose ladder has not derived them again (R436). -/
theorem scan_secrets (l : Leaf) (n : Nat) : (l.instrument .scan n).1 = (l.blk Blk.scanEntry).coldReset 0 := by
  simp [Leaf.instrument, Instrument.inBuild, Blk.instrumentOpen]

/-- Outside debug mode a register access of an instrument does nothing (R436). -/
theorem instrument_closed (l : Leaf) (a k n : Nat) (h : l.u.rb R.BLK_DBG 0 = false) : l.instrument (.readReg a k) n = (l, .none) := by
  simp [Leaf.instrument, Instrument.inBuild, Blk.instrumentOpen, h]

end Sys2Proof.Machine
end

