-- ==== Sys2Proof/WellFormed.lean ====
section
/-!
DEFINITION. Which commands the surroundings can give: what the operand types leave open. A message body has at most 8,192 bytes (R163) and a frame at most
9,216 (R181); a write check has 1 to 4,096 bytes (R147); a nonce has 32 bytes (R404); an aperture write lies within one queue's 64 bytes and appends when it
includes byte 0x3F (R207); a severity is 0 to 4 (R104); a slot or cone is one the build has. Every command has a meaning, well formed or not.
-/

namespace Sys2Proof

open Sys2Proof.Machine

/-- The checks. -/
def Instr.wf (i : Instr) : Bool :=
  match i with
  | .registerWrite _ _ _ _ _ _ => true
  | .rcRead _ _ _ _ => true
  | .incFracWrite _ _ => true
  | .incNsWrite _ _ => true
  | .offsetStep _ => true
  | .load _ => true
  | .holdover _ => true
  | .tb0NslRead _ _ => true
  | .timedAction _ _ => true
  | .stepMark _ _ => true
  | .longStep b slot => decide (slot.val < slotCount b)
  | .pseedWrite _ _ => true
  | .idxSetWrite _ _ => true
  | .stepSlotEnable _ _ => true
  | .angRead b slot => decide (slot.val < slotCount b)
  | .scheduleEntryFire _ => true
  | .astbSwap => true
  | .ppsIn => true
  | .ppsOutRise => true
  | .ppsOutFall => true
  | .stepMarkNotice _ _ => true
  | .stepSourceSwitched _ => true
  | .timeFrameReceive _ _ _ _ ptp => decide (ptp.length ≤ 9216)
  | .ptpForward _ _ _ ptp => decide (ptp.length ≤ 9216)
  | .ringSlotArrival _ => true
  | .stopIncrement _ _ _ _ => true
  | .stopBypass _ _ => true
  | .heldSlotRead _ => true
  | .ringCalibrate => true
  | .latencyMarkerReturn => true
  | .ringFault => true
  | .unprivilegedCounterAccess => true
  | .counterCapture _ _ => true
  | .captureComplete => true
  | .counterClear _ _ => true
  | .clrall => true
  | .capHAutoRead => true
  | .windowEdge _ => true
  | .selSwap _ => true
  | .sampleReadComplete => true
  | .creditMessage _ _ _ => true
  | .creditReturn _ => true
  | .traceItem _ _ _ => true
  | .traceLossExit _ => true
  | .traceEnable => true
  | .traceSourceEnable _ _ => true
  | .traceBlockAck => true
  | .traceFlush => true
  | .traceFlushDone => true
  | .traceDmaError => true
  | .traceLpEntry _ => true
  | .traceLpExit _ => true
  | .eventReport _ _ _ sev _ _ _ => decide (sev.toNat ≤ 4)
  | .recordWindowEnd _ => true
  | .flashProgramDone _ _ => true
  | .flashEraseDone _ _ => true
  | .historyEnable _ _ => true
  | .historyScanDone _ => true
  | .historyFormat _ => true
  | .operatingMinute _ => true
  | .historyRead _ _ => true
  | .historyReadDone _ => true
  | .operatingSecond b codes => decide (codes.length ≤ coneCount b)
  | .coneEnable b cone _ => decide (cone.toNat < coneCount b)
  | .conePoll b cone => decide (cone.toNat < coneCount b)
  | .identityReadDone b cone _ => decide (cone.toNat < coneCount b)
  | .coneRestart _ => true
  | .coneCheckpoint b cone => decide (cone.toNat < coneCount b)
  | .heartbeat _ _ _ => true
  | .engineExpiry _ => true
  | .contextEvent _ _ _ _ => true
  | .resetDelayExpiry _ => true
  | .resetDone _ _ _ => true
  | .resetEscalated _ => true
  | .hungClear _ => true
  | .softwareResetRequest _ => true
  | .suspectClear _ => true
  | .replayBegin _ => true
  | .replayEnd _ => true
  | .dumpGo => true
  | .dumpAbort => true
  | .dumpRelease => true
  | .dumpAccessDone _ _ => true
  | .dumpAccessTimeout => true
  | .walkTimeout => true
  | .dumpWriteStall _ => true
  | .dumpTrailerAck => true
  | .dumpSegmentReceive _ _ body => decide (body.length ≤ 8192)
  | .dumpRefusal _ => true
  | .snapshotArm _ => true
  | .snapshotAbort => true
  | .guardDisable => true
  | .guardCheck _ len => decide (1 ≤ len.toNat ∧ len.toNat ≤ 4096)
  | .waitingCheckAnswer => true
  | .copyDone _ => true
  | .guardTimeout => true
  | .chunkSubmission _ _ _ len data => decide (data.length = len.toNat)
  | .chunkHashed _ => true
  | .fingerprintFrameTimer => true
  | .electionNotice _ _ _ => true
  | .decisionQuery _ => true
  | .receivePacket _ p => decide (p.body.length ≤ 9216) && p.items.all (fun i => decide (i.data.length = 64))
  | .controlReceive _ _ p => decide (p.body.length ≤ 9216)
  | .linkAcknowledgement _ _ _ => true
  | .ackTimeout _ _ => true
  | .restartResend _ _ => true
  | .packetSent _ _ => true
  | .mailboxSend _ _ => true
  | .gateSwap _ _ => true
  | .gateEntryChange _ _ => true
  | .launchTime _ _ => true
  | .queueSample _ _ => true
  | .tsqE3Read _ => true
  | .segmentReceive _ body => decide (body.length ≤ 8192)
  | .reassemblyTimeout _ => true
  | .ethernetLinkDown _ => true
  | .ethernetLinkUp _ _ => true
  | .distributeFrame _ => true
  | .projectionArrival _ => true
  | .workUnitEnd _ _ => true
  | .forcedRefresh _ => true
  | .patrolScrub _ _ _ => true
  | .currentInterval _ => true
  | .ingestRingEnable _ _ => true
  | .apertureStageWrite _ off data => decide (0 < data.length ∧ off.toNat + data.length < 64)
  | .commandAppend _ off data => decide (0 < data.length ∧ off.toNat + data.length = 64)
  | .commandDispatch _ => true
  | .nop _ => true
  | .waitq _ => true
  | .waitat _ => true
  | .waitSatisfied _ => true
  | .waitqTimeout _ => true
  | .txclose _ => true
  | .txabort _ => true
  | .mark _ => true
  | .mload _ => true
  | .munload _ => true
  | .mbind _ => true
  | .munbind _ => true
  | .pdefine _ => true
  | .pfree _ => true
  | .pfreeRelease _ => true
  | .cutclose _ => true
  | .copy _ => true
  | .zcomp _ => true
  | .zdecomp _ => true
  | .msend _ => true
  | .start _ => true
  | .contain _ => true
  | .sattach _ => true
  | .sdetach _ => true
  | .sepoch _ => true
  | .queueResume _ => true
  | .queueFlush _ => true
  | .thiefIdle _ => true
  | .stealRequest _ => true
  | .stealRefused _ => true
  | .stealBackoffExpiry _ => true
  | .stealTransferDone _ => true
  | .classUnitReset _ _ => true
  | .commitPoint _ => true
  | .txPrepare _ m => decide (m.members.length ≤ 8192)
  | .voteTime _ _ => true
  | .txVote _ m => decide (m.members.length ≤ 8192)
  | .txDecision _ _ => true
  | .txDecisionCopy _ m => decide (m.members.length ≤ 8192)
  | .txDecisionCopyAck _ _ => true
  | .txCommit _ m => decide (m.members.length ≤ 8192)
  | .txAbort m => decide (m.members.length ≤ 8192)
  | .txCommitAck _ m => decide (m.members.length ≤ 8192)
  | .transactionInDoubt _ _ => true
  | .txOutcomeQuery _ m => decide (m.members.length ≤ 8192)
  | .cutAngleDeadline _ => true
  | .cutTimeDeadline _ => true
  | .harvestPublish _ => true
  | .harvestRingWrite _ => true
  | .harvestRelay => true
  | .harvestSegmentReceive _ body => decide (body.length ≤ 8192)
  | .partialReceive _ _ => true
  | .scoreSend _ _ => true
  | .scoreExpired _ _ => true
  | .batchReady _ _ => true
  | .shortBatch _ _ => true
  | .streamLoadDone _ _ _ => true
  | .streamBatchDone _ _ => true
  | .healthEnable _ _ => true
  | .referenceMessage body => decide (body.length ≤ 8192)
  | .containmentRequest _ => true
  | .containmentHostAck _ _ => true
  | .containmentAckTimeout => true
  | .containmentAcknowledgement _ => true
  | .containmentUnacknowledged _ => true
  | .stateQuery _ => true
  | .stateQueryAnswer _ => true
  | .grantRequest _ => true
  | .grant _ => true
  | .deny _ => true
  | .grantTimeout _ _ => true
  | .grantReturned _ => true
  | .sparesWrite _ _ => true
  | .budgetOpen _ => true
  | .eventRecordWriteAck => true
  | .eventRecordStage => true
  | .ciWrite _ _ _ => true
  | .coalescingTimer _ _ => true
  | .eventDmaError => true
  | .eventQueueEnable _ _ _ => true
  | .compressionGo => true
  | .compressionAbort _ => true
  | .compressionJobDone _ => true
  | .startPart _ m => decide (m.data.length ≤ 8192)
  | .hopAcknowledgement _ m => decide (m.data.length ≤ 8192)
  | .hopTimeout _ _ _ => true
  | .leafAttach m => decide (m.data.length ≤ 8192)
  | .leafAcknowledgement m => decide (m.data.length ≤ 8192)
  | .leafNotAttached _ _ _ => true
  | .teardownPart _ m => decide (m.data.length ≤ 8192)
  | .teardownResend _ _ _ => true
  | .leafDetach _ => true
  | .releaseDeadline _ => true
  | .censusReport body => decide (body.length ≤ 8192)
  | .holderStateReport body => decide (body.length ≤ 8192)
  | .writtenReport body => decide (body.length ≤ 8192)
  | .censusDeadline _ => true
  | .copiedReport body => decide (body.length ≤ 8192)
  | .replayArm m => decide (m.data.length ≤ 8192)
  | .ladderStepEnd _ _ _ _ _ => true
  | .ladderStepOverran => true
  | .hello p => decide (p.body.length ≤ 9216)
  | .tokenRefill => true
  | .helloRetry _ => true
  | .accept _ _ _ _ => true
  | .helloRefuse _ => true
  | .linkEnable => true
  | .keepalive _ _ => true
  | .supplyWarningStart _ _ _ => true
  | .supplyWarningEnd _ _ _ _ => true
  | .supplyWarningLong _ => true
  | .coldReset _ _ => true
  | .warmReset _ _ => true
  | .unitReset => true
  | .linkReset _ _ _ => true
  | .resetRelease _ _ _ => true
  | .park _ => true
  | .unpark _ => true
  | .debugModeWrite _ _ => true
  | .injectionKey _ _ _ => true
  | .injectionArm _ _ _ => true
  | .correctedErrorSecond _ => true
  | .errorInterruptEnable _ _ => true
  | .enroll _ => true
  | .installCerts _ _ _ => true
  | .configurationApply _ _ _ => true
  | .reportRequest _ => true
  | .measurementExtend _ _ => true
  | .attestationRequest _ nonce => decide (nonce.length = 32)
  | .attestationReport _ body => decide (body.length ≤ 8192)
  | .thermalLimit _ _ => true
  | .thermalClear _ _ => true
  | .thermtrip _ _ => true
  | .dataCommandComplete _ _ => true
  | .harvestRingRciWrite _ _ => true
  | .traceRptrWrite _ => true
  | .busMasterEnable => true
  | .msixVectorUnmask _ => true
  | .distributorStalled _ => true

end Sys2Proof
end

