-- ==== Sys2Proof/Tests/Slice0.lean ====
section
/-!
SUPPORT. Tests: ill-formed commands are refused, single operations on small states against values worked out from the spec by hand, and for every statement
with hypotheses a state and operands that meet them together, at the edges of each clause.
-/

namespace Sys2Proof.Tests

open Sys2Proof.Machine Sys2Proof.Slice0

/-! ### Well-formedness: an ill-formed command for each check -/

/-- A body one byte longer than a message can carry. -/
def longBody : List Byte := List.replicate 8193 0
theorem longBody_length : longBody.length = 8193 := List.length_replicate

/-- A frame one byte longer than a port takes. -/
def longFrame : List Byte := List.replicate 9217 0
theorem longFrame_length : longFrame.length = 9217 := List.length_replicate

def packet (l : List Byte) : Packet := ⟨0, 0, 0, 0, [], false, 0, 0, 0, 0, 0, false, 0, 0, 0, 0, l, 0⟩
def txMsg (l : List Byte) : TxMsg := ⟨0, 0, 0, 0, 0, 0, 0, 0, 0, 0, 0, l⟩
def startMsg (l : List Byte) : StartMsg := ⟨0, 0, 0, 0, 0, 0, 0, 0, 0, 0, 0, 0, l⟩

theorem test_wf_body : [Instr.dumpSegmentReceive 0 0 longBody, .segmentReceive 0 longBody, .harvestSegmentReceive 0 longBody, .referenceMessage longBody,
    .censusReport longBody, .holderStateReport longBody, .writtenReport longBody, .copiedReport longBody, .attestationReport 0 longBody].all
    (fun c => !c.wf) = true := by
  simp [Instr.wf, longBody_length]

theorem test_wf_tx : [Instr.txPrepare 0 (txMsg longBody), .txVote 0 (txMsg longBody), .txDecisionCopy 0 (txMsg longBody), .txCommit 0 (txMsg longBody),
    .txAbort (txMsg longBody), .txCommitAck 0 (txMsg longBody), .txOutcomeQuery 0 (txMsg longBody)].all (fun c => !c.wf) = true := by
  simp [Instr.wf, longBody_length, txMsg]

theorem test_wf_start : [Instr.startPart 0 (startMsg longBody), .hopAcknowledgement 0 (startMsg longBody), .leafAttach (startMsg longBody),
    .leafAcknowledgement (startMsg longBody), .teardownPart 0 (startMsg longBody), .replayArm (startMsg longBody)].all (fun c => !c.wf) = true := by
  simp [Instr.wf, longBody_length, startMsg]

theorem test_wf_frame : [Instr.receivePacket .leaf (packet longFrame), .controlReceive .tray 0 (packet longFrame),
    .hello (packet longFrame), .timeFrameReceive .leaf 0 0 0 longFrame, .ptpForward 0 0 0 longFrame].all
    (fun c => !c.wf) = true := by
  simp [Instr.wf, longFrame_length, packet]

theorem test_wf_slot : [Instr.longStep .leaf 2, .angRead .leaf 63].all (fun c => !c.wf) = true := by decide
theorem test_wf_cone : [Instr.coneEnable .leaf 16 0, .conePoll .leaf 16, .identityReadDone .leaf 255 none, .coneCheckpoint .leaf 16,
    .operatingSecond .leaf (List.replicate 17 none)].all (fun c => !c.wf) = true := by decide
theorem test_wf_severity : (Instr.eventReport .leaf 0 0 5 .never none 0).wf = false := by decide
theorem test_wf_item : (Instr.receivePacket .leaf { packet [] with items := [{ Item.idle with data := [] }] }).wf = false := by decide
theorem test_wf_check : [Instr.guardCheck 0 0, .guardCheck 0 4097].all (fun c => !c.wf) = true := by decide
theorem test_wf_chunk : (Instr.chunkSubmission 0 0 0 2 [0]).wf = false := by decide
theorem test_wf_aperture : [Instr.apertureStageWrite 0 0x3F [0], .apertureStageWrite 0 0 [], .commandAppend 0 0x3E [0], .commandAppend 0 0x3F [0, 0]].all
    (fun c => !c.wf) = true := by decide
theorem test_wf_nonce : (Instr.attestationRequest .leaf []).wf = false := by decide
theorem test_wf_accepts : [Instr.longStep .leaf 1, .guardCheck 0 4096, .commandAppend 0 0x3F [0], .eventReport .leaf 0 0 4 .never none 0, .load .tray].all
    Instr.wf = true := by decide

/-! ### States the tests run on -/

def s0 : State := State.reset
def onL (f : Leaf → Leaf) : State := { s0 with leaf := f s0.leaf }
def onT (f : Tray → Tray) : State := { s0 with tray := f s0.tray }
def onU (f : Blk → Blk) : State := onL (fun l => l.blk f)

/-- The tray build with its register port open: the ladder has passed the memory-tier step. -/
def sOpen : State := onT (fun t => t.blk (fun u => { u with pw := { u.pw with step := 2 } }))

/-- A slot clock with a mark and a period of 4 cycles. -/
def marked4 : StepClk := { StepClk.reset with en := true, haveMark := true, estValid := true, per := 4 }
def uStep (c : StepClk) (now : Nat) : Blk := { s0.leaf.u with steps := [(0, c)], clk := { s0.leaf.u.clk with tb1 := BitVec.ofNat 64 now } }
def sStep (c : StepClk) (now : Nat) : State := onL (fun l => { l with u := uStep c now })

/-- The leaf and the tray build that a command leaves; the state it was given where it answers none. -/
def after (c : Instr) (s : State) : State :=
  match exec c s with
  | .next t => t
  | _ => s

/-! ### Values worked out by hand from the spec -/

-- R31: INC_NS 0x00 with INC_FRAC 0xCCCCCCCC is 0.8 ns a cycle; an increment of zero is refused and the old one stays.
theorem test_inc_pair : (after (.incNsWrite .leaf 0) (after (.incFracWrite .leaf 0xCCCCCCCC) s0)).leaf.u.clk.inc = 0x00CCCCCCCC#40 := by decide
theorem test_inc_zero : (after (.incNsWrite .leaf 0) s0).leaf.u.clk.inc = 0x0100000000#40 := by decide
-- R30: five cycles of 0.8 ns are four whole nanoseconds less the part the fraction misses.
theorem test_time_carry : ((Clock.reset .leaf).adv 3).ns = 3#64 ∧ ({ Clock.reset .leaf with inc := 0x00CCCCCCCC#40 } : Clock).adv 5
    = { Clock.reset .leaf with inc := 0x00CCCCCCCC#40, tb := 0x3FFFFFFFC#96, tb1 := 5, ival := 0x3FFFFFFFC } := by decide
-- R33, R34: reset time reads zero and is not valid.
theorem test_time_reset : (after (.tb0NslRead .leaf false) s0).leaf.u.out.head? = some (.read 0x1040 0) ∧ s0.leaf.u.clk.valid = false := by decide
-- R32: a load takes the 96 bits and makes the time valid.
theorem test_load : (after (.load .leaf) (onU (fun u => (u.setReg 0x1060 7).setReg 0x1068 9))).leaf.u.clk.tb = 0x0000000700000009#96 := by decide
-- R36: 2^63 − 1 past is reached, 2^63 past is not, across the wrap too.
theorem test_reached : reached64 0x7FFFFFFFFFFFFFFF 0 = true ∧ reached64 0x8000000000000000 0 = false ∧ reached64 1 0xFFFFFFFFFFFFFFFF = true := by decide
-- R41: P = 1000, M = 3000 is clamped to 2000; with k = 3, P moves by 125. M = 400 is short: clamped to 500, P falls by 63.
theorem test_period_up : periodUpdate true 1000 3000 3 = (1125, some false) := by decide
theorem test_period_short : periodUpdate true 1000 400 3 = (937, some true) := by decide
-- R59: the maximum is reached without overflow; one more saturates.
theorem test_counter_limit : ((Leaf.reset.setCounter 5 ⟨BitVec.ofNat 56 (counterMax - 1), false⟩).counterAdd 5 1 false).counter 5
    = ⟨BitVec.ofNat 56 counterMax, false⟩ := by decide
-- R61: bits [63:44] and [31:0] of a slot have even parity.
set_option maxRecDepth 100000 in
theorem test_slot_parity : slotParityOk (mkSlot 0 3 1 false) = true ∧ fld (mkSlot 0 3 1 false) 46 14 = 3 := by decide
-- R9: byte order.
theorem test_little_endian : leBytes 4 0x01020304 = [4, 3, 2, 1] ∧ leVal [4, 3, 2, 1] = 0x01020304 := by decide
-- The published check value of CRC-32C.
set_option maxRecDepth 100000 in
theorem test_crc32c : crc32c [0x31, 0x32, 0x33, 0x34, 0x35, 0x36, 0x37, 0x38, 0x39] = 0xE3069283#32 := by decide
-- R207: a command whose byte 0x3F is written reads back from the ring, bytes not written as zero.
set_option maxRecDepth 100000 in
theorem test_append : (((Tray.reset.blk (fun u => u.setReg (qcfgKey 2) 0x80000000)).append 2 0x3F [0xAB]).brineBytes (ringByte 2 0) 64)
    = List.replicate 63 0 ++ [0xAB] := by decide
-- R195: command ring q stands at 768 MiB + 64 KiB × q of the brine store.
theorem test_ring_place : ringByte 2 3 = 0x300200C0 := by decide
-- R389: the wrong key changes nothing.
theorem test_debug_key : (after (.debugModeWrite .leaf 0xDB610001) s0).leaf.u.reg R.BLK_DBG = 0 := by decide
-- R365: before the end of the memory-tier step PCI Express reaches no register of the T build; afterwards it does.
theorem test_port_closed : (after (.incFracWrite .tray 5) s0).tray.u.clk.fracHeld = s0.tray.u.clk.fracHeld ∧
    (execIncFracWrite .tray 5 sOpen = .next { sOpen with tray := (sOpen.tray.blk (fun u => u.incFrac 5)).settle sOpen.tray }) := ⟨by decide, rfl⟩
-- R39: a mark of a slot that is not attached changes nothing there; an attached one counts its index up from 0xFFFFFFFF to 0.
theorem test_mark_index : (({ marked4 with idx := 0xFFFFFFFF } : StepClk).marked 9 none).idx = 0 ∧
    (s0.leaf.stepMark 0 true).u.step 0 = s0.leaf.u.step 0 := by decide
-- R324: a frame of an encoder other than this one (18 bytes, one compressed block: literals "hello " and one match).
set_option maxRecDepth 100000 in
theorem test_zstd_frame : (zDecompress 100 (2 ^ 23) [40, 181, 47, 253, 32, 18, 101, 0, 0, 48, 104, 101, 108, 108, 111, 32, 1, 0, 225, 74, 17, 0, 0, 0]).out
    = [104, 101, 108, 108, 111, 32, 104, 101, 108, 108, 111, 32, 104, 101, 108, 108, 111, 32] := by decide
-- R390: a write of another register of the page between the two keys starts the sequence over.
theorem test_arming_restarts : ((onU (fun u => u.injKey 4 0 0x1A7E0000)).leaf.u.stage 4 0 = 1) ∧
    (after (.clrall) (onU (fun u => u.injKey 4 0 0x1A7E0000))).leaf.u.stage 4 0 = 0 := by decide
-- No row of the table gives bits, so no word spells a command.
theorem test_no_words : decodeTableWord 32 0 = none ∧ s0.withFetchWord 32 0 = s0 := by exact ⟨rfl, rfl⟩

/-! ### Hypotheses that can be met -/

theorem wit_free : Free s0 .leaf ∧ Free s0 .tray ∧ s0.pending = [] ∧ s0.tray.memWf = true := by decide
theorem wit_open : s0.Open .leaf ∧ sOpen.Open .tray ∧ s0.tray.u.pw.step < 2 := by decide
theorem wit_step_next : step s0 = .next s0.tick := rfl

/-- Both builds held cold. -/
def sCold : State := { leaf := Leaf.reset.coldReset 1, tray := Tray.reset.coldReset 1, pending := [.load .leaf] }
/-- Both builds held by a warm reset. -/
def sWarm : State := { leaf := Leaf.reset.warmReset 8, tray := Tray.reset.warmReset 8, pending := [] }

theorem wit_held_cold_leaf : LeafHeldCold sCold.leaf sCold ∧ TrayHeldCold sCold.tray sCold := by
  refine ⟨⟨.refl _, by decide, ?_⟩, ⟨.refl _, by decide, ?_⟩⟩ <;>
  · intro c hc h v
    simp only [sCold, List.mem_singleton] at hc
    subst hc
    intro e
    cases e
theorem wit_held_cold_step : ∃ t, step sCold = .next t := ⟨_, rfl⟩
set_option maxRecDepth 100000 in
theorem wit_held_idle : sCold.leaf.u.held = some .cold ∧ sCold.tray.u.held = some .cold ∧ sWarm.leaf.u.held = some .warm ∧
    sWarm.tray.u.held = some .warm ∧ sWarm.pending = [] := by decide
theorem wit_releases : sCold.leaf.u.held ≠ none ∧ sCold.tray.u.held ≠ none ∧ s0.leaf.u.held ≠ some .cold ∧ s0.tray.u.held ≠ some .cold := by decide
theorem wit_same_queue : sWarm.pending = s0.pending := by decide

theorem wit_increment : (1#8 ++ s0.leaf.u.clk.fracHeld ≠ 0) ∧ (0#8 ++ s0.leaf.u.clk.fracHeld = 0) := by decide

theorem wit_angle : marked4.overrun = false ∧ (uStep marked4 4).build = .leaf ∧ ((uStep marked4 3).clk.tb1 - marked4.markAt).toNat < marked4.per.toNat ∧
    (uStep marked4 4).angle 0 = 0xFFFFFFFF#32 ∧ (uStep marked4 3).angle 0 = 0xC0000000#32 := by decide
theorem wit_seed : (s0.leaf.u.step 0).en = false ∧ (1#16 ++ (s0.leaf.u.step 0).seedL ≠ 0) ∧ Free s0 .leaf := by decide
/-- A slot whose last mark, accepted and seen, was in cycle 0. -/
def seen4 : StepClk := { marked4 with seenAt := some 0, acceptedAt := some 0 }
theorem wit_mark_off : bit (1 : BitVec 2) 1 = false ∧ bit (3 : BitVec 2) 1 = true ∧ (s0.leaf.u.step 0).en = false ∧ (s0.leaf.u.step 1).en = false := by decide
theorem wit_mark_ignored : (s0.leaf.u.step 0).en = false ∧ seen4.seenAt = some (uStep seen4 0).clk.tb1 := by decide
theorem wit_mark_early : Free (onL (fun l => { l with u := (uStep seen4 3).setReg R.STEP_MINPER 4 })) .leaf ∧ seen4.en = true ∧
    ((uStep seen4 3).clk.tb1 - 0).toNat < (((uStep seen4 3).setReg R.STEP_MINPER 4).reg R.STEP_MINPER).toNat ∧
    seen4.seenAt ≠ some (uStep seen4 3).clk.tb1 := by decide
theorem wit_mark_accepted : Free (sStep seen4 100000) .leaf ∧ ((sStep seen4 100000).leaf.u.step 0).en = true ∧
    seen4.seenAt ≠ some (uStep seen4 100000).clk.tb1 ∧ seen4.acceptedAt = some 0 ∧
    ((sStep seen4 100000).leaf.u.reg R.STEP_MINPER).toNat ≤ ((uStep seen4 100000).clk.tb1 - 0).toNat ∧ StepClk.reset.acceptedAt = none := by decide

/-- A leaf whose source 3 feeds counter 7, a gauge where `g`. -/
def sCtr (g : Bool) : State := onL (fun l => { l with ctr := { l.ctr with srcMap := [(3, 0x8007)], gauges := (if g then [(7, true)] else []), store := [(7, ⟨BitVec.ofNat 56 counterMax, false⟩)] } })
theorem wit_slot : bit (mkSlot 0 3 1 false) 63 = true ∧ slotParityOk (mkSlot 0 3 1 false) = true ∧ (sCtr false).leaf.u.armed 0x04 0 1 = false ∧
    (sCtr false).leaf.ctr.fault = false ∧ (sCtr false).leaf.readDue = false ∧ fld (mkSlot 0 3 1 false) 60 2 = 0 ∧ (sCtr false).leaf.isGauge 7 = false ∧
    smGet (sCtr false).leaf.ctr.parity 7 false = false ∧ bit (smGet (sCtr false).leaf.ctr.srcMap 3 0) 15 = true ∧ (sCtr false).leaf.ctr.windows = [] := by decide
theorem wit_slot_gauge : fld (mkSlot 1 3 1 false) 60 2 = 1 ∧ slotParityOk (mkSlot 1 3 1 false) = true ∧ (sCtr true).leaf.isGauge 7 = true ∧
    fld (mkSlot 0 3 1 false) 60 2 = (if (sCtr true).leaf.isGauge 7 then 0 else 1) ∧ Free (sCtr true) .leaf := by decide
theorem wit_slot_edge : ((sCtr false).leaf.counter 7).val.toNat + fld (mkSlot 0 3 0 false) 0 32 = 0x00FFFFFFFFFFFFFF ∧
    bit (mkSlot 0 3 0 false) 45 = false ∧ ¬(((sCtr false).leaf.counter 7).val.toNat + fld (mkSlot 0 3 1 false) 0 32 ≤ 0x00FFFFFFFFFFFFFF) := by decide
theorem wit_read_cycle : (onL (fun l => { l with ctr := { l.ctr with held := [⟨.capture 7, l.u.clk.tb1, 1⟩] } })).leaf.readDue = true := by decide
theorem wit_stop : (s0.leaf.stop 0).byp = false ∧ ((onL (fun l => l.stopBypass 0 true)).leaf.stop 0).byp = true := by decide
theorem wit_credit : ((sStep marked4 0).leaf.u.step 0).en = true ∧ (s0.leaf.u.step 0).en = false ∧ Free (sStep marked4 0) .leaf := by decide

theorem wit_report_room : s0.leaf.u.gather = none ∧ s0.tray.u.gather = none ∧ s0.leaf.u.rcd.full = false ∧ s0.leaf.u.rcd.isOpen = true := by decide
/-- A leaf whose ring holds 63 ordinary records. -/
def sFull : State := onU (fun u => { u with rcd := { u.rcd with ring := List.replicate 63 (u.draft (rk 2 1 1 .never) .dflt 0), isOpen := false } })
theorem wit_report_full : Free sFull .leaf ∧ 63 ≤ (sFull.leaf.u.rcd.ring.filter (fun x => x.kind ≠ rkOverflow)).length ∧ sFull.leaf.u.rcd.full = true := by
  decide
/-- The leaf after a report of page 2, code 1: the same report again is a repeat of it. -/
def sRep : State := onU (fun u => u.report (rk 2 1 1 .never) .dflt 5)
theorem wit_report_repeat : Free sRep .leaf ∧ sRep.leaf.u.rcd.isOpen = true ∧
    (sRep.leaf.u.rcd.ring.getLast?.map Rec.key) = some (sRep.leaf.u.draft (rk 2 1 1 .never) .dflt 5).key := by decide
theorem wit_window : s0.leaf.u.rcd.isOpen = true ∧ (onU (fun u => { u with rcd := { u.rcd with isOpen := false } })).leaf.u.rcd.isOpen = false := by decide
theorem wit_history_read : s0.leaf.u.rf R.HIS_NBLK 0 15 ≤ fld (0 : W32) 0 28 / 1024 ∧
    fld (0x3FF : W32) 0 28 / 1024 < (onU (fun u => u.setReg R.HIS_NBLK 1)).leaf.u.rf R.HIS_NBLK 0 15 := by decide

theorem wit_engine : (s0.leaf.engine 63).hung = false ∧
    ((onL (fun l => l.setEngine 63 { Engine.reset with hung := true })).leaf.engine 63).hung = true := by decide
theorem wit_guard : s0.leaf.touched 0 4096 = none ∧ s0.leaf.sng.waiting = [] ∧
    (onL (fun l => { l with sng := { l.sng with waiting := [⟨0, 0, 0⟩] } })).leaf.touched 0 4096 = none := by decide

/-- A tray build whose queue 2 is on. -/
def sQueue : State := onT (fun t => t.blk (fun u => { u.setReg (qcfgKey 2) 0x80000000 with pw := { u.pw with step := 2 } }))
theorem wit_append : sQueue.Open .tray ∧ sQueue.tray.u.armed 0x29 0 0 = false ∧ (sQueue.tray.queue 2).held < 1024 ∧ sQueue.tray.qb 2 31 = true ∧
    sQueue.tray.qf 2 28 2 = 0 := by decide
theorem wit_append_edge : 1024 ≤ ((onT (fun t => t.setQueue 2 { CmdQ.reset with pi := 1024 })).tray.queue 2).held ∧
    ((onT (fun t => t.setQueue 2 { CmdQ.reset with pi := 1023 })).tray.queue 2).held < 1024 ∧ s0.tray.qb 2 31 = false ∧
    (onT (fun t => t.blk (fun u => u.setReg (qcfgKey 2) 0x90000000))).tray.qf 2 28 2 ≠ 0 := by decide
theorem wit_scrub : Free s0 .tray ∧ s0.tray.flaw 2 0 = 0 ∧ (2 : Nat) ≠ 0 := by decide
theorem wit_rci : (8 : W32).toNat % 16 ≠ 0 ∧ (32 : W32).toNat % 16 = 0 := by decide
theorem wit_unknown_tx : s0.tray.txNode 1 2 = none := by decide
theorem wit_detach : (s0.leaf.u.step 1).en = false ∧ ((sStep marked4 0).leaf.u.step 0).en = true := by decide
theorem wit_thief : bit (s0.tray.u.reg R.STL_CTL) 31 = false := by decide

theorem wit_consumer : s0.leaf.hevCap < (s0.leaf.u.reg R.HEV_PI - 0xFFFFFFFF).toNat ∧ (s0.leaf.u.reg R.HEV_PI - 0).toNat ≤ s0.leaf.hevCap := by decide
theorem wit_msix : bit ((onT (fun t => t.blk (fun u => { u.setReg (pbaKey 1) 1 with pw := { u.pw with busMaster := true } }))).tray.u.reg (pbaKey 1)) 0 = true ∧
    (onT (fun t => t.blk (fun u => { u.setReg (pbaKey 1) 1 with pw := { u.pw with busMaster := true } }))).tray.u.pw.busMaster = true ∧
    s0.tray.u.pw.busMaster = false := by decide
theorem wit_compression : (onL (fun l => { l with cmp := { l.cmp with running := true } })).leaf.cmp.running = true ∧
    Free (onL (fun l => { l with cmp := { l.cmp with running := true } })) .leaf := by decide
theorem wit_supply : (180 : Byte).toNat ≤ s0.leaf.u.rstLv ∧ s0.leaf.u.rstLv < (181 : Byte).toNat ∧ (190 : Byte).toNat ≤ s0.leaf.u.warnLv ∧
    s0.leaf.u.warnLv < (191 : Byte).toNat ∧ s0.leaf.u.pw.warning = none := by decide
theorem wit_park : (onU (fun u => { u with pw := { u.pw with parked := true } })).leaf.u.pw.parked = true ∧
    Free (onU (fun u => { u with pw := { u.pw with parked := true } })) .leaf := by decide
theorem wit_debug : fld (0xDB610001 : W32) 16 16 ≠ 0xDB60 ∧ fld (0xDB600001 : W32) 16 16 = 0xDB60 ∧
    bit (0xDB600001 : W32) 0 ≠ bit (s0.leaf.u.reg R.BLK_DBG) 0 := by decide
theorem wit_injection : (0x19 : BitVec 8).toNat < 0x1A ∧ (0x18 : BitVec 8).toNat < 0x1A ∧ Nat.testBit (pgCauses s0.leaf.u.build 0x18) 1 = true ∧
    s0.leaf.u.stage 0x18 0 ≠ 2 ∧ s0.leaf.u.stage 0x19 0 ≠ 1 := by decide
theorem wit_cause : Nat.testBit (pgCauses s0.leaf.u.build 1) 2 = true ∧ bit (s0.leaf.u.reg 0x1018) 2 = false ∧ bit (s0.leaf.u.reg R.ERR_FIRST) 31 = false ∧
    bit ((s0.leaf.u.setReg 0x1018 4).reg 0x1018) 2 = true ∧ bit ((s0.leaf.u.setReg R.ERR_FIRST 0x80000000).reg R.ERR_FIRST) 31 = true := by decide
theorem wit_extend : fld (0 : W32) 0 2 = 0 ∧ fld (1 : W32) 0 2 ≠ 0 ∧ fld (3 : W32) 0 2 ≠ 0 := by decide
theorem wit_enrol : s0.leaf.u.idn.valid = false ∧ (onU (fun u => { u with idn := { u.idn with valid := true } })).leaf.u.idn.valid = true ∧
    Free (onU (fun u => { u with idn := { u.idn with valid := true } })) .leaf ∧ s0.leaf.u.idn.pending.contains .enroll = false ∧
    s0.leaf.u.flashWaits = false ∧ (onU (fun u => { u with pw := { u.pw with parked := true } })).leaf.u.flashWaits = true := by decide

end Sys2Proof.Tests
end

/-! What a run does to each build: the queue alone decides which function carries the leaf, and which the tray build, to its state after the run. -/

namespace Sys2Proof.Machine

/-- Which functions a step applies to the two builds depends on the queue alone. -/
theorem step_maps_each_build (q : List Instr) : ∃ (F : Leaf → Leaf) (G : Tray → Tray), ∀ s : State, s.pending = q →
    step s = .next ⟨F s.leaf, G s.tray, q.tail⟩ := by
  cases q with
  | nil => exact ⟨Leaf.tick, Tray.tick, fun s hq => by simp only [step, State.tick, hq, List.tail_nil]⟩
  | cons c rest =>
    obtain ⟨F, G, hexec, -, -⟩ := exec_acts c
    exact ⟨F, G, fun s hq => by simp only [step, hq, hexec, List.tail_cons]⟩

/-- Every run goes through, and which functions it applies to the two builds depends on the queue and the number of steps alone. -/
theorem run_maps_each_build (n : Nat) (q : List Instr) : ∃ (F : Leaf → Leaf) (G : Tray → Tray), ∀ s : State, s.pending = q →
    State.run n s = some ⟨F s.leaf, G s.tray, q.drop n⟩ := by
  induction n generalizing q with
  | zero => exact ⟨id, id, fun s hq => by simp only [State.run, id, List.drop_zero, ← hq]⟩
  | succ n ih =>
    obtain ⟨F, G, hstep⟩ := step_maps_each_build q
    obtain ⟨F', G', hrun⟩ := ih q.tail
    exact ⟨F' ∘ F, G' ∘ G, fun s hq => by
      simp only [State.run, hstep s hq, hrun, List.drop_tail, Function.comp_apply]⟩

end Sys2Proof.Machine

namespace Sys2Proof.Slice0

open Sys2Proof.Machine

/-- Settles O5: states whose queues agree go through the same function of the leaf and the same function of the tray build. -/
theorem buildsRunIndependently : Obligations.BuildsRunIndependently := by
  intro n s1 s2 hq
  obtain ⟨F, G, hrun⟩ := run_maps_each_build n s1.pending
  exact ⟨_, _, hrun s1 rfl, hrun s2 hq.symm, rfl, congrArg F, congrArg G⟩

end Sys2Proof.Slice0

/-! What recording an event leaves: the kind of build, its hold, the time bases, the slot clocks, and the registers that only a reset or driver software writes. -/

namespace Sys2Proof.Machine

/-- What no report, cause, injection or message of a build moves: its time and slot clocks, its hold, the cause of its last reset, and the least distance of
step marks. -/
structure Frame where
  build : Build
  held : Option ResetKind
  clk : Clock
  steps : SMap StepClk
  rstCause : W32
  minPer : W32

/-- The frame of a build. -/
def Blk.frame (u : Blk) : Frame := ⟨u.build, u.held, u.clk, u.steps, u.reg R.BLK_RSTCAUSE, u.reg R.STEP_MINPER⟩

theorem held_of_frame {u v : Blk} (h : v.frame = u.frame) : v.held = u.held := congrArg Frame.held h
theorem clk_of_frame {u v : Blk} (h : v.frame = u.frame) : v.clk = u.clk := congrArg Frame.clk h
theorem steps_of_frame {u v : Blk} (h : v.frame = u.frame) : v.steps = u.steps := congrArg Frame.steps h
theorem step_of_frame {u v : Blk} (h : v.frame = u.frame) (k : Nat) : v.step k = u.step k :=
  congrArg (fun m => smGet m k StepClk.reset) (steps_of_frame h)
theorem minPer_of_frame {u v : Blk} (h : v.frame = u.frame) : v.reg R.STEP_MINPER = u.reg R.STEP_MINPER :=
  congrArg Frame.minPer h

/-- A key of a page header, or of a page behind those of time and steps: no register of the frame. -/
abbrev Aside (k : Nat) : Prop := k % 0x1000 < 0x40 ∨ 0x3000 ≤ k

/-- A register of a table, or of one copy of a page, behind the pages of time and steps. -/
theorem aside_add {r : Nat} (h : 0x3000 ≤ r) (n : Nat) : Aside (r + n) := .inr (Nat.le_add_right_of_le h)

/-- A header register of any copy of any page. -/
theorem aside_header (p n : Nat) {o : Nat} (h : o < 0x40) : Aside (inst (p * 0x1000 + o) n) := .inl (by simp only [inst]; omega)

theorem setReg_frame (u : Blk) {k : Nat} (v : W32) (h : Aside k) : (u.setReg k v).frame = u.frame := by
  have hr : R.BLK_RSTCAUSE ≠ k := by rintro rfl; exact absurd h (by decide)
  have hm : R.STEP_MINPER ≠ k := by rintro rfl; exact absurd h (by decide)
  simp only [Blk.frame, reg_setReg_ne u v hr, reg_setReg_ne u v hm, Blk.setReg_build, Blk.setReg_held, Blk.setReg_clk, Blk.setReg_steps]

theorem setN_frame (u : Blk) {k : Nat} (v : Nat) (h : Aside k) : (u.setN k v).frame = u.frame := setReg_frame u _ h
theorem modReg_frame (u : Blk) {k : Nat} (f : W32 → W32) (h : Aside k) : (u.modReg k f).frame = u.frame := setReg_frame u _ h
theorem bump_frame (u : Blk) {k : Nat} (h : Aside k) : (u.bump k).frame = u.frame := setReg_frame u _ h
theorem bumpBy_frame (u : Blk) {k : Nat} (n : Nat) (h : Aside k) : (u.bumpBy k n).frame = u.frame := setReg_frame u _ h
theorem count_frame (u : Blk) {k : Nat} (n : Nat) (h : Aside k) : (u.count k n).frame = u.frame := setReg_frame u _ h
theorem setRb_frame (u : Blk) {k : Nat} (i : Nat) (b : Bool) (h : Aside k) : (u.setRb k i b).frame = u.frame := setReg_frame u _ h

theorem peak_frame (u : Blk) {k : Nat} (v : Nat) (h : Aside k) : (u.peak k v).frame = u.frame := by
  simp only [Blk.peak, apply_ite Blk.frame, setN_frame u v h, ite_self]

theorem bumpSeq_frame (u : Blk) (p n : Nat) : (u.bumpSeq p n).frame = u.frame := count_frame u 1 (aside_header p n (by decide))

/-- The history and the recorder are no part of the frame. -/
theorem frame_his (u : Blk) (h : History) : ({ u with his := h } : Blk).frame = u.frame := rfl
theorem frame_rcd (u : Blk) (r : Recorder) : ({ u with rcd := r } : Blk).frame = u.frame := rfl

@[simp] theorem emit_frame (u : Blk) (o : Out) : (u.emit o).frame = u.frame := rfl

/-- A fold whose steps keep the frame keeps it. -/
theorem foldl_frame {β : Type} (f : Blk → β → Blk) (l : List β) (u : Blk) (h : ∀ v b, (f v b).frame = v.frame) :
    (l.foldl f u).frame = u.frame := foldl_keeps Blk.frame f l u h

/-! ### Causes -/

@[simp] theorem msixSend_frame (u : Blk) (v : Nat) : (u.msixSend v).frame = u.frame := by
  have hk : Aside (pbaKey (v / 32)) := aside_add (by decide) _
  simp only [Blk.msixSend, apply_ite Blk.frame, setRb_frame u _ _ hk, emit_frame, ite_self]

@[simp] theorem errInterrupt_frame (u : Blk) : u.errInterrupt.frame = u.frame := by
  unfold Blk.errInterrupt
  split
  · rfl
  · exact msixSend_frame _ _

@[simp] theorem fillFirst_frame (u : Blk) (p i : Nat) : (u.fillFirst p i).frame = u.frame := by
  simp (disch := decide) only [Blk.fillFirst, apply_ite Blk.frame, setN_frame, ite_self]

theorem causeAt_frame (u : Blk) {k : Nat} (p i : Nat) (h : Aside k) : (u.causeAt k p i).frame = u.frame := by
  simp only [Blk.causeAt, apply_ite Blk.frame, errInterrupt_frame, fillFirst_frame, setRb_frame u i true h, ite_self]

@[simp] theorem cause_frame (u : Blk) (p n i : Nat) : (u.cause p n i).frame = u.frame := by
  unfold Blk.cause
  split
  · exact causeAt_frame u _ i (aside_header p n (by decide))
  · rfl

/-! ### The recorder and its feed to the flash history -/

@[simp] theorem takeSeq_frame (u : Blk) : u.takeSeq.frame = u.frame := count_frame u 1 (by decide)

@[simp] theorem createRam_frame (u : Blk) (d : Rec) (o : Bool) : (u.createRam d o).1.frame = u.frame := by
  simp (disch := decide) only [Blk.createRam, apply_ite Blk.frame, cause_frame, bump_frame]
  exact (ite_self _).trans (takeSeq_frame u)

@[simp] theorem hisQueue_frame (u : Blk) (k : RecKind) (p : BitVec 160) (role : HRole) : (u.hisQueue k p role).frame = u.frame := by
  simp only [Blk.hisQueue, Blk.hisOwn, frame_his, createRam_frame]

@[simp] theorem headerDue_frame (u : Blk) : u.headerDue.frame = u.frame := by
  simp only [Blk.headerDue, Blk.queueHeader, apply_ite Blk.frame, hisQueue_frame, ite_self]

@[simp] theorem hisStage_frame (u : Blk) (r : Rec) : (u.hisStage r).1.frame = u.frame := by
  unfold Blk.hisStage
  extract_lets h
  split
  · exact headerDue_frame _
  · exact (cause_frame _ _ _ _).trans (bump_frame _ (by decide))

@[simp] theorem hisTick_frame (u : Blk) (r : Rec) : (u.hisTick r).frame = u.frame := by
  unfold Blk.hisTick
  split
  · exact hisStage_frame u _
  · split
    · rfl
    · exact hisStage_frame u _

@[simp] theorem hisFeed_frame (u : Blk) (r : Rec) : (u.hisFeed r).1.frame = u.frame := by
  unfold Blk.hisFeed
  split
  · split
    · split
      · exact hisTick_frame u r
      · exact hisStage_frame u r
    · exact hisStage_frame u r
  · rfl

@[simp] theorem create_frame (u : Blk) (d : Rec) (o : Bool) : (u.create d o).frame = u.frame :=
  (hisFeed_frame _ _).trans (createRam_frame u d o)

@[simp] theorem reported_frame (u : Blk) (d : Rec) : (u.reported d).frame = u.frame := by
  unfold Blk.reported
  split
  · split
    · simp only [apply_ite Blk.frame, hisTick_frame]
      exact ite_self _
    · exact create_frame u d false
  · exact create_frame u d false

@[simp] theorem report_frame (u : Blk) (k : RecKind) (src : StampSrc) (p : BitVec 160) : (u.report k src p).frame = u.frame := by
  unfold Blk.report
  extract_lets d
  split
  · rfl
  · exact reported_frame u d

@[simp] theorem reportOpen_frame (u : Blk) (p n : Nat) (src : StampSrc) (data : List Nat) : (u.reportOpen p n src data).frame = u.frame :=
  report_frame u _ src _

@[simp] theorem ungather_frame (u : Blk) : u.ungather.frame = u.frame := foldl_frame _ _ _ reported_frame

/-! ### Injections and messages -/

@[simp] theorem fire_frame (u : Blk) (p n i : Nat) (m : Bool) : (u.fire p n i m).frame = u.frame := by
  have hk : Aside (inst (p * 0x1000 + H.PGINJ) n) := aside_header p n (by decide)
  simp (disch := decide) only [Blk.fire, apply_ite Blk.frame, setRb_frame _ i false hk, cause_frame, bump_frame, report_frame, ite_self]

@[simp] theorem modPort_frame (u : Blk) (p : Nat) (f : Port → Port) : (u.modPort p f).frame = u.frame := rfl

@[simp] theorem commit_frame (u : Blk) (p q : Nat) (m : Msg) : (u.commit p q m).frame = u.frame := by
  have hk : Aside (inst R.SCH_LATE p) := aside_add (by decide) _
  simp only [Blk.commit, apply_ite Blk.frame, fire_frame, modPort_frame, bump_frame u hk, ite_self]

@[simp] theorem enqueue_frame (u : Blk) (p q : Nat) (m : Msg) : (u.enqueue p q m).frame = u.frame := by
  simp only [Blk.enqueue, apply_ite Blk.frame, commit_frame, modPort_frame, ite_self]

end Sys2Proof.Machine

/-! What the leaf's trace leaves: the merge, windows and summaries keep the frame. -/

namespace Sys2Proof.Machine

@[simp] theorem modSrc_u (l : Leaf) (s : Nat) (f : TrcSrc → TrcSrc) : (l.modSrc s f).u = l.u := rfl

/-- A fold over a leaf whose steps keep the frame keeps it. -/
theorem foldl_uframe {β : Type} (f : Leaf → β → Leaf) (xs : List β) (l : Leaf) (h : ∀ m b, (f m b).u.frame = m.u.frame) :
    (xs.foldl f l).u.frame = l.u.frame := foldl_keeps (fun m : Leaf => m.u.frame) f xs l h

@[simp] theorem loseItems_frame (l : Leaf) (s n : Nat) : (l.loseItems s n).u.frame = l.u.frame :=
  bumpBy_frame l.u n (aside_add (by decide) _)

@[simp] theorem enterLoss_frame (l : Leaf) (s r : Nat) : (l.enterLoss s r).u.frame = l.u.frame := by
  unfold Leaf.enterLoss
  split
  · rfl
  · simp only [Leaf.blk_u, reportOpen_frame, cause_frame, loseItems_frame, modSrc_u]

@[simp] theorem putWords_frame (l : Leaf) (s : Nat) (ws : List W64) : (l.putWords s ws).u.frame = l.u.frame :=
  count_frame l.u 1 (aside_add (by decide) _)

@[simp] theorem putControl_frame (l : Leaf) (s : Nat) (ws : List W64) : (l.putControl s ws).u.frame = l.u.frame := by
  unfold Leaf.putControl
  split
  · exact putWords_frame l s ws
  · simp (disch := decide) only [enterLoss_frame, Leaf.blk_u, cause_frame, bump_frame]

@[simp] theorem resetLossFirst_frame (l : Leaf) (s : Nat) : (l.resetLossFirst s).u.frame = l.u.frame := by
  unfold Leaf.resetLossFirst
  split
  · rfl
  · simp only [putControl_frame, modSrc_u]

@[simp] theorem putOrdinary_frame (l : Leaf) (s : Nat) (ws : List W64) : (l.putOrdinary s ws).1.u.frame = l.u.frame := by
  unfold Leaf.putOrdinary
  extract_lets n
  split
  · exact enterLoss_frame l s 0
  · split
    · exact enterLoss_frame l s 1
    · exact putWords_frame l s ws

@[simp] theorem closeRun_frame (l : Leaf) (s : Nat) : (l.closeRun s).1.u.frame = l.u.frame := by
  unfold Leaf.closeRun
  split
  · rfl
  · extract_lets r
    have hr : r.1.u.frame = l.u.frame := by simp only [r, putOrdinary_frame, resetLossFirst_frame]
    split <;> exact hr

@[simp] theorem sendControl_frame (l : Leaf) (s : Nat) (ws : List W64) : (l.sendControl s ws).u.frame = l.u.frame := by
  unfold Leaf.sendControl
  extract_lets m
  have hm : m.u.frame = l.u.frame := by simp only [m, resetLossFirst_frame, closeRun_frame]
  split <;> simp only [putControl_frame, enterLoss_frame, hm]

@[simp] theorem writeSync_frame (l : Leaf) (s : Nat) (due : SyncDue) (a : W64) (v : Nat) (ns st : W64) :
    (l.writeSync s due a v ns st).u.frame = l.u.frame := by
  unfold Leaf.writeSync
  extract_lets r l1 l2 l3 l4
  have h2 : l2.u.frame = l.u.frame := by simp only [l2, l1, resetLossFirst_frame, closeRun_frame, modSrc_u]
  have h3 : l3.u.frame = l.u.frame := by
    simp only [l3]
    split <;> simp only [enterLoss_frame, h2]
  split
  · exact h3
  · split <;> simp only [l4, modSrc_u, putControl_frame, h3]

@[simp] theorem itemPackets_frame (l : Leaf) (s : Nat) (i : TrcItem) (f : Nat) : (l.itemPackets s i f).u.frame = l.u.frame := by
  unfold Leaf.itemPackets
  split
  · split
    · split
      · rfl
      · extract_lets r
        split <;> simp only [r, modSrc_u, loseItems_frame, closeRun_frame]
    · rfl
  · extract_lets ws r q
    split
    · split <;> simp only [q, r, loseItems_frame, putOrdinary_frame, resetLossFirst_frame, closeRun_frame]
    · simp only [r, loseItems_frame, closeRun_frame]

@[simp] theorem mergeEntry_frame (l : Leaf) (s : Nat) (e : TrcEnt) : (l.mergeEntry s e).u.frame = l.u.frame := by
  cases e with
  | item i f due v ns st =>
    simp only [Leaf.mergeEntry]
    split
    · simp only [loseItems_frame, modSrc_u]
    · split
      · split <;> simp only [loseItems_frame, itemPackets_frame, writeSync_frame]
      · exact itemPackets_frame l s i f
  | stop w =>
    simp only [Leaf.mergeEntry]
    split <;> simp only [modSrc_u, sendControl_frame]
  | resume ws => simp only [Leaf.mergeEntry, modSrc_u, sendControl_frame]

@[simp] theorem moveHead_frame (l : Leaf) (s : Nat) : (l.moveHead s).u.frame = l.u.frame := by
  unfold Leaf.moveHead
  split
  · rfl
  · simp only [mergeEntry_frame, modSrc_u]

@[simp] theorem turn_frame (l : Leaf) (s : Nat) : (l.turn s).u.frame = l.u.frame := by
  unfold Leaf.turn
  extract_lets r
  split
  · exact resetLossFirst_frame l s
  · exact moveHead_frame l s

@[simp] theorem mergeTurns_frame (l : Leaf) (room n : Nat) : (l.mergeTurns room n).u.frame = l.u.frame := by
  induction n generalizing l room with
  | zero => rfl
  | succ n ih =>
    simp only [Leaf.mergeTurns]
    split
    · rfl
    · split
      · rfl
      · rw [ih]
        exact turn_frame l _

@[simp] theorem mergeCycles_frame (l : Leaf) (n : Nat) : (l.mergeCycles n).u.frame = l.u.frame := by
  induction n generalizing l with
  | zero => rfl
  | succ n ih => simp only [Leaf.mergeCycles, ih, mergeTurns_frame]

@[simp] theorem merge_frame (l : Leaf) : l.merge.u.frame = l.u.frame := mergeCycles_frame l _

@[simp] theorem fall_u (l : Leaf) (s r w : Nat) : (l.fall s r w).u = l.u := rfl

@[simp] theorem windowsMoved_u (l : Leaf) (was : Bool) (o c : List Nat) (s : Nat) : (l.windowsMoved was o c s).u = l.u := by
  simp only [Leaf.windowsMoved, apply_ite Leaf.u, fall_u, modSrc_u, ite_self]

@[simp] theorem setWindows_frame (l : Leaf) (ws : Byte) : (l.setWindows ws).u.frame = l.u.frame := by
  unfold Leaf.setWindows
  extract_lets old m opened closed was
  split
  · rfl
  · rw [merge_frame, foldl_uframe _ _ _ (fun a s => congrArg Blk.frame (windowsMoved_u a _ _ _ s))]
    exact merge_frame l

@[simp] theorem traceSummary_frame (l : Leaf) (slot : Nat) (idx : W32) (ended : Bool) : (l.traceSummary slot idx ended).u.frame = l.u.frame := by
  unfold Leaf.traceSummary
  extract_lets m bound some msg m'
  have hm : m'.u.frame = l.u.frame := by
    simp only [m']
    split
    · simp (disch := decide) only [Leaf.blk_u, apply_ite Blk.frame, commit_frame, bump_frame, m, merge_frame, ite_self]
    · exact merge_frame l
  rw [foldl_uframe _ bound m' (fun a s => congrArg Blk.frame (modSrc_u a s _)), hm]

end Sys2Proof.Machine

/-! What the counter ring, the sampler and the reads of the counter store leave: a cycle of the ring keeps the frame. -/

namespace Sys2Proof.Machine

@[simp] theorem setCounter_u (l : Leaf) (n : Nat) (c : Counter) : (l.setCounter n c).u = l.u := rfl
@[simp] theorem setSampler_u (l : Leaf) (s : Nat) (x : SlotSampler) : (l.setSampler s x).u = l.u := rfl
@[simp] theorem setSel_u (l : Leaf) (s : Nat) (x : SelList) : (l.setSel s x).u = l.u := rfl
@[simp] theorem launchMarker_frame (l : Leaf) : l.launchMarker.u.frame = l.u.frame := rfl

@[simp] theorem readCounter_frame (l : Leaf) (n : Nat) : (l.readCounter n).1.u.frame = l.u.frame := by
  unfold Leaf.readCounter
  split
  · simp (disch := decide) only [Leaf.blk_u, report_frame, cause_frame, bump_frame, setCounter_u]
  · rfl

@[simp] theorem counterAdd_frame (l : Leaf) (n v : Nat) (sat : Bool) : (l.counterAdd n v sat).u.frame = l.u.frame := by
  unfold Leaf.counterAdd
  extract_lets f c m m'
  have hm : m.u.frame = l.u.frame := readCounter_frame l n
  split
  · exact hm
  · split
    · exact hm
    · simp (disch := decide) only [Leaf.blk_u, cause_frame, setRb_frame, reportOpen_frame, m', setCounter_u, hm]

@[simp] theorem slotMismatch_frame (l : Leaf) : l.slotMismatch.u.frame = l.u.frame := by
  simp (disch := decide) only [Leaf.slotMismatch, Leaf.blk_u, cause_frame, bump_frame]

@[simp] theorem applySlot_frame (l : Leaf) (k s v : Nat) (sat free : Bool) : (l.applySlot k s v sat free).u.frame = l.u.frame := by
  unfold Leaf.applySlot
  extract_lets e n
  split
  · exact slotMismatch_frame l
  · split
    · rfl
    · split
      · rfl
      · exact counterAdd_frame l n v sat

@[simp] theorem tapWindows_frame (l : Leaf) (s v : Nat) : (l.tapWindows s v).u.frame = l.u.frame := by
  refine foldl_uframe _ _ l (fun m e => ?_)
  split
  · simp only [apply_ite Leaf.u, apply_ite Blk.frame, Leaf.blk_u, cause_frame, ite_self]
  · rfl

@[simp] theorem markerReturn_frame (l : Leaf) : l.markerReturn.u.frame = l.u.frame := by
  unfold Leaf.markerReturn
  split
  · rfl
  · split
    · exact fire_frame l.u _ _ _ _
    · exact setN_frame l.u _ (by decide)

@[simp] theorem slotIn_frame (l : Leaf) (w : W64) (free : Bool) : (l.slotIn w free).u.frame = l.u.frame := by
  unfold Leaf.slotIn
  extract_lets kind source v m
  split
  · rfl
  · split
    · split
      · split
        · exact markerReturn_frame l
        · exact slotMismatch_frame l
      · exact slotMismatch_frame l
    · split
      · exact slotMismatch_frame l
      · rw [applySlot_frame]
        simp only [m, apply_ite Leaf.u, apply_ite Blk.frame, tapWindows_frame, ite_self]

/-! ### Sample reads -/

@[simp] theorem feature_frame (l : Leaf) (s i : Nat) (e : W32) : (l.feature s i e).1.u.frame = l.u.frame := by
  unfold Leaf.feature
  extract_lets kind n r
  split
  · rfl
  · split
    · exact readCounter_frame l n
    · split
      · exact readCounter_frame l n
      · split
        · rfl
        · split <;> rfl

@[simp] theorem sampleStep_frame (l : Leaf) (r : SampleRead) : (l.sampleStep r).1.u.frame = l.u.frame := by
  simp only [Leaf.sampleStep, apply_ite Leaf.u, feature_frame, ite_self]

@[simp] theorem smpCount_frame (l : Leaf) (s lo : Nat) : (l.smpCount s lo).u.frame = l.u.frame :=
  modReg_frame l.u _ (aside_add (by decide) _)

@[simp] theorem smpRefuse_frame (l : Leaf) (s lo : Nat) (c : Option Nat) : (l.smpRefuse s lo c).u.frame = l.u.frame := by
  cases c with
  | none => exact smpCount_frame l s lo
  | some c => exact (cause_frame _ _ _ _).trans (smpCount_frame l s lo)

@[simp] theorem withheldRecord_frame (u : Blk) (s i : Nat) : (u.withheldRecord s i).frame = u.frame := by
  simp only [Blk.withheldRecord, reportOpen_frame, apply_ite Blk.frame, frame_rcd, ite_self]

@[simp] theorem withhold_frame (l : Leaf) (r : SampleRead) : (l.withhold r).u.frame = l.u.frame := by
  simp only [Leaf.withhold, Leaf.blk_u, withheldRecord_frame, cause_frame, setSampler_u, smpCount_frame]

@[simp] theorem buildFrame_frame (l : Leaf) (r : SampleRead) (words : List W32) : (l.buildFrame r words).u.frame = l.u.frame := by
  have hcred : Aside (R.SMP_CRED + 4 * r.slot) := aside_add (by decide) _
  have hseq : Aside (R.SMP_SEQ + 4 * r.slot) := aside_add (by decide) _
  have hsent : Aside (R.SMP_FRAMES + 4 * r.slot) := aside_add (by decide) _
  simp only [Leaf.buildFrame, apply_ite Leaf.u, apply_ite Blk.frame, withhold_frame, Leaf.blk_u,
    foldl_frame _ _ _ (fun v b => enqueue_frame v 0 2 _), count_frame _ _ hsent, count_frame _ _ hseq, setN_frame _ _ hcred, setSampler_u,
    ite_self]

@[simp] theorem sampleDone_frame (l : Leaf) (r : SampleRead) : (l.sampleDone r).u.frame = l.u.frame := by
  simp only [Leaf.sampleDone, Leaf.decimate, apply_ite Leaf.u, apply_ite Blk.frame, buildFrame_frame, setSampler_u, smpCount_frame, ite_self]

/-! ### The cycle of the ring -/

/-- A time that is reached already takes no cycles to reach. -/
theorem toTb1_of_reached (u : Blk) {t : W64} (h : reached64 u.clk.tb1 t = true) : u.toTb1 t = u := by
  simp only [Blk.toTb1, Clock.cyclesToTb1, h, if_true, Blk.adv, Clock.adv_zero]

/-- A held read that is due is performed in the present cycle. -/
theorem serveOne_frame (l : Leaf) (h : l.readDue = true) : l.serveOne.u.frame = l.u.frame := by
  unfold Leaf.readDue at h
  unfold Leaf.serveOne
  split
  · rfl
  · rename_i x t hheld
    have hdue : reached64 l.u.clk.tb1 x.due = true := by simpa only [hheld] using h
    extract_lets m left keep
    have hm : m.u.frame = l.u.frame := congrArg Blk.frame (toTb1_of_reached l.u hdue)
    split
    · extract_lets s l2
      have h2 : l2.u.frame = l.u.frame := (sampleStep_frame m _).trans hm
      split
      · exact (sampleDone_frame l2 _).trans h2
      · exact h2
    · simp (disch := decide) only [keep, Leaf.doCapture, Leaf.blk_u, setRb_frame, setN_frame, readCounter_frame, hm]
    · exact hm
    · exact hm

@[simp] theorem slotArrival_frame (l : Leaf) (w : W64) : (l.slotArrival w).u.frame = l.u.frame := by
  unfold Leaf.slotArrival
  extract_lets due l1 l2 inj l3
  have h1 : l1.u.frame = l.u.frame := by
    simp only [l1]
    split
    · rename_i hdue
      exact serveOne_frame l hdue
    · rfl
  have h2 : l2.u.frame = l.u.frame := by
    simp only [l2, apply_ite Leaf.u, apply_ite Blk.frame, launchMarker_frame, h1, ite_self]
  have h3 : l3.u.frame = l.u.frame := by
    simp only [l3, apply_ite Leaf.u, apply_ite Blk.frame, Leaf.blk_u, fire_frame, h2, ite_self]
  split
  · simp (disch := decide) only [Leaf.blk_u, report_frame, cause_frame, bump_frame, h3]
  · exact (slotIn_frame l3 w _).trans h3

@[simp] theorem freeSlot_frame (l : Leaf) : l.freeSlot.u.frame = l.u.frame := by
  unfold Leaf.freeSlot
  split
  · rfl
  · split
    · rfl
    · exact slotArrival_frame _ _

@[simp] theorem ringCycle_frame (l : Leaf) : l.ringCycle.u.frame = l.u.frame := by
  unfold Leaf.ringCycle
  split
  · rename_i h
    exact serveOne_frame l h
  · exact freeSlot_frame l

end Sys2Proof.Machine

/-! What the schedule's entries, bank swaps, snapshot arms and notices leave: all but a mark itself keeps the slot clocks. -/

namespace Sys2Proof.Machine

@[simp] theorem hasFired_u (l : Leaf) (s n : Nat) : (l.hasFired s n).u = l.u := rfl
@[simp] theorem fprForget_u (l : Leaf) : l.fprForget.u = l.u := rfl

@[simp] theorem selSwapNow_frame (l : Leaf) (s : Nat) : (l.selSwapNow s).u.frame = l.u.frame := by
  simp only [Leaf.selSwapNow, Leaf.blk_u, apply_ite Blk.frame, cause_frame, bumpSeq_frame, setSel_u, ite_self]

@[simp] theorem samplerMark_frame (l : Leaf) (s : Nat) : (l.samplerMark s).u.frame = l.u.frame := by
  simp only [Leaf.samplerMark, apply_ite Leaf.u, apply_ite Blk.frame, selSwapNow_frame, setSampler_u, ite_self]

@[simp] theorem slotSwap_frame (l : Leaf) (s : Nat) : (l.slotSwap s).u.frame = l.u.frame := by
  simp only [Leaf.slotSwap, apply_ite Leaf.u, apply_ite Blk.frame, Leaf.blk_u, bumpSeq_frame, cause_frame, ite_self]

@[simp] theorem sendNotice_frame (l : Leaf) (s : Nat) : (l.sendNotice s).u.frame = l.u.frame := enqueue_frame l.u _ _ _

@[simp] theorem fireSample_frame (l : Leaf) (s p e : Nat) : (l.fireSample s p e).u.frame = l.u.frame := by
  unfold Leaf.fireSample
  extract_lets c x r
  split
  · rfl
  · split
    · exact smpRefuse_frame l s 24 _
    · split
      · exact smpRefuse_frame l s 16 _
      · rfl

@[simp] theorem armNow_frame (l : Leaf) (slot : Option Nat) : (l.armNow slot).u.frame = l.u.frame := by
  unfold Leaf.armNow
  split
  · simp (disch := decide) only [Leaf.blk_u, report_frame, cause_frame, bump_frame]
  · simp (disch := decide) only [Leaf.blk_u, report_frame, emit_frame, setN_frame, setReg_frame, count_frame, fprForget_u]

@[simp] theorem arm_frame (l : Leaf) (slot : Option Nat) : (l.arm slot).u.frame = l.u.frame := by
  simp only [Leaf.arm, apply_ite Leaf.u, apply_ite Blk.frame, armNow_frame, ite_self]

@[simp] theorem act_frame (l : Leaf) (s n : Nat) (w : Byte) : (l.act s n w).1.u.frame = l.u.frame := by
  unfold Leaf.act
  extract_lets a point m twin
  split
  · simp only [apply_ite Leaf.u, apply_ite Blk.frame, fireSample_frame, m, hasFired_u, ite_self]
  · exact arm_frame m _
  · rfl
  · rfl
  · exact reportOpen_frame m.u _ _ _ _

@[simp] theorem fireReached_frame (l : Leaf) (slots : List Nat) : (l.fireReached slots).u.frame = l.u.frame := by
  rw [Leaf.fireReached, setWindows_frame]
  exact foldl_keeps (fun x : Leaf × Byte => x.1.u.frame) _ _ _ (fun x e => act_frame x.1 _ _ _)

end Sys2Proof.Machine

/-! What a step mark does to its slot (R39, R40, R41), and that it leaves the other slot. -/

namespace Sys2Proof.Machine

@[simp] theorem step_setStep_same (u : Blk) (s : Nat) (c : StepClk) : (u.setStep s c).step s = c := smGet_set_same u.steps s c _

theorem step_setStep_ne (u : Blk) {s k : Nat} (c : StepClk) (h : k ≠ s) : (u.setStep s c).step k = u.step k :=
  smGet_set_ne u.steps c _ _ h

/-- Time, `STEP.MINPER` and every slot clock but one are as before. -/
structure OnlySlot (slot : Nat) (u v : Blk) : Prop where
  clk : v.clk = u.clk
  minPer : v.reg R.STEP_MINPER = u.reg R.STEP_MINPER
  other : ∀ k, k ≠ slot → v.step k = u.step k

theorem onlySlot_of_frame {u v : Blk} (slot : Nat) (h : v.frame = u.frame) : OnlySlot slot u v :=
  ⟨clk_of_frame h, minPer_of_frame h, fun k _ => step_of_frame h k⟩

theorem OnlySlot.trans {slot : Nat} {u v w : Blk} (h : OnlySlot slot u v) (g : OnlySlot slot v w) : OnlySlot slot u w :=
  ⟨g.clk.trans h.clk, g.minPer.trans h.minPer, fun k hk => (g.other k hk).trans (h.other k hk)⟩

theorem onlySlot_setStep (u : Blk) (slot : Nat) (c : StepClk) : OnlySlot slot u (u.setStep slot c) :=
  ⟨rfl, rfl, fun _ hk => step_setStep_ne u c hk⟩

theorem scheduleSkip_only (l : Leaf) (slot : Nat) : OnlySlot slot l.u (l.scheduleSkip slot).u := by
  unfold Leaf.scheduleSkip
  extract_lets ns
  split
  · exact onlySlot_of_frame slot rfl
  · exact (onlySlot_setStep _ slot _).trans (onlySlot_of_frame slot (reportOpen_frame _ _ _ _ _))

theorem scheduleSkip_step (l : Leaf) (slot : Nat) : ∃ n, (l.scheduleSkip slot).u.step slot = { l.u.step slot with cntSkip := n } := by
  unfold Leaf.scheduleSkip
  extract_lets ns
  split
  · exact ⟨_, rfl⟩
  · exact ⟨_, (step_of_frame (reportOpen_frame _ _ _ _ _) slot).trans (step_setStep_same _ _ _)⟩

theorem takeEpoch_only (l : Leaf) (slot : Nat) : OnlySlot slot l.u (l.takeEpoch slot).u := by
  unfold Leaf.takeEpoch
  extract_lets c
  split
  · exact onlySlot_of_frame slot rfl
  · exact onlySlot_setStep _ slot _

theorem takeEpoch_step (l : Leaf) (slot : Nat) :
    ∃ e x, (l.takeEpoch slot).u.step slot = { l.u.step slot with epoch := e, epochNext := x } := by
  unfold Leaf.takeEpoch
  extract_lets c
  split
  · exact ⟨_, _, rfl⟩
  · exact ⟨_, _, step_setStep_same _ _ _⟩

/-- The measured step of a mark at `now`: the cycles since the last accepted one, where there is one (R40). -/
def StepClk.measure (c : StepClk) (now : W64) : Option Nat := if c.haveMark then some (now - c.markAt).toNat else none

/-- What skipped entries and a waiting epoch add to the slot is no part of what the mark measures. -/
theorem marked_cntSkip (c : StepClk) (n : Nat) (now : W64) (m : Option Nat) :
    ({ c with cntSkip := n } : StepClk).marked now m = { c.marked now m with cntSkip := n } := by
  cases m <;> rfl

/-- The part of an accepted mark before the slot's clock takes it: the ended step is accounted for. -/
def Leaf.endStep (l : Leaf) (slot : Nat) : Leaf :=
  (if (l.u.step slot).haveMark then l.scheduleSkip slot else l).traceSummary slot (l.u.step slot).idx (l.u.step slot).haveMark

/-- The slot's clock takes an accepted mark (R40, R41). -/
def Leaf.clockMark (l : Leaf) (slot : Nat) : Leaf :=
  let c := l.u.step slot
  l.blk (fun u => u.setStep slot { c.marked u.clk.tb1 (c.measure u.clk.tb1) with acceptedAt := some u.clk.tb1 })

/-- The part of an accepted mark after the slot's clock has taken it: the sampler and the schedule follow, and a notice goes out. -/
def Leaf.followMark (l : Leaf) (slot : Nat) : Leaf :=
  let l := (l.samplerMark slot).slotSwap slot
  let l := { l with sch := { l.sch with fired := l.sch.fired.filter (fun e => decide (e.1 / 64 ≠ slot)) } }
  if (l.u.step slot).notice then l.sendNotice slot else l

/-- An accepted mark in its parts. -/
theorem acceptMark_eq (l : Leaf) (slot : Nat) : l.acceptMark slot = (((l.endStep slot).clockMark slot).takeEpoch slot).followMark slot := by
  rfl

@[simp] theorem followMark_frame (l : Leaf) (slot : Nat) : (l.followMark slot).u.frame = l.u.frame := by
  simp only [Leaf.followMark, apply_ite Leaf.u, apply_ite Blk.frame, sendNotice_frame, slotSwap_frame, samplerMark_frame, ite_self]

theorem endStep_only (l : Leaf) (slot : Nat) : OnlySlot slot l.u (l.endStep slot).u := by
  refine OnlySlot.trans ?_ (onlySlot_of_frame slot (traceSummary_frame _ _ _ _))
  split
  · exact scheduleSkip_only l slot
  · exact onlySlot_of_frame slot rfl

theorem endStep_step (l : Leaf) (slot : Nat) : ∃ n, (l.endStep slot).u.step slot = { l.u.step slot with cntSkip := n } := by
  rw [Leaf.endStep, step_of_frame (traceSummary_frame _ _ _ _)]
  split
  · exact scheduleSkip_step l slot
  · exact ⟨_, rfl⟩

theorem acceptMark_only (l : Leaf) (slot : Nat) : OnlySlot slot l.u (l.acceptMark slot).u := by
  rw [acceptMark_eq]
  exact (((endStep_only l slot).trans (onlySlot_setStep _ slot _)).trans (takeEpoch_only ((l.endStep slot).clockMark slot) slot)).trans
    (onlySlot_of_frame slot (followMark_frame _ slot))

/-- The clock of a slot after an accepted mark (R40, R41): what `StepClk.marked` makes of it, with the count of skipped entries and the epoch that the
mark brings. -/
theorem acceptMark_step (l : Leaf) (slot : Nat) : ∃ n e x, (l.acceptMark slot).u.step slot =
    { (l.u.step slot).marked l.u.clk.tb1 ((l.u.step slot).measure l.u.clk.tb1) with
      acceptedAt := some l.u.clk.tb1, cntSkip := n, epoch := e, epochNext := x } := by
  obtain ⟨n, hskip⟩ := endStep_step l slot
  rw [acceptMark_eq, step_of_frame (followMark_frame _ slot)]
  obtain ⟨e, x, hepoch⟩ := takeEpoch_step ((l.endStep slot).clockMark slot) slot
  refine ⟨n, e, x, ?_⟩
  rw [hepoch, Leaf.clockMark, Leaf.blk_u, step_setStep_same, hskip, (endStep_only l slot).clk, marked_cntSkip]
  rfl

end Sys2Proof.Machine

/-! The marks of one cycle (R39): what becomes of each slot, and that a cycle in which every mark is passed over changes nothing. -/

namespace Sys2Proof.Machine

/-- A mark leaves the slot's clock as it is (R39): the slot is not attached, takes register marks only, or has had this cycle's mark. -/
def StepClk.PassesOver (c : StepClk) (port : Bool) (now : W64) : Prop :=
  c.en = false ∨ (port = true ∧ c.regOnly = true) ∨ c.seenAt = some now

/-- A mark at `now` comes too early after the last accepted one (R39). -/
def StepClk.TooEarly (c : StepClk) (now : W64) (minPer : W32) : Prop := ∃ a, c.acceptedAt = some a ∧ (now - a).toNat < minPer.toNat

/-- The clock `c'` of a slot is what an accepted mark at `now` makes of `c` (R40, R41). -/
def StepClk.Accepts (c c' : StepClk) (now : W64) : Prop :=
  let d := (now - c.markAt).toNat
  c'.seenAt = some now ∧ c'.acceptedAt = some now ∧ c'.idx = (if c.idxPend then c.idxSet else c.idx + 1) ∧
  c'.idxPend = false ∧ c'.haveMark = true ∧ c'.markAt = now ∧ c'.long = false ∧ c'.overrun = false ∧
  (c.haveMark = false → c'.per = c.per ∧ c'.estValid = c.estValid ∧ c'.lastM = c.lastM) ∧
  (c.haveMark = true → c'.estValid = true ∧ c'.lastM = BitVec.ofNat 48 (min d (2 ^ 48 - 1)) ∧
    c'.per = BitVec.ofNat 48 (periodUpdate c.estValid c.per.toNat (min d (2 ^ 48 - 1)) c.k).1)

/-- What a mark cycle does to one slot, marked or not: passed over, ignored as too early, or accepted. -/
def StepClk.Outcome (c c' : StepClk) (marked port : Bool) (now : W64) (minPer : W32) : Prop :=
  let off := marked = false ∨ c.PassesOver port now
  (off → c' = c) ∧ (¬off → c.TooEarly now minPer → c' = { c with cntIgn := sat8 c.cntIgn 1, seenAt := some now }) ∧
  (¬off → ¬c.TooEarly now minPer → c.Accepts c' now)

theorem stepMark_passed {l : Leaf} {slot : Nat} {port : Bool} (h : (l.u.step slot).PassesOver port l.u.clk.tb1) :
    l.stepMark slot port = l := by
  refine if_pos ?_
  simpa only [StepClk.PassesOver, Bool.or_eq_true, Bool.and_eq_true, Bool.not_eq_true', decide_eq_true_eq, or_assoc] using h

/-- A slot has seen the mark of the present cycle. -/
def Leaf.seeMark (l : Leaf) (slot : Nat) : Leaf := l.blk (fun u => u.setStep slot { l.u.step slot with seenAt := some l.u.clk.tb1 })

theorem seeMark_only (l : Leaf) (slot : Nat) : OnlySlot slot l.u (l.seeMark slot).u := onlySlot_setStep l.u slot _

theorem seeMark_step (l : Leaf) (slot : Nat) : (l.seeMark slot).u.step slot = { l.u.step slot with seenAt := some l.u.clk.tb1 } :=
  step_setStep_same l.u slot _

/-- A mark that comes too early is seen and counted as ignored. -/
def Leaf.ignoreMark (l : Leaf) (slot : Nat) : Leaf :=
  (l.seeMark slot).blk (fun u => u.setStep slot { u.step slot with cntIgn := sat8 (l.u.step slot).cntIgn 1 })

theorem ignoreMark_only (l : Leaf) (slot : Nat) : OnlySlot slot l.u (l.ignoreMark slot).u :=
  (seeMark_only l slot).trans (onlySlot_setStep _ slot _)

theorem ignoreMark_step (l : Leaf) (slot : Nat) : (l.ignoreMark slot).u.step slot =
    { l.u.step slot with cntIgn := sat8 (l.u.step slot).cntIgn 1, seenAt := some l.u.clk.tb1 } := by
  rw [Leaf.ignoreMark, Leaf.blk_u, step_setStep_same, seeMark_step]

/-- A mark that is not passed over is ignored as too early, or accepted. -/
theorem stepMark_taken {l : Leaf} {slot : Nat} {port : Bool} (h : ¬(l.u.step slot).PassesOver port l.u.clk.tb1) :
    ((l.u.step slot).TooEarly l.u.clk.tb1 (l.u.reg R.STEP_MINPER) → l.stepMark slot port = l.ignoreMark slot) ∧
    (¬(l.u.step slot).TooEarly l.u.clk.tb1 (l.u.reg R.STEP_MINPER) → l.stepMark slot port = (l.seeMark slot).acceptMark slot) := by
  have hoff : ¬(!(l.u.step slot).en || (port && (l.u.step slot).regOnly) || decide ((l.u.step slot).seenAt = some l.u.clk.tb1)) = true := by
    simpa only [StepClk.PassesOver, Bool.or_eq_true, Bool.and_eq_true, Bool.not_eq_true', decide_eq_true_eq, or_assoc] using h
  rw [Leaf.stepMark, if_neg hoff]
  constructor
  · rintro ⟨a, ha, hlt⟩
    refine if_pos ?_
    simp only [ha, decide_eq_true_eq]
    exact hlt
  · intro hlate
    refine if_neg fun hearly => hlate ?_
    cases ha : (l.u.step slot).acceptedAt with
    | none => simp only [ha, Bool.false_eq_true] at hearly
    | some a =>
      simp only [ha, decide_eq_true_eq] at hearly
      exact ⟨a, ha, hearly⟩

theorem stepMark_only (l : Leaf) (slot : Nat) (port : Bool) : OnlySlot slot l.u (l.stepMark slot port).u := by
  by_cases hoff : (l.u.step slot).PassesOver port l.u.clk.tb1
  · rw [stepMark_passed hoff]
    exact onlySlot_of_frame slot rfl
  · obtain ⟨hearly, hacc⟩ := stepMark_taken (l := l) (port := port) hoff
    by_cases he : (l.u.step slot).TooEarly l.u.clk.tb1 (l.u.reg R.STEP_MINPER)
    · rw [hearly he]
      exact ignoreMark_only l slot
    · rw [hacc he]
      exact (seeMark_only l slot).trans (acceptMark_only _ slot)

/-- The clock that `StepClk.marked` makes is the one of R40 and R41. -/
theorem marked_accepts (c : StepClk) (now : W64) (n : Nat) (e : Byte) (x : Option Byte) :
    c.Accepts { ({ c with seenAt := some now } : StepClk).marked now (c.measure now) with
      acceptedAt := some now, cntSkip := n, epoch := e, epochNext := x } now := by
  cases hm : c.haveMark with
  | false => simp [StepClk.Accepts, StepClk.measure, StepClk.marked, hm]
  | true => simp [StepClk.Accepts, StepClk.measure, StepClk.marked, hm]

theorem stepMark_outcome (l : Leaf) (slot : Nat) (port : Bool) :
    (l.u.step slot).Outcome ((l.stepMark slot port).u.step slot) true port l.u.clk.tb1 (l.u.reg R.STEP_MINPER) := by
  simp only [StepClk.Outcome, Bool.true_eq_false, false_or]
  refine ⟨fun hoff => by rw [stepMark_passed hoff], fun hoff he => ?_, fun hoff he => ?_⟩
  · rw [(stepMark_taken hoff).1 he, ignoreMark_step]
  · obtain ⟨n, e, x, hstep⟩ := acceptMark_step (l.seeMark slot) slot
    rw [(stepMark_taken hoff).2 he, hstep, (seeMark_only l slot).clk, seeMark_step]
    exact marked_accepts _ _ n e x

/-- A slot takes its mark where the command marks it. -/
def Leaf.markIf (l : Leaf) (marked : Bool) (slot : Nat) (port : Bool) : Leaf := if marked then l.stepMark slot port else l

theorem markIf_only (l : Leaf) (b : Bool) (slot : Nat) (port : Bool) : OnlySlot slot l.u (l.markIf b slot port).u := by
  cases b with
  | false => exact onlySlot_of_frame slot rfl
  | true => exact stepMark_only l slot port

theorem markIf_outcome (l : Leaf) (b : Bool) (slot : Nat) (port : Bool) :
    (l.u.step slot).Outcome ((l.markIf b slot port).u.step slot) b port l.u.clk.tb1 (l.u.reg R.STEP_MINPER) := by
  cases b with
  | false => exact ⟨fun _ => rfl, fun h => absurd (.inl rfl) h, fun h => absurd (.inl rfl) h⟩
  | true => exact stepMark_outcome l slot port

theorem markIf_passed {l : Leaf} {b : Bool} {slot : Nat} {port : Bool} (h : b = false ∨ (l.u.step slot).PassesOver port l.u.clk.tb1) :
    l.markIf b slot port = l := by
  cases b with
  | false => rfl
  | true => exact stepMark_passed (h.resolve_left Bool.noConfusion)

/-- The marks of a cycle on both slots, before the entries that they make due act. -/
def Leaf.markBoth (l : Leaf) (slots : BitVec 2) (port : Bool) : Leaf := (l.markIf (bit slots 0) 0 port).markIf (bit slots 1) 1 port

theorem markBoth_eq (l : Leaf) (slots : BitVec 2) (port : Bool) :
    ([0, 1].filter (fun s => bit slots s)).foldl (fun (x : Leaf) s => x.stepMark s port) l = l.markBoth slots port := by
  cases h0 : bit slots 0 <;> cases h1 : bit slots 1 <;> simp [Leaf.markBoth, Leaf.markIf, h0, h1]

theorem markBoth_outcome (l : Leaf) (slots : BitVec 2) (port : Bool) {k : Nat} (hk : k < 2) :
    (l.u.step k).Outcome ((l.markBoth slots port).u.step k) (bit slots k) port l.u.clk.tb1 (l.u.reg R.STEP_MINPER) := by
  have h0 := markIf_only l (bit slots 0) 0 port
  have h1 := markIf_only (l.markIf (bit slots 0) 0 port) (bit slots 1) 1 port
  obtain rfl | rfl : k = 0 ∨ k = 1 := by omega
  · rw [Leaf.markBoth, h1.other 0 (by decide)]
    exact markIf_outcome l _ 0 port
  · have hout := markIf_outcome (l.markIf (bit slots 0) 0 port) (bit slots 1) 1 port
    rwa [h0.other 1 (by decide), h0.clk, h0.minPer] at hout

theorem markBoth_clk (l : Leaf) (slots : BitVec 2) (port : Bool) : (l.markBoth slots port).u.clk = l.u.clk :=
  (markIf_only _ _ 1 port).clk.trans (markIf_only l _ 0 port).clk

/-- The marks of a cycle, and what they make due: of what is kept of the slots and of time, all is as the marks left it. -/
theorem stepMarks_frame (l : Leaf) (slots : BitVec 2) (port : Bool) :
    (l.stepMarks slots port).u.frame = ((l.blk Blk.gatherReports).markBoth slots port).u.frame := by
  simp only [Leaf.stepMarks, Leaf.inCycle, markBoth_eq, Leaf.blk_u, ungather_frame, apply_ite Leaf.u, apply_ite Blk.frame, fireReached_frame,
    ite_self]

/-- A cycle in which no source reports leaves nothing but that its reports are no longer gathered. -/
theorem gatherReports_ungather (u : Blk) : u.gatherReports.ungather = { u with gather := none } := by
  simp only [Blk.ungather, Blk.gatherReports, Option.getD_some, List.mergeSort_nil, List.foldl_nil]

/-- A cycle whose marks are all passed over (R39). -/
theorem stepMarks_passed {l : Leaf} {slots : BitVec 2} {port : Bool}
    (h : ∀ k, k < 2 → bit slots k = false ∨ (l.u.step k).PassesOver port l.u.clk.tb1) :
    l.stepMarks slots port = l.blk (fun u => { u with gather := none }) := by
  have hboth : (l.blk Blk.gatherReports).markBoth slots port = l.blk Blk.gatherReports := by
    rw [Leaf.markBoth, markIf_passed (l := l.blk Blk.gatherReports) (h 0 (by decide)),
      markIf_passed (l := l.blk Blk.gatherReports) (h 1 (by decide))]
  simp only [Leaf.stepMarks, Leaf.inCycle, markBoth_eq, hboth, ne_eq, not_true_eq_false, decide_false, List.any_cons, List.any_nil, Bool.or_false,
    Bool.false_eq_true, if_false]
  exact congrArg (fun u => { l with u := u }) (gatherReports_ungather l.u)

end Sys2Proof.Machine

namespace Sys2Proof.Slice0

open Sys2Proof.Machine

/-- Settles O20: each slot's clock is what the outcome of its own mark makes it, since the other slot's mark, the schedule entries that act and the reports of
the cycle all keep it. -/
theorem acceptedMarkUpdatesTheSlot : Obligations.AcceptedMarkUpdatesTheSlot := by
  intro s slots port hfree
  have hexec : exec (.stepMark slots port) s = .next { s with leaf := s.leaf.stepMarks slots port } :=
    onLeaf_free (fun l => l.stepMarks slots port) hfree
  have hframe := stepMarks_frame s.leaf slots port
  refine ⟨fun h0 h1 => ?_, s.leaf.stepMarks slots port, hexec, ?_, fun k hk => ?_⟩
  · have hpassed : s.leaf.stepMarks slots port = s.leaf.blk (fun u => { u with gather := none }) :=
      stepMarks_passed fun k hk => by
        obtain rfl | rfl : k = 0 ∨ k = 1 := by omega
        · exact h0
        · exact h1
    rwa [hpassed] at hexec
  · exact (clk_of_frame hframe).trans (markBoth_clk _ slots port)
  · have hout := markBoth_outcome (s.leaf.blk Blk.gatherReports) slots port hk
    rwa [← step_of_frame hframe k] at hout

end Sys2Proof.Slice0

/-! Idle steps: one clock cycle each (R30), which every cycle's other work keeps. -/

namespace Sys2Proof.Machine

@[simp] theorem fireDue_frame (u : Blk) : u.fireDue.frame = u.frame := foldl_frame _ _ u (fun v _ => emit_frame v _)

/-- A cycle of a leaf that no reset holds moves time by one cycle, and of the rest of the frame nothing. -/
theorem leafTick_frame {l : Leaf} (h : l.u.held = none) : l.tick.u.frame = (l.u.adv 1).frame := by
  simp only [Leaf.tick, h, merge_frame, ringCycle_frame, Leaf.blk_u, fireDue_frame]

/-- What R30 speaks of: TB0, TB1 and the increment, and whether a reset holds the build. -/
def Blk.pace (u : Blk) : Option ResetKind × W96 × W64 × BitVec 40 := (u.held, u.clk.tb, u.clk.tb1, u.clk.inc)

theorem pace_of_frame {u v : Blk} (h : v.frame = u.frame) : v.pace = u.pace := by
  simp only [Blk.pace, held_of_frame h, clk_of_frame h]

/-- The 1PPS output moves no time. -/
@[simp] theorem ppsUp_pace (u : Blk) : u.ppsUp.pace = u.pace := by
  unfold Blk.ppsUp
  split <;> rfl

@[simp] theorem ppsCross_pace (u : Blk) (old : W64) : (u.ppsCross old).pace = u.pace := by
  unfold Blk.ppsCross
  split
  · rfl
  · split
    · exact ppsUp_pace u
    · rfl

@[simp] theorem ppsCycle_pace (u : Blk) (old : W64) : (u.ppsCycle old).pace = u.pace := by
  rw [Blk.ppsCycle, ppsCross_pace]
  split <;> rfl

theorem leafTick_pace {l : Leaf} (h : l.u.held = none) : l.tick.u.pace = (l.u.adv 1).pace := pace_of_frame (leafTick_frame h)

theorem trayTick_pace {t : Tray} (h : t.u.held = none) : t.tick.u.pace = (t.u.adv 1).pace := by
  simp only [Tray.tick, h, Tray.blk_u, Blk.cycle, pace_of_frame (fireDue_frame _), ppsCycle_pace]

/-- One idle cycle of a build that no reset holds (R30). -/
theorem tick_pace {s : State} {b : Build} (h : (s.blkOf b).held = none) : (s.tick.blkOf b).pace = ((s.blkOf b).adv 1).pace := by
  cases b with
  | leaf => exact leafTick_pace h
  | tray => exact trayTick_pace h

theorem step_of_no_command {s : State} (h : s.pending = []) : step s = .next s.tick := by simp only [step, h]

/-- `n` idle steps of a build that no reset holds are `n` cycles (R30). -/
theorem run_pace (n : Nat) {s : State} {b : Build} (hq : s.pending = []) (h : (s.blkOf b).held = none) :
    ∃ t, State.run n s = some t ∧ (t.blkOf b).pace = ((s.blkOf b).adv n).pace := by
  induction n generalizing s with
  | zero => exact ⟨s, rfl, by simp only [Blk.pace, Blk.adv_held, Blk.adv_clk, Clock.adv_zero]⟩
  | succ n ih =>
    have htick := tick_pace h
    simp only [Blk.pace, Prod.mk.injEq, Blk.adv_held, Blk.adv_clk] at htick
    obtain ⟨hheld, htb, htb1, hinc⟩ := htick
    obtain ⟨t, hrun, ht⟩ := ih (s := s.tick) hq (hheld.trans h)
    refine ⟨t, by simp only [State.run, step_of_no_command hq, hrun], ht.trans ?_⟩
    have hadv := Clock.adv_adv (s.blkOf b).clk 1 n
    simp only [Clock.adv, Clock.mk.injEq] at hadv htb htb1 hinc
    obtain ⟨hsum, hsum1, -⟩ := hadv
    simp only [Blk.pace, Blk.adv_held, Blk.adv_clk, Clock.adv, hheld, htb, htb1, hinc, hsum, hsum1, Nat.add_comm n 1]

end Sys2Proof.Machine

namespace Sys2Proof.Slice0

open Sys2Proof.Machine

/-- Settles O10, by induction on the number of idle steps. -/
theorem timeAdvancesByTheIncrement : Obligations.TimeAdvancesByTheIncrement := by
  intro n s b hq hfree
  obtain ⟨t, hrun, hpace⟩ := run_pace n hq hfree
  simp only [Blk.pace, Prod.mk.injEq, Blk.adv_clk, Clock.adv] at hpace
  obtain ⟨-, htb, htb1, hinc⟩ := hpace
  exact ⟨t, hrun, htb, htb1, hinc⟩

/-- Settles O2: the idle step is the cycle of each build, by how the build is held. -/
theorem emptyQueueStepIsOneCycle : Obligations.EmptyQueueStepIsOneCycle := by
  intro s hq
  refine ⟨s.tick, step_of_no_command hq, hq, fun h => ?_, fun h => ?_, fun k h hk => ?_, fun k h hk => ?_, fun h => ?_, fun h => ?_⟩
  · simp only [State.tick, Leaf.tick, h]
  · simp only [State.tick, Tray.tick, h]
  · cases k with
    | cold => exact absurd rfl hk
    | warm | unit | link => simp only [State.tick, Leaf.tick, h]
  · cases k with
    | cold => exact absurd rfl hk
    | warm | unit | link => simp only [State.tick, Tray.tick, h]
  · simp only [State.tick, Leaf.tick, h]
  · simp only [State.tick, Tray.tick, h]
    rfl

end Sys2Proof.Slice0

/-! What the resets leave of time and of the counters (R33, R60, R373). -/

namespace Sys2Proof.Machine

/-- What a warm and a unit reset of the leaf's sub-blocks leave: the frame and the counters. -/
def Leaf.still (l : Leaf) : Frame × SMap Counter := (l.u.frame, l.ctr.store)

theorem frame_of_still {l m : Leaf} (h : m.still = l.still) : m.u.frame = l.u.frame := congrArg Prod.fst h
theorem counter_of_still {l m : Leaf} (h : m.still = l.still) (n : Nat) : m.counter n = l.counter n :=
  congrArg (fun x : Frame × SMap Counter => smGet x.2 n Counter.zero) h

/-- A change of what both builds hold that keeps the frame. -/
theorem blk_still (l : Leaf) {f : Blk → Blk} (h : (f l.u).frame = l.u.frame) : (l.blk f).still = l.still :=
  congrArg (·, l.ctr.store) h

/-- A fold whose steps leave frame and counters leaves them. -/
theorem foldl_still {β : Type} (f : Leaf → β → Leaf) (xs : List β) (l : Leaf) (h : ∀ m b, (f m b).still = m.still) :
    (xs.foldl f l).still = l.still := foldl_keeps Leaf.still f xs l h

@[simp] theorem recoveryMarker_still (l : Leaf) (kind : Nat) : (l.recoveryMarker kind).still = l.still := blk_still l (report_frame _ _ _ _)

@[simp] theorem smpRefuse_still (l : Leaf) (s lo : Nat) (c : Option Nat) : (l.smpRefuse s lo c).still = l.still := by
  have hframe := smpRefuse_frame l s lo c
  cases c with
  | none => exact congrArg (·, l.ctr.store) hframe
  | some c => exact congrArg (·, l.ctr.store) hframe

@[simp] theorem abandon_still (l : Leaf) (p : Nat → Bool) : (l.abandon p).still = l.still :=
  foldl_still _ _ _ (fun m s => smpRefuse_still m s 24 none)

@[simp] theorem traceReset_still (l : Leaf) : l.traceReset.still = l.still := foldl_still _ _ _ (fun _ _ => rfl)

/-! ### The guard -/

@[simp] theorem releaseAll_still (l : Leaf) (hs : List HeldWrite) : (l.releaseAll hs).still = l.still :=
  foldl_still _ _ _ (fun m h => blk_still m (peak_frame (m.u.emit (.release h.tag)) _ (by decide)))

@[simp] theorem queueFprFrame_still (l : Leaf) (x : FprHead) (es : List FprEntry) (last torn : Bool) :
    (l.queueFprFrame x es last torn).still = l.still :=
  blk_still l (foldl_frame _ _ _ (fun v _ => enqueue_frame v 0 2 _))

@[simp] theorem sendFprFrame_still (l : Leaf) (es : List FprEntry) (last torn : Bool) : (l.sendFprFrame es last torn).still = l.still :=
  (blk_still _ (count_frame _ 1 (by decide))).trans (queueFprFrame_still l _ es last torn)

@[simp] theorem tear_still (l : Leaf) (reason region : Nat) : (l.tear reason region).still = l.still := by
  unfold Leaf.tear
  split
  · rfl
  · rw [sendFprFrame_still]
    refine (blk_still _ ?_).trans (releaseAll_still l _)
    simp (disch := decide) only [report_frame, cause_frame, bump_frame, emit_frame]

@[simp] theorem guardReset_still (l : Leaf) : l.guardReset.still = l.still := tear_still l 3 noRegion

/-! ### The kiln sitter, the host queue and the dump walker -/

@[simp] theorem kilnReset_still (l : Leaf) : l.kilnReset.still = l.still :=
  foldl_still _ _ _ (fun m e => by split <;> rfl)

@[simp] theorem hevReset_still (l : Leaf) : l.hevReset.still = l.still := rfl

@[simp] theorem requestReset_still (l : Leaf) (d e : Nat) : (l.requestReset d e).still = l.still := by
  have hk : Aside (R.KST_HAZ + 16 * d) := aside_add (by decide) _
  unfold Leaf.requestReset
  split
  · exact blk_still l (cause_frame _ _ _ _)
  · split
    · rfl
    · exact (blk_still _ (report_frame _ _ _ _)).trans (blk_still (l.setDom d _) ((emit_frame _ _).trans (modReg_frame _ _ hk)))

@[simp] theorem payOwed_still (l : Leaf) (e : Nat) : (l.payOwed e).still = l.still := by
  unfold Leaf.payOwed
  split
  · rfl
  · exact requestReset_still _ _ _

@[simp] theorem dumpOver_still (l : Leaf) (t : DumpTrigger) : (l.dumpOver t).1.still = l.still := by
  simp only [Leaf.dumpOver]
  split
  · exact payOwed_still _ _
  · rfl

@[simp] theorem dumpRegs_still (l : Leaf) (c : Bool) (bytes poison : Nat) : (l.dumpRegs c bytes poison).still = l.still :=
  blk_still { l with dmp := { l.dmp with complete := c } } ((setN_frame _ _ (by decide)).trans (setN_frame _ _ (by decide)))

@[simp] theorem dumpReset_still (l : Leaf) : l.dumpReset.still = l.still := by
  unfold Leaf.dumpReset
  split
  · rfl
  · rw [dumpOver_still]
    exact (blk_still _ (report_frame _ _ _ _)).trans (dumpRegs_still l _ _ _)

@[simp] theorem cmpReset_still (l : Leaf) : l.cmpReset.still = l.still := rfl

@[simp] theorem creditZero_still (l : Leaf) : l.creditZero.still = l.still :=
  blk_still l ((setN_frame _ _ (by decide)).trans (setN_frame _ _ (by decide)))

/-- The sub-blocks' part of a warm and of a unit reset keeps time, the hold and the counters (R33, R60). -/
@[simp] theorem engineReset_still (l : Leaf) (kind : Nat) : (l.engineReset kind).still = l.still := by
  simp only [Leaf.engineReset, creditZero_still, cmpReset_still, dumpReset_still, hevReset_still, kilnReset_still, guardReset_still,
    traceReset_still, abandon_still, recoveryMarker_still]

/-! ### The three resets of the leaf -/

@[simp] theorem disarmAll_clk (u : Blk) : u.disarmAll.clk = u.clk := foldl_keeps Blk.clk _ _ _ (fun _ _ => rfl)
@[simp] theorem disarmAll_held (u : Blk) : u.disarmAll.held = u.held := foldl_keeps Blk.held _ _ _ (fun _ _ => rfl)
@[simp] theorem clearInjection_clk (u : Blk) : u.clearInjection.clk = u.clk :=
  Eq.trans (b := u.disarmAll.clk) (foldl_keeps Blk.clk _ _ _ (fun _ _ => rfl)) (disarmAll_clk u)

@[simp] theorem warm_clk (u : Blk) (source : Nat) : (u.warm source).clk = u.clk := by
  simp only [Blk.warm, Blk.setN_clk, apply_ite Blk.clk, clk_of_frame (report_frame _ _ _ _), clearInjection_clk, ite_self]

/-- A warm reset of the leaf keeps time and counters, and holds it (R33, R60, R373). -/
theorem warmReset_keeps (l : Leaf) (source : Nat) :
    (l.warmReset source).u.clk = l.u.clk ∧ (l.warmReset source).u.held = some .warm ∧ ∀ n, (l.warmReset source).counter n = l.counter n := by
  have hstill : (l.warmReset source).still = (l.blk (fun u => u.warm source)).still := engineReset_still _ 1
  have hframe := frame_of_still hstill
  exact ⟨(clk_of_frame hframe).trans (warm_clk l.u source), held_of_frame hframe, fun n => counter_of_still hstill n⟩

/-- What a unit reset does to what both builds hold: the frame port falls idle and injections are disarmed (R373, R392). -/
def Blk.unitReset (u : Blk) : Blk :=
  (((u.modPort 0 (fun p => { p with onPort := none, waiting := [] })).emit .idleItem).disarmAll).setN R.BLK_RSTCAUSE (2 * 2 ^ 30 + 8)

/-- A unit reset keeps time, counters and the hold (R33, R60, R373). -/
theorem unitReset_keeps (l : Leaf) :
    l.unitReset.u.clk = l.u.clk ∧ l.unitReset.u.held = l.u.held ∧ ∀ n, l.unitReset.counter n = l.counter n := by
  have hstill : l.unitReset.still = (l.blk Blk.unitReset).still := engineReset_still _ 3
  have hframe := frame_of_still hstill
  exact ⟨(clk_of_frame hframe).trans (disarmAll_clk _), (held_of_frame hframe).trans (disarmAll_held _), fun n => counter_of_still hstill n⟩

/-- What every cold reset leaves of what both builds hold: time at zero, the hold, and its source (R33, R373, R374). -/
structure ColdStart (source : Nat) (f : Frame) : Prop where
  tb : f.clk.tb = 0
  tb1 : f.clk.tb1 = 0
  valid : f.clk.valid = false
  held : f.held = some .cold
  cause : f.rstCause = BitVec.ofNat 32 source

theorem cold_coldStart (u : Blk) (source : Nat) : ColdStart source (u.cold source).frame where
  tb := rfl
  tb1 := rfl
  valid := rfl
  held := rfl
  cause := by
    have hne : R.BLK_RSTCAUSE ≠ R.PWR_MINCODE := by decide
    exact (reg_setReg_ne _ _ hne).trans (reg_setReg_same _ _ _)

@[simp] theorem outputsFall_frame (l was : Leaf) : (l.outputsFall was).u.frame = l.u.frame := by
  unfold Leaf.outputsFall
  extract_lets l1 l2 l3
  have h1 : l1.u.frame = l.u.frame := by
    simp only [l1, Leaf.hevPin, apply_ite Leaf.u, apply_ite Blk.frame, Leaf.blk_u, emit_frame, ite_self]
  have h2 : l2.u.frame = l.u.frame := by
    simp only [l2, apply_ite Leaf.u, apply_ite Blk.frame, Leaf.blk_u, emit_frame, h1, ite_self]
  have h3 : l3.u.frame = l2.u.frame := foldl_uframe _ _ _ (fun _ _ => rfl)
  exact Eq.trans (b := l3.u.frame) (foldl_uframe _ _ _ (fun _ _ => rfl)) (h3.trans h2)

@[simp] theorem outputsFall_ctr (l was : Leaf) : (l.outputsFall was).ctr = l.ctr := by
  unfold Leaf.outputsFall
  extract_lets l1 l2 l3
  have h1 : l1.ctr = l.ctr := by simp only [l1, Leaf.hevPin, apply_ite Leaf.ctr, Leaf.blk_ctr, ite_self]
  have h2 : l2.ctr = l.ctr := by simp only [l2, apply_ite Leaf.ctr, Leaf.blk_ctr, h1, ite_self]
  have h3 : l3.ctr = l2.ctr := foldl_keeps Leaf.ctr _ _ _ (fun _ _ => rfl)
  exact Eq.trans (b := l3.ctr) (foldl_keeps Leaf.ctr _ _ _ (fun _ _ => rfl)) (h3.trans h2)

/-- The leaf after a cold reset: time starts over, and every counter is zero (R33, R60, R373). -/
theorem leafColdReset_start (l : Leaf) (source : Nat) :
    ColdStart source (l.coldReset source).u.frame ∧ ∀ n, (l.coldReset source).counter n = ⟨0, false⟩ := by
  have hstill : (l.coldReset source).still = (({ l.inputs with u := l.u.cold source } : Leaf).outputsFall l).still :=
    recoveryMarker_still _ 0
  constructor
  · rw [frame_of_still hstill, outputsFall_frame]
    exact cold_coldStart l.u source
  · intro n
    rw [counter_of_still hstill, Leaf.counter, outputsFall_ctr]
    rfl

/-! ### The cold reset of the tray build -/

/-- A staging place of queue 0 is taken: of the frame nothing changes. -/
theorem place_frame (t : Tray) (j : Nat) (r : Rec) : (t.place j r).u.frame = t.u.frame := by
  have hk : Aside (inst R.HEVT_SPEAK j) := aside_add (by decide) _
  simp only [Tray.place, Tray.setEvq, Tray.blk_u, wroteBytes_u, peak_frame _ _ hk]

theorem createPlace_frame (t : Tray) (j : Nat) (k : RecKind) (p : BitVec 160) : (t.createPlace j k p).u.frame = t.u.frame := by
  have htake : (t.createTake k p).1.u.frame = t.u.frame := create_frame t.u _ false
  simp only [Tray.createPlace]
  split
  · rw [place_frame, htake]
  · exact htake

theorem ringFreed_frame (u : Blk) : u.ringFreed.frame = u.frame := by
  simp (disch := decide) only [Blk.ringFreed, apply_ite Blk.frame, setReg_frame, create_frame, ite_self]

theorem stageRec_frame (t : Tray) (j : Nat) (r : Rec) : (t.stageRec j r).u.frame = t.u.frame := by
  simp only [Tray.stageRec, apply_ite Tray.u, apply_ite Blk.frame, place_frame, Tray.blk_u, cause_frame, Tray.setEvq, ite_self]

theorem drainN_frame (t : Tray) (n : Nat) : (t.drainN n).u.frame = t.u.frame := by
  induction n generalizing t with
  | zero => rfl
  | succ n ih =>
    simp only [Tray.drainN]
    split
    · rw [ih, Tray.stageOne]
      split
      · rfl
      · exact (stageRec_frame _ _ _).trans (ringFreed_frame _)
    · rfl

/-- The recovery marker of a queue keeps the frame. -/
theorem markNew_frame (t : Tray) (j : Nat) : (t.markNew j).u.frame = t.u.frame := by
  simp only [Tray.markNew]
  split
  · rfl
  · exact (createPlace_frame _ j _ _).trans (drainN_frame _ 130)

/-- The tray build after a cold reset: time starts over (R33, R373). -/
theorem trayColdReset_start (t : Tray) (source : Nat) : ColdStart source (t.coldReset source).u.frame := by
  rw [Tray.coldReset, markNew_frame]
  simp only [apply_ite Blk.frame, emit_frame, ite_self]
  exact cold_coldStart t.u source

end Sys2Proof.Machine

namespace Sys2Proof.Slice0

open Sys2Proof.Machine

/-- Settles O15, from what each kind of reset keeps of the frame and of the counters. -/
theorem resetsAndTime : Obligations.ResetsAndTime := by
  intro s src
  have hsrc : BitVec.ofNat 32 src.toNat = src.setWidth 32 := by rw [BitVec.ofNat_toNat]
  refine ⟨fun h => ?_, fun h => ?_, fun h => ⟨?_, ?_⟩⟩
  · have hexec : LeafBecomes (.coldReset .leaf src) s (s.leaf.coldReset src.toNat) := 
      onReset_leaf (fun l => l.coldReset src.toNat) (fun t => t.coldReset src.toNat) h
    obtain ⟨start, hzero⟩ := leafColdReset_start s.leaf src.toNat
    exact ⟨_, hexec, start.tb, start.tb1, start.valid, start.held, start.cause.trans hsrc, hzero⟩
  · have hexec : exec (.coldReset .tray src) s = .next { s with tray := s.tray.coldReset src.toNat } :=
      onReset_tray (fun l => l.coldReset src.toNat) (fun t => t.coldReset src.toNat) h
    have start := trayColdReset_start s.tray src.toNat
    exact ⟨_, hexec, start.tb, start.tb1, start.valid, start.held, start.cause.trans hsrc⟩
  · have hexec : LeafBecomes (.warmReset .leaf src) s (s.leaf.warmReset src.toNat) := onLeaf_free (fun l => l.warmReset src.toNat) h
    exact ⟨_, hexec, warmReset_keeps s.leaf src.toNat⟩
  · have hexec : LeafBecomes .unitReset s s.leaf.unitReset := onLeaf_free Leaf.unitReset h
    obtain ⟨hclk, hheld, hctr⟩ := unitReset_keeps s.leaf
    exact ⟨_, hexec, hclk, hheld.trans h, hctr⟩

end Sys2Proof.Slice0

/-! Signed differences (R36), the step angle (R42) and the period estimate (R41). -/

namespace Sys2Proof.Machine

/-- A signed number is at or above zero exactly when its top bit is clear. -/
theorem zero_le_toInt_iff {w : Nat} (d : BitVec (w + 1)) : 0 ≤ d.toInt ↔ d.toNat < 2 ^ w := by
  rw [BitVec.toInt_eq_toNat_cond]
  have hlt := d.isLt
  split <;> omega

/-- In the leaf `e` of R42 is the number of TB1 cycles since the last mark. -/
theorem sinceMark_leaf {u : Blk} (h : u.build = .leaf) (c : StepClk) : u.sinceMark c = (u.clk.tb1 - c.markAt).toNat := by
  simp only [Blk.sinceMark, h]

/-- With no mark or no period the angle is zero (R42). -/
theorem angle_unknown {u : Blk} {slot : Nat} (h : (u.step slot).haveMark = false ∨ (u.step slot).estValid = false) : u.angle slot = 0 :=
  if_pos (by simpa only [Bool.or_eq_true, Bool.not_eq_true'] using h)

/-- At overrun, marked or reached, the angle is all ones (R42). -/
theorem angle_overrun {u : Blk} {slot : Nat} (hm : (u.step slot).haveMark = true) (he : (u.step slot).estValid = true)
    (ho : (u.step slot).overrun = true ∨ (u.step slot).per.toNat ≤ u.sinceMark (u.step slot)) : u.angle slot = 0xFFFFFFFF#32 := by
  simp only [Blk.angle, hm, he, Bool.not_true, Bool.or_false, Bool.false_eq_true, if_false]
  rcases ho with ho | ho
  · exact if_pos ho
  · rw [if_neg (Nat.not_lt.mpr ho), ite_self]

/-- Within the step the angle is the fraction of the period that has passed, capped below all ones (R42). -/
theorem angle_within {u : Blk} {slot : Nat} (hm : (u.step slot).haveMark = true) (he : (u.step slot).estValid = true)
    (ho : (u.step slot).overrun = false) (hlt : u.sinceMark (u.step slot) < (u.step slot).per.toNat) :
    (u.angle slot).toNat = min (u.sinceMark (u.step slot) * 2 ^ 32 / (u.step slot).per.toNat) 0xFFFFFFFE := by
  simp only [Blk.angle, hm, he, ho, hlt, Bool.not_true, Bool.or_false, Bool.false_eq_true, if_false, if_true, BitVec.toNat_ofNat]
  exact Nat.mod_eq_of_lt (Nat.lt_of_le_of_lt (min_le_right _ _) (by decide))

/-- The clamped measurement of R41. -/
def clampMeasure (p m : Nat) : Nat := min (max m (p / 2)) (2 * p)

/-- An estimate moves toward the clamped measurement by a fraction of their distance, rounded down. -/
theorem periodUpdate_valid (p m k : Nat) : periodUpdate true p m k =
    (((p : Int) + ((clampMeasure p m : Int) - p) / 2 ^ k).toNat, some (decide (m < p / 2))) := rfl

/-- A part of a distance, rounded down, lies between nothing and the distance. -/
theorem distance_part_bounds (d : Int) (k : Nat) : min d 0 ≤ d / 2 ^ k ∧ d / 2 ^ k ≤ max d 0 := by
  have hpos : (0 : Int) < 2 ^ k := by positivity
  have hone : (1 : Int) ≤ 2 ^ k := hpos
  constructor
  · rw [Int.le_ediv_iff_mul_le hpos]
    rcases le_total 0 d with hd | hd
    · simpa only [min_eq_right hd, zero_mul] using hd
    · rw [min_eq_left hd]
      nlinarith
  · rcases le_total 0 d with hd | hd
    · exact (Int.ediv_le_self _ hd).trans (le_max_left _ _)
    · have hle : d / 2 ^ k ≤ 0 / 2 ^ k := Int.ediv_le_ediv hpos hd
      rw [Int.zero_ediv] at hle
      exact hle.trans (le_max_right _ _)

/-- The new estimate lies between the old one and the clamped measurement (R41). -/
theorem periodUpdate_bounds (p m k : Nat) :
    min p (clampMeasure p m) ≤ (periodUpdate true p m k).1 ∧ (periodUpdate true p m k).1 ≤ max p (clampMeasure p m) := by
  obtain ⟨hlo, hhi⟩ := distance_part_bounds ((clampMeasure p m : Int) - p) k
  rw [periodUpdate_valid]
  generalize ((clampMeasure p m : Int) - p) / 2 ^ k = q at hlo hhi
  generalize clampMeasure p m = mc at hlo hhi
  simp only
  omega

end Sys2Proof.Machine

namespace Sys2Proof.Slice0

open Sys2Proof.Machine

/-- Settles O16, by the three cases of the angle. -/
theorem angleIsAllOnesExactlyInOverrun : Obligations.AngleIsAllOnesExactlyInOverrun := by
  intro u slot hleaf c e
  have he : u.sinceMark c = e := sinceMark_leaf hleaf c
  refine ⟨⟨fun hall => ?_, fun ⟨hm, hv, ho⟩ => angle_overrun hm hv (he ▸ ho)⟩, fun hm hv ho hlt => ?_, angle_unknown⟩
  · by_cases hknown : c.haveMark = false ∨ c.estValid = false
    · rw [angle_unknown hknown] at hall
      exact absurd hall (by decide)
    · simp only [not_or, Bool.not_eq_false] at hknown
      obtain ⟨hm, hv⟩ := hknown
      refine ⟨hm, hv, ?_⟩
      by_contra hin
      simp only [not_or, Bool.not_eq_true, Nat.not_le] at hin
      have hcap := angle_within hm hv hin.1 (he ▸ hin.2)
      rw [hall] at hcap
      simp only [BitVec.toNat_ofNat] at hcap
      omega
  · rw [angle_within hm hv ho (he ▸ hlt), ← he]

/-- Settles O19: a part of the distance to the clamped measurement is added, all of it where k is 0. -/
theorem periodEstimateFollowsItsRule : Obligations.PeriodEstimateFollowsItsRule := by
  intro p m k mc
  obtain ⟨hlo, hhi⟩ := periodUpdate_bounds p m k
  refine ⟨rfl, hlo, hhi, ?_, rfl⟩
  rw [periodUpdate_valid, pow_zero, Int.ediv_one]
  exact congrArg Int.toNat (add_sub_cancel _ _)

/-- Settles O13: a difference is at or above zero exactly when it is below half of its range. -/
theorem comparisonsUseTheSignedDifference : Obligations.ComparisonsUseTheSignedDifference := by
  refine ⟨fun T d => ?_, fun a d => ?_⟩
  · rw [reached64, add_sub_cancel_left, decide_eq_decide]
    exact zero_le_toInt_iff d
  · rw [stepReached, add_sub_cancel_left, decide_eq_decide]
    exact zero_le_toInt_iff d

end Sys2Proof.Slice0

/-! Registers of the time page: what a cause leaves of other registers, and what a set bit reads as (R13, R383). -/

namespace Sys2Proof.Machine

/-- A bit of a word after one of its bits is written. -/
theorem bit_setBit {w : Nat} (x : BitVec w) (i j : Nat) (b : Bool) :
    bit (setBit x i b) j = if j = i then decide (i < w) && b else bit x j := by
  have hone : ∀ k, (BitVec.ofNat w (1 <<< i)).getLsbD k = (decide (k < w) && decide (i = k)) := fun k => by
    rw [BitVec.getLsbD_ofNat, Nat.one_shiftLeft, Nat.testBit_two_pow]
  have hlt : x.getLsbD j = true → j < w := BitVec.lt_of_getLsbD
  by_cases hij : j = i
  · subst hij
    cases b <;> by_cases hw : j < w <;> simp [bit, setBit, setFld, hone, hw]
  · cases b <;> simpa [bit, setBit, setFld, hone, hij, Ne.symm hij] using hlt

/-- Hardware's setting of an RC bit is a write of that bit. -/
@[simp] theorem reg_setRc (u : Blk) (k i j : Nat) : (u.setRc k i).reg j = (u.setRb k i true).reg j := rfl

theorem reg_setRb_same (u : Blk) (k i : Nat) (b : Bool) : (u.setRb k i b).reg k = setBit (u.reg k) i b := reg_setReg_same u k _
theorem reg_setRb_ne (u : Blk) {k j : Nat} (i : Nat) (b : Bool) (h : j ≠ k) : (u.setRb k i b).reg j = u.reg j := reg_setReg_ne u _ h

/-- The error interrupt writes only the pending bits of MSI-X. -/
theorem errInterrupt_reg (u : Blk) {j : Nat} (h : j < 0x58000001) : u.errInterrupt.reg j = u.reg j := by
  unfold Blk.errInterrupt
  split
  · rfl
  · unfold Blk.msixSend
    split
    · exact reg_setRb_ne u _ _ (by rw [pbaKey]; omega)
    · rfl

theorem fillFirst_reg (u : Blk) (p i : Nat) {j : Nat} (h : j ∉ [R.ERR_FIRST, R.ERR_FIRSTT_L, R.ERR_FIRSTT_H]) :
    (u.fillFirst p i).reg j = u.reg j := by
  simp only [List.mem_cons, List.not_mem_nil, or_false, not_or] at h
  obtain ⟨h1, h2, h3⟩ := h
  unfold Blk.fillFirst
  split
  · rfl
  · exact (reg_setReg_ne _ _ h3).trans ((reg_setReg_ne _ _ h2).trans (reg_setReg_ne _ _ h1))

/-- What a cause leaves of a register that is neither `ERR.FIRST` with its time nor a pending bit of MSI-X: the cause's own bit is set, all else stays (R383). -/
theorem causeAt_reg (u : Blk) (k p i : Nat) {j : Nat} (hfirst : j ∉ [R.ERR_FIRST, R.ERR_FIRSTT_L, R.ERR_FIRSTT_H]) (hpba : j < 0x58000001) :
    (u.causeAt k p i).reg j = (u.setRb k i true).reg j := by
  simp only [Blk.causeAt]
  split
  · rfl
  · split
    · rw [errInterrupt_reg _ hpba, fillFirst_reg _ _ _ hfirst]
    · exact fillFirst_reg _ _ _ hfirst

theorem causeAt_clk (u : Blk) {k : Nat} (p i : Nat) (h : Aside k) : (u.causeAt k p i).clk = u.clk := clk_of_frame (causeAt_frame u p i h)

/-! ### The increment (R31, R35) -/

/-- Both builds have cause 2 of TBS. -/
theorem tbs_causes (b : Build) : Nat.testBit (pgCauses b 0x01) 2 = true := by cases b <;> decide

/-- A refused increment sets `inc_rej` and cause 2 of TBS, and time is as it was (R31). -/
theorem incRejected (u : Blk) : let v := (u.setRc R.TBS_STS 2).cause 0x01 0 2
    v.clk = u.clk ∧ bit (v.reg R.TBS_STS) 2 = true ∧ bit (v.reg 0x1014) 2 = true := by
  have hcause : (u.setRc R.TBS_STS 2).cause 0x01 0 2 = (u.setRc R.TBS_STS 2).causeAt 0x1014 (pageNo u.build 0x01 0) 2 :=
    if_pos (tbs_causes u.build)
  simp only [hcause]
  refine ⟨causeAt_clk (u.setRc R.TBS_STS 2) _ 2 (.inl (by decide)), ?_, ?_⟩
  · rw [causeAt_reg _ _ _ _ (by decide) (by decide), reg_setRb_ne _ _ _ (by decide), reg_setRc, reg_setRb_same, bit_setBit]
    rfl
  · rw [causeAt_reg _ _ _ _ (by decide) (by decide), reg_setRb_same, bit_setBit]
    rfl

theorem incNs_accepted {u : Blk} {ns : Byte} (h : ns ++ u.clk.fracHeld ≠ 0) :
    u.incNs ns = { u with clk := { u.clk with hold := false, discAt := u.clk.ival, inc := ns ++ u.clk.fracHeld } } := if_neg h

theorem incNs_refused {u : Blk} {ns : Byte} (h : ns ++ u.clk.fracHeld = 0) :
    u.incNs ns = (({ u with clk := { u.clk with hold := false, discAt := u.clk.ival } } : Blk).setRc R.TBS_STS 2).cause 0x01 0 2 := if_pos h

/-! ### Latched reads (R34) -/

theorem timeRead_tb0 (u : Blk) : u.timeRead false =
    { u with clk := { u.clk with latNsh := u.clk.tb.extractLsb' 64 32, latFrac := u.clk.tb.extractLsb' 0 32, latTb1 := u.clk.tb1 },
             out := .read 0x1040 ((u.clk.tb.extractLsb' 32 32).setWidth 64) :: u.out } := by
  have hhigh : BitVec.ofNat 32 (u.clk.ns.toNat / 2 ^ 32) = u.clk.tb.extractLsb' 64 32 := by
    apply BitVec.eq_of_toNat_eq
    simp only [Clock.ns, BitVec.toNat_ofNat, BitVec.extractLsb'_toNat, Nat.shiftRight_eq_div_pow]
    omega
  have hlow : BitVec.ofNat 64 (u.clk.ns.toNat % 2 ^ 32) = (u.clk.tb.extractLsb' 32 32).setWidth 64 := by
    apply BitVec.eq_of_toNat_eq
    simp only [Clock.ns, BitVec.toNat_ofNat, BitVec.extractLsb'_toNat, BitVec.toNat_setWidth, Nat.shiftRight_eq_div_pow]
    omega
  rw [← hhigh, ← hlow]
  rfl

theorem timeRead_tb1 (u : Blk) : u.timeRead true =
    { u with clk := { u.clk with latTb1h := u.clk.tb1.extractLsb' 32 32 },
             out := .read 0x1080 ((u.clk.tb1.extractLsb' 0 32).setWidth 64) :: u.out } := by
  have hhigh : BitVec.ofNat 32 (u.clk.tb1.toNat / 2 ^ 32) = u.clk.tb1.extractLsb' 32 32 := by
    apply BitVec.eq_of_toNat_eq
    simp only [BitVec.toNat_ofNat, BitVec.extractLsb'_toNat, Nat.shiftRight_eq_div_pow]
  have hlow : BitVec.ofNat 64 (u.clk.tb1.toNat % 2 ^ 32) = (u.clk.tb1.extractLsb' 0 32).setWidth 64 := by
    apply BitVec.eq_of_toNat_eq
    simp only [BitVec.toNat_ofNat, BitVec.extractLsb'_toNat, BitVec.toNat_setWidth, Nat.shiftRight_zero]
  rw [← hhigh, ← hlow]
  rfl

/-! ### The 1PPS input (R49) -/

theorem ppsIn_reg_sts (u : Blk) (i : Nat) : bit (u.ppsIn.reg R.TBS_STS) i = (decide (i = 3) || bit (u.reg R.TBS_STS) i) := by
  have hsts : u.ppsIn.reg R.TBS_STS = setBit (u.reg R.TBS_STS) 3 true := by
    simp (disch := decide) only [Blk.ppsIn, Blk.setN, reg_setReg_ne, reg_setRc, reg_setRb_same]
  rw [hsts, bit_setBit]
  split <;> simp_all

theorem ppsIn_capture (u : Blk) : u.ppsIn.reg 0x1100 = u.clk.tb.extractLsb' 32 32 ∧ u.ppsIn.reg 0x1104 = u.clk.tb.extractLsb' 64 32 ∧
    u.ppsIn.reg 0x1108 = u.clk.tb.extractLsb' 0 32 := by
  have hlow : BitVec.ofNat 32 u.clk.ns.toNat = u.clk.tb.extractLsb' 32 32 := by
    apply BitVec.eq_of_toNat_eq
    simp only [Clock.ns, BitVec.toNat_ofNat, BitVec.extractLsb'_toNat, Nat.shiftRight_eq_div_pow]
    omega
  have hhigh : BitVec.ofNat 32 (u.clk.ns.toNat / 2 ^ 32) = u.clk.tb.extractLsb' 64 32 := by
    apply BitVec.eq_of_toNat_eq
    simp only [Clock.ns, BitVec.toNat_ofNat, BitVec.extractLsb'_toNat, Nat.shiftRight_eq_div_pow]
    omega
  rw [← hlow, ← hhigh]
  refine ⟨?_, ?_, reg_setReg_same _ _ _⟩
  · exact (reg_setReg_ne _ _ (by decide)).trans ((reg_setReg_ne _ _ (by decide)).trans (reg_setReg_same _ _ _))
  · exact (reg_setReg_ne _ _ (by decide)).trans (reg_setReg_same _ _ _)

theorem ppsIn_reg_other (u : Blk) {k : Nat} (h : k ∉ [R.TBS_STS, 0x1100, 0x1104, 0x1108]) : u.ppsIn.reg k = u.reg k := by
  simp only [List.mem_cons, List.not_mem_nil, or_false, not_or] at h
  obtain ⟨hsts, hnsl, hnsh, hfrac⟩ := h
  rw [Blk.ppsIn, reg_setReg_ne _ _ hfrac, Blk.setN, reg_setReg_ne _ _ hnsh, Blk.setN, reg_setReg_ne _ _ hnsl, reg_setRc, reg_setRb_ne _ _ _ hsts]

end Sys2Proof.Machine

namespace Sys2Proof.Slice0

open Sys2Proof.Machine

/-- A command of driver software on what both builds hold, in a build whose registers it reaches. -/
theorem blkBecomes_of_host {b : Build} {c : Instr} {s : State} {f : Blk → Blk} (hexec : exec c s = onHostBlk b f s) (h : s.Open b) :
    BlkBecomes b c s (f (s.blkOf b)) := by
  obtain ⟨hfree, hstep⟩ := h
  cases b with
  | leaf => exact hexec.trans (onLeaf_free (fun l => l.blk f) hfree)
  | tray => exact hexec.trans ((onBar_open (fun t => t.blk f) (hstep rfl)).trans (onTray_free (fun t => t.blk f) hfree))

/-- Settles O11: the write of `INC_NS` takes the pair where it is not zero and refuses it where it is. -/
theorem incrementTakesEffectAsAPair : Obligations.IncrementTakesEffectAsAPair := by
  intro s b hopen u
  refine ⟨fun w => blkBecomes_of_host (f := fun u => u.incFrac w) rfl hopen, fun ns hns => ?_, fun ns hns => ?_⟩
  · rw [← incNs_accepted hns]
    exact blkBecomes_of_host (f := fun u => u.incNs ns) rfl hopen
  · intro v
    obtain ⟨hclk, hsts, hcause⟩ := incRejected { u with clk := { u.clk with hold := false, discAt := u.clk.ival } }
    refine ⟨?_, (congrArg Clock.inc hclk :), hsts, hcause⟩
    rw [show v = u.incNs ns from (incNs_refused hns).symm]
    exact blkBecomes_of_host (f := fun u => u.incNs ns) rfl hopen

/-- Settles O12: a read of either word latches the rest of the same cycle. -/
theorem timeReadLatchesOneInstant : Obligations.TimeReadLatchesOneInstant := by
  intro s b hopen u
  rw [← timeRead_tb0, ← timeRead_tb1]
  exact ⟨blkBecomes_of_host (f := fun u => u.timeRead false) rfl hopen, blkBecomes_of_host (f := fun u => u.timeRead true) rfl hopen⟩

/-- Settles O17: the angle is read in the cycle in which index and TB1 are latched. -/
theorem angleReadLatchesOneStamp : Obligations.AngleReadLatchesOneStamp := by
  intro s b slot hopen u k
  obtain ⟨hfree, hstep⟩ := hopen
  cases b with
  | leaf => exact onLeaf_free (fun l => l.angOut k) hfree
  | tray => exact (onBar_open (fun t => t.angOut k) (hstep rfl)).trans (onTray_free _ hfree)

/-- Settles O18: the two writes are the commands' own updates of the slot clock. -/
theorem seedAndIndexWrites : Obligations.SeedAndIndexWrites := by
  intro s slot hfree u c
  refine ⟨fun hi => ?_, fun w => onLeaf_free (fun l => l.idxSet slot w) hfree⟩
  have hseed : (!c.en && decide (({ c with seedH := hi } : StepClk).seed ≠ 0)) = true ↔ c.en = false ∧ hi ++ c.seedL ≠ 0 := by
    rw [Bool.and_eq_true, Bool.not_eq_true', decide_eq_true_eq]
    rfl
  have hif := if_congr hseed (Eq.refl ({ c with seedH := hi, per := hi ++ c.seedL, estValid := true } : StepClk))
    (Eq.refl ({ c with seedH := hi } : StepClk))
  rw [← hif]
  exact onLeaf_free (fun l => l.pseedHigh slot hi) hfree

/-- Settles O21: the edge writes the status bit and the three capture registers. -/
theorem ppsInputLatchesTime : Obligations.PpsInputLatchesTime := by
  intro s hfree
  obtain ⟨hnsl, hnsh, hfrac⟩ := ppsIn_capture s.tray.u
  exact ⟨s.tray.u.ppsIn, onTray_free (fun t => t.blk Blk.ppsIn) hfree, rfl, ppsIn_reg_sts s.tray.u, hnsl, hnsh, hfrac,
    fun k hk => ppsIn_reg_other s.tray.u hk⟩

end Sys2Proof.Slice0

/-! A change of TB0 (R32, R38): the clock is what the new value and the 1PPS output make it. -/

namespace Sys2Proof.Machine

theorem gateSwapNow_frame (u : Blk) (p : Nat) : (u.gateSwapNow p).frame = u.frame := bumpSeq_frame (u.modPort p _) 0x11 0

theorem gateSettle_frame (u : Blk) (p : Nat) : (u.gateSettle p).frame = u.frame := by
  simp only [Blk.gateSettle, apply_ite Blk.frame, gateSwapNow_frame, ite_self]

theorem gateRebase_frame (u : Blk) (p : Nat) : (u.gateRebase p).frame = u.frame := by
  simp only [Blk.gateRebase, Blk.gateFollow, modPort_frame, apply_ite Blk.frame, gateSwapNow_frame, ite_self]

theorem firePassed_frame (u : Blk) (a : TimedAction) : (u.firePassed a).frame = u.frame := rfl

theorem egressAfterJump_frame (u : Blk) (old : W64) : (u.egressAfterJump old).frame = u.frame := by
  unfold Blk.egressAfterJump
  extract_lets passed v
  have hv : v.frame = u.frame := by
    refine foldl_frame _ _ _ fun w e => ?_
    rw [modPort_frame, bumpBy_frame _ _ (aside_add (by decide) _)]
  rw [foldl_frame _ _ _ fun w e => ?_, hv]
  rw [gateRebase_frame, gateSettle_frame]

/-- TB0 with a new value, valid, before anything follows it. -/
def Blk.withTb0 (u : Blk) (v : W96) : Blk := { u with clk := { u.clk with tb := v, valid := true } }

/-- Of the frame a new value of TB0 changes the clock alone, with the 1PPS output where a whole second is reached (R32, R49). -/
theorem setTb0_frame (u : Blk) (v : W96) : (u.setTb0 v).frame = ((u.withTb0 v).ppsCross u.clk.ns).frame := by
  have hmove : (u.moveTb0 v).frame = ((u.withTb0 v).ppsCross u.clk.ns).frame := (report_frame _ _ _ _).trans (cause_frame _ _ _ _)
  rw [Blk.setTb0, egressAfterJump_frame, foldl_frame _ _ _ firePassed_frame, hmove]

/-- A leaf build has no 1PPS output: TB0 takes the value and is valid, and the rest of the clock is as before. -/
theorem setTb0_clk_of_leaf {u : Blk} (h : u.build = .leaf) (v : W96) : (u.setTb0 v).clk = { u.clk with tb := v, valid := true } := by
  have hcross : (u.withTb0 v).ppsCross u.clk.ns = u.withTb0 v := by simp only [Blk.ppsCross, Blk.withTb0, h]
  rw [clk_of_frame (setTb0_frame u v), hcross]
  rfl

/-- An offset step and a load of a leaf that is a leaf build (R32, R33): what `State.wf` says of every state that the surroundings can bring about. -/
theorem offsetStep_load_clk_of_leaf {u : Blk} (h : u.build = .leaf) :
    u.offsetStep.clk = { u.clk with tb := u.clk.tb + u.ofs96, valid := true } ∧ u.loadTb0.clk = { u.clk with tb := u.ofs96, valid := true } :=
  ⟨setTb0_clk_of_leaf h _, setTb0_clk_of_leaf h _⟩

end Sys2Proof.Machine

namespace Sys2Proof.Slice0

open Sys2Proof.Machine

/-- A state whose leaf holds a T build's registers and 1PPS output: no run reaches it (`State.wf` fails), but O14 does not exclude it. TB0 stands at 1 ns. -/
def trayInLeaf : State :=
  { State.reset with leaf := { Leaf.reset with u := { Blk.reset .tray with clk := { Clock.reset .tray with tb := 0x100000000#96 } } } }

/-- The load of zero reaches a whole second, which raises the 1PPS output there. -/
theorem trayInLeaf_load_raises_pps : trayInLeaf.leaf.u.loadTb0.clk.ppsOut = true := by
  rw [Blk.loadTb0, clk_of_frame (setTb0_frame _ _)]
  decide

/-- Refutes O14: it speaks of every state, and where the leaf's own `build` is the T build's (`State.wf` fails) a load that reaches a whole second also raises
the 1PPS output, which is part of the clock. For leaf builds the statement holds (`offsetStep_load_clk_of_leaf`). -/
theorem not_offsetStepAndLoadSetTheTime : ¬ Obligations.OffsetStepAndLoadSetTheTime := by
  intro h
  obtain ⟨-, l, hload, hclk⟩ := h trayInLeaf rfl
  have hexec : exec (.load .leaf) trayInLeaf = .next { trayInLeaf with leaf := trayInLeaf.leaf.blk Blk.loadTb0 } :=
    onLeaf_free (fun l => l.blk Blk.loadTb0) rfl
  have hl : l = trayInLeaf.leaf.blk Blk.loadTb0 := congrArg State.leaf (Host.Outcome.next.inj (hload.symm.trans hexec))
  have hpps : l.u.clk.ppsOut = false := congrArg Clock.ppsOut hclk
  rw [hl, Leaf.blk_u, trayInLeaf_load_raises_pps] at hpps
  exact Bool.noConfusion hpps

end Sys2Proof.Slice0

/-! What reset leaves (R31, R33, R60, R105, R315, R452). -/

namespace Sys2Proof.Slice0

open Sys2Proof.Machine

/-- The T build's recorder has handed its recovery marker on to the event queue, and its own ring is empty. -/
theorem reset_tray_ring_empty : (State.reset.blkOf .tray).rcd.ring.length = 0 := by decide

/-- Refutes O9: it asks for one record in the ring of each build's recorder, and at reset the T build's ring holds none. -/
theorem not_resetLeavesTheSpecsValues : ¬ Obligations.ResetLeavesTheSpecsValues := by
  rintro ⟨-, hblk, -⟩
  obtain ⟨-, -, -, -, -, hring, -⟩ := hblk .tray
  rw [reset_tray_ring_empty] at hring
  exact Nat.noConfusion hring

end Sys2Proof.Slice0

/-! What a slot of the counter ring does to the counter store (R58, R59, R62 to R65): it is counted as a mismatch, passes a store that is taken, or reaches the
one counter that its source is mapped to. -/

namespace Sys2Proof.Machine

/-! ### What a cause and the windows leave -/

/-- A cause of another page leaves a register that is neither `ERR.FIRST` with its time nor a pending bit of MSI-X (R383). -/
theorem cause_reg_ne (u : Blk) (p n i : Nat) {j : Nat} (hpage : j ≠ inst (p * 0x1000 + H.PGCAUSE) n)
    (hfirst : j ∉ [R.ERR_FIRST, R.ERR_FIRSTT_L, R.ERR_FIRSTT_H]) (hpba : j < 0x58000001) : (u.cause p n i).reg j = u.reg j := by
  unfold Blk.cause
  split
  · rw [causeAt_reg _ _ _ _ hfirst hpba, reg_setRb_ne _ _ _ hpage]
  · rfl

/-- Without windows no count moves (R69). -/
theorem tapWindows_none {l : Leaf} (h : l.ctr.windows = []) (source v : Nat) : l.tapWindows source v = l := by
  rw [Leaf.tapWindows, h, List.foldl_nil]

/-- Of counters, ring and sampler the windows change only themselves (R69). -/
theorem tapWindows_keeps_ctr {γ : Type} (p : Ctr → γ) (hwin : ∀ c ws, p { c with windows := ws } = p c) (l : Leaf) (source v : Nat) :
    p (l.tapWindows source v).ctr = p l.ctr := by
  refine foldl_keeps (fun m : Leaf => p m.ctr) _ _ _ (fun m e => ?_)
  split
  · simp only [apply_ite Leaf.ctr, Leaf.blk_ctr, hwin, ite_self]
  · rfl

theorem tapWindows_store (l : Leaf) (source v : Nat) : (l.tapWindows source v).ctr.store = l.ctr.store :=
  tapWindows_keeps_ctr Ctr.store (fun _ _ => rfl) l source v
theorem tapWindows_parity (l : Leaf) (source v : Nat) : (l.tapWindows source v).ctr.parity = l.ctr.parity :=
  tapWindows_keeps_ctr Ctr.parity (fun _ _ => rfl) l source v
theorem tapWindows_srcMap (l : Leaf) (source v : Nat) : (l.tapWindows source v).ctr.srcMap = l.ctr.srcMap :=
  tapWindows_keeps_ctr Ctr.srcMap (fun _ _ => rfl) l source v
theorem tapWindows_fault (l : Leaf) (source v : Nat) : (l.tapWindows source v).ctr.fault = l.ctr.fault :=
  tapWindows_keeps_ctr Ctr.fault (fun _ _ => rfl) l source v
theorem tapWindows_isGauge (l : Leaf) (source v n : Nat) : (l.tapWindows source v).isGauge n = l.isGauge n :=
  tapWindows_keeps_ctr (fun c => smGet c.gauges n false) (fun _ _ => rfl) l source v

/-- Whatever a saturated window's cause leaves, the windows leave (R69). -/
theorem tapWindows_keeps_u {γ : Type} (p : Blk → γ) (hcause : ∀ u : Blk, p (u.cause 0x05 0 0) = p u) (l : Leaf) (source v : Nat) :
    p (l.tapWindows source v).u = p l.u := by
  refine foldl_keeps (fun m : Leaf => p m.u) _ _ _ (fun m e => ?_)
  split
  · simp only [apply_ite Leaf.u, apply_ite p, Leaf.blk_u, hcause, ite_self]
  · rfl

theorem tapWindows_rcd (l : Leaf) (source v : Nat) : (l.tapWindows source v).u.rcd = l.u.rcd :=
  tapWindows_keeps_u Blk.rcd (fun u => cause_rcd u _ _ _) l source v

theorem tapWindows_mismatches (l : Leaf) (source v : Nat) : (l.tapWindows source v).u.reg R.CNT_MISMATCH = l.u.reg R.CNT_MISMATCH :=
  tapWindows_keeps_u (fun u => u.reg R.CNT_MISMATCH) (fun u => cause_reg_ne u _ _ _ (by decide) (by decide) (by decide)) l source v

/-! ### Counters -/

/-- A sum that stops at a maximum is the lesser of the two. -/
theorem satAdd_eq_min (x y max : Nat) : satAdd x y max = min (x + y) max := by
  unfold satAdd
  split <;> omega

theorem counter_setCounter_same (l : Leaf) (n : Nat) (c : Counter) : (l.setCounter n c).counter n = c := smGet_set_same _ _ _ _

theorem counter_setCounter_ne (l : Leaf) {n m : Nat} (c : Counter) (h : m ≠ n) : (l.setCounter n c).counter m = l.counter m :=
  smGet_set_ne _ _ _ _ h

/-- Leaves with one store have the same counters. -/
theorem counter_of_store {l m : Leaf} (h : m.ctr.store = l.ctr.store) (n : Nat) : m.counter n = l.counter n :=
  congrArg (fun x => smGet x n Counter.zero) h

/-- An increment without its slot's saturation mark that a counter has room for (R59, R62). -/
abbrev Counter.Fits (c : Counter) (v : Nat) (sat : Bool) : Prop := sat = false ∧ c.val.toNat + v ≤ 0x00FFFFFFFFFFFFFF

/-- A sum counter after an increment (R59, R62). -/
def Counter.add (c : Counter) (v : Nat) (sat : Bool) : Counter :=
  if c.Fits v sat then ⟨BitVec.ofNat 56 (c.val.toNat + v), c.ovf⟩ else ⟨0xFFFFFFFFFFFFFF#56, true⟩

/-- What counter `n` reports when its overflow bit rises (R59). -/
def Blk.counterOverflowed (u : Blk) (n : Nat) : Blk := ((u.reportOpen 0x04 1 .dflt [n]).setRb R.CNT_STS 2 true).cause 0x04 0 0

/-- A first overflow shows in `ovf_any` (R59). -/
theorem counterOverflowed_sts (u : Blk) (n : Nat) : bit ((u.counterOverflowed n).reg R.CNT_STS) 2 = true := by
  rw [Blk.counterOverflowed, cause_reg_ne _ _ _ _ (by decide) (by decide) (by decide), reg_setRb_same, bit_setBit]
  rfl

section
variable {l : Leaf} {n : Nat} (hpar : smGet l.ctr.parity n false = false)
include hpar

/-- A counter with good parity reads as it stands (R384). -/
theorem readCounter_good : l.readCounter n = (l, l.counter n) := by
  simp only [Leaf.readCounter, hpar, Bool.false_eq_true, if_false]

/-- All an increment of a counter with good parity does: the counter takes its sum, and a first overflow is reported (R59). -/
theorem counterAdd_good (v : Nat) (sat : Bool) : l.counterAdd n v sat =
    let m := l.setCounter n ((l.counter n).add v sat)
    if (l.counter n).Fits v sat ∨ (l.counter n).ovf = true then m else m.blk (fun u => u.counterOverflowed n) := by
  have hfits : (!sat && decide ((l.counter n).val.toNat + v ≤ counterMax)) = true ↔ (l.counter n).Fits v sat := by
    rw [Bool.and_eq_true, Bool.not_eq_true', decide_eq_true_eq]
    rfl
  simp only [Leaf.counterAdd, readCounter_good hpar, hfits, Counter.add]
  by_cases h : (l.counter n).Fits v sat
  · rw [if_pos h, if_pos h, if_pos (.inl h)]
  · rw [if_neg h, if_neg h]
    exact (if_congr (or_iff_right h) rfl rfl).symm

theorem counterAdd_fits {v : Nat} {sat : Bool} (h : (l.counter n).Fits v sat) :
    l.counterAdd n v sat = l.setCounter n ⟨BitVec.ofNat 56 ((l.counter n).val.toNat + v), (l.counter n).ovf⟩ := by
  rw [counterAdd_good hpar, Counter.add, if_pos h]
  exact if_pos (.inl h)

theorem counterAdd_overflows {v : Nat} {sat : Bool} (h : ¬(l.counter n).Fits v sat) (hovf : (l.counter n).ovf = false) :
    bit ((l.counterAdd n v sat).u.reg R.CNT_STS) 2 = true := by
  have hnot : ¬((l.counter n).Fits v sat ∨ (l.counter n).ovf = true) := not_or.mpr ⟨h, Bool.eq_false_iff.mp hovf⟩
  rw [counterAdd_good hpar]
  simp only [if_neg hnot, Leaf.blk_u]
  exact counterOverflowed_sts _ n

/-- Of the store an increment changes its own counter. -/
theorem counterAdd_counter (v : Nat) (sat : Bool) (m : Nat) :
    (l.counterAdd n v sat).counter m = (l.setCounter n ((l.counter n).add v sat)).counter m := by
  rw [counterAdd_good hpar]
  refine counter_of_store ?_ m
  simp only [apply_ite Leaf.ctr, Leaf.blk_ctr, ite_self]

end

/-! ### A value slot is applied (R65) -/

/-- The entry of the source map for a slot, and the counter it names (R66). -/
abbrev Leaf.srcEntry (l : Leaf) (source : Nat) : W16 := smGet l.ctr.srcMap source 0
abbrev Leaf.target (l : Leaf) (source : Nat) : Nat := fld (l.srcEntry source) 0 13

@[simp] theorem slotMismatch_ctr (l : Leaf) : l.slotMismatch.ctr = l.ctr := rfl

theorem slotMismatch_counts (l : Leaf) : l.slotMismatch.u.reg R.CNT_MISMATCH = satInc32 (l.u.reg R.CNT_MISMATCH) :=
  (cause_reg_ne (l.u.bump R.CNT_MISMATCH) _ _ _ (by decide) (by decide) (by decide)).trans (reg_setReg_same _ _ _)

/-- While a read takes the store no counter changes (R63). -/
theorem applySlot_taken (l : Leaf) (kind source v : Nat) (sat : Bool) : (l.applySlot kind source v sat false).ctr = l.ctr := by
  simp only [Leaf.applySlot, Bool.not_false, Bool.or_true, if_true, apply_ite Leaf.ctr, slotMismatch_ctr, ite_self]

/-- A slot of the other kind than its counter is discarded. -/
theorem applySlot_mismatch {l : Leaf} {source kind : Nat} (hkind : l.isGauge (l.target source) ≠ decide (kind = 1)) (v : Nat) (sat free : Bool) :
    l.applySlot kind source v sat free = l.slotMismatch :=
  if_pos (by rw [Bool.or_eq_true, bne_iff_ne]; exact .inr hkind)

/-- A gauge counter takes a value, zero-extended, and its parity is good (R58, R384). -/
def Leaf.setGauge (l : Leaf) (n v : Nat) : Leaf :=
  let m := l.setCounter n ⟨BitVec.ofNat 56 v, (l.counter n).ovf⟩
  { m with ctr := { m.ctr with parity := smSet m.ctr.parity n false false } }

/-- A slot of its counter's kind reaches the counter, where no ring fault stands and no read takes the store (R58, R59). -/
theorem applySlot_matching {l : Leaf} {source kind : Nat} (hmap : bit (l.srcEntry source) 15 = true) (hfault : l.ctr.fault = false)
    (hkind : l.isGauge (l.target source) = decide (kind = 1)) (v : Nat) (sat : Bool) : l.applySlot kind source v sat true =
      if l.isGauge (l.target source) then l.setGauge (l.target source) v else l.counterAdd (l.target source) v sat := by
  have hmatch : ¬(!bit (l.srcEntry source) 15 || l.isGauge (l.target source) != decide (kind = 1)) = true := by simp [hmap, hkind]
  have hfree : ¬(l.ctr.fault || !true) = true := by simp [hfault]
  exact (if_neg hmatch).trans (if_neg hfree)

/-! ### A slot arrives (R61, R63) -/

/-- Slots with good parity reach the controller as they are, in a cycle without a read and without an injected fault. -/
theorem slotArrival_good {l : Leaf} {w : W64} (hpar : slotParityOk w = true) (harm : l.u.armed 0x04 0 1 = false) (hdue : l.readDue = false) :
    l.slotArrival w = l.slotIn w true := by
  simp [Leaf.slotArrival, hpar, harm, hdue]

theorem slotIn_sum {w : W64} (hvalid : bit w 63 = true) (hkind : fld w 60 2 = 0) (l : Leaf) (free : Bool) :
    l.slotIn w free = (l.tapWindows (fld w 46 14) (fld w 0 32)).applySlot 0 (fld w 46 14) (fld w 0 32) (bit w 45) free := by
  simp [Leaf.slotIn, hvalid, hkind]

theorem slotIn_gauge {w : W64} (hvalid : bit w 63 = true) (hkind : fld w 60 2 = 1) (l : Leaf) (free : Bool) :
    l.slotIn w free = l.applySlot 1 (fld w 46 14) (fld w 0 32) (bit w 45) free := by
  simp [Leaf.slotIn, hvalid, hkind]

/-- A sum slot is counted by the windows, and then is the increment of the one counter its source names (R59, R66, R69). -/
theorem slotArrival_sum {l : Leaf} {w : W64} (hvalid : bit w 63 = true) (hpar : slotParityOk w = true) (harm : l.u.armed 0x04 0 1 = false)
    (hfault : l.ctr.fault = false) (hdue : l.readDue = false) (hmap : bit (l.srcEntry (fld w 46 14)) 15 = true) (hkind : fld w 60 2 = 0)
    (hsum : l.isGauge (l.target (fld w 46 14)) = false) : l.slotArrival w =
      (l.tapWindows (fld w 46 14) (fld w 0 32)).counterAdd (l.target (fld w 46 14)) (fld w 0 32) (bit w 45) := by
  rw [slotArrival_good hpar harm hdue, slotIn_sum hvalid hkind]
  set t := l.tapWindows (fld w 46 14) (fld w 0 32)
  have hentry : t.srcEntry (fld w 46 14) = l.srcEntry (fld w 46 14) := by rw [Leaf.srcEntry, tapWindows_srcMap]
  have hgauge : t.isGauge (t.target (fld w 46 14)) = false := by rw [Leaf.target, hentry, tapWindows_isGauge]; exact hsum
  rw [applySlot_matching (by rw [hentry]; exact hmap) ((tapWindows_fault l _ _).trans hfault) (by rw [hgauge]; rfl), hgauge,
    Leaf.target, hentry]
  rfl

/-- The return of a marker leaves the counters (R64). -/
theorem markerReturn_store (l : Leaf) : l.markerReturn.ctr.store = l.ctr.store := by
  unfold Leaf.markerReturn
  split
  · rfl
  · split <;> rfl

/-- A slot that finds the store taken leaves the counters (R63). -/
theorem slotIn_taken_store (l : Leaf) (w : W64) : (l.slotIn w false).ctr.store = l.ctr.store := by
  unfold Leaf.slotIn
  extract_lets kind source v m
  split
  · rfl
  · split
    · split
      · split
        · exact markerReturn_store l
        · rfl
      · rfl
    · split
      · rfl
      · simp only [applySlot_taken, m, apply_ite Leaf.ctr, apply_ite Ctr.store, tapWindows_store, ite_self]

/-- In the cycle of a held read the counters are what the read leaves, whatever slot arrives (R63). -/
theorem slotArrival_due_store {l : Leaf} (hdue : l.readDue = true) (w : W64) : (l.slotArrival w).ctr.store = l.serveOne.ctr.store := by
  simp only [Leaf.slotArrival, hdue, if_true, Bool.true_and, Bool.not_true]
  generalize hinj : (bit w 63 && _) = inj
  simp only [apply_ite Leaf.ctr, apply_ite Ctr.store, Leaf.blk_ctr, slotIn_taken_store, ite_self]
  split <;> rfl

end Sys2Proof.Machine

namespace Sys2Proof.Slice0

open Sys2Proof.Machine

/-- A command of the counter ring in a leaf that no reset holds. -/
theorem leafBecomes_of_ring {c : Instr} {s : State} {f : Leaf → Leaf} (hexec : exec c s = onRing f s) (h : Free s .leaf) :
    LeafBecomes c s (f s.leaf) :=
  hexec.trans (onRing_free f (ne_of_eq_of_ne h (Option.some_ne_none _).symm))

theorem slotArrival_becomes {s : State} (w : W64) (h : Free s .leaf) : LeafBecomes (.ringSlotArrival w) s (s.leaf.slotArrival w) :=
  leafBecomes_of_ring (f := fun l => l.slotArrival w) rfl h

/-- Settles O22: once the windows have counted it, the slot is the increment of the one counter its source names. -/
theorem sumCounterSaturates : Obligations.SumCounterSaturates := by
  intro s w hfree l src e n hvalid hparity harm hfault hdue hmap hkind hsum hgood c sum
  have harrive : l.slotArrival w = (l.tapWindows src (fld w 0 32)).counterAdd n (fld w 0 32) (bit w 45) :=
    slotArrival_sum hvalid hparity harm hfault hdue hmap hkind hsum
  have hpar : smGet (l.tapWindows src (fld w 0 32)).ctr.parity n false = false := by rw [tapWindows_parity]; exact hgood
  have hc : (l.tapWindows src (fld w 0 32)).counter n = c := counter_of_store (tapWindows_store l src _) n
  have hclk : (l.slotArrival w).u.clk = l.u.clk := clk_of_frame (slotArrival_frame l w)
  refine ⟨l.slotArrival w, slotArrival_becomes w hfree, ?_, fun m hm => ?_, hclk, fun hfits => ?_, fun hover hovf => ?_, fun hfits hnone => ?_⟩
  · rw [harrive, counterAdd_counter hpar, counter_setCounter_same, hc]
    rfl
  · rw [harrive, counterAdd_counter hpar, counter_setCounter_ne _ _ hm]
    exact counter_of_store (tapWindows_store l src _) m
  · rw [harrive, counterAdd_fits hpar (by rw [hc]; exact hfits)]
    exact tapWindows_rcd l src _
  · rw [harrive]
    exact counterAdd_overflows hpar (by rw [hc]; exact hover) (by rw [hc]; exact hovf)
  · rw [harrive, counterAdd_fits hpar (by rw [hc]; exact hfits), hc, tapWindows_none hnone]
    rfl

/-- Settles O23: a gauge slot sets its counter, a slot of the other kind only counts, and a held read takes the store for its cycle. -/
theorem gaugeCounterTakesTheLastValue : Obligations.GaugeCounterTakesTheLastValue := by
  intro s w hfree
  have hbecomes := slotArrival_becomes w hfree
  refine ⟨fun hdue => ⟨_, hbecomes, counter_of_store (slotArrival_due_store hdue w)⟩, ?_⟩
  intro l src e n hvalid hparity harm hfault hdue hmap
  rw [show s.leaf.slotArrival w = l.slotIn w true from slotArrival_good hparity harm hdue] at hbecomes
  refine ⟨fun hkind hgauge => ⟨_, hbecomes, ?_⟩, fun hkind => ⟨_, hbecomes, ?_⟩⟩
  · rw [slotIn_gauge hvalid hkind, applySlot_matching (kind := 1) hmap hfault hgauge, if_pos hgauge]
    exact ⟨rfl, counter_setCounter_same l n _, fun m hm => counter_setCounter_ne l _ hm⟩
  · cases hgauge : l.isGauge n with
    | false =>
      rw [hgauge] at hkind
      rw [slotIn_gauge hvalid hkind, applySlot_mismatch (by rw [hgauge]; decide)]
      exact ⟨slotMismatch_counts l, fun m => rfl⟩
    | true =>
      rw [hgauge] at hkind
      have htarget : (l.tapWindows src (fld w 0 32)).target src = n := by rw [Leaf.target, Leaf.srcEntry, tapWindows_srcMap]
      rw [slotIn_sum hvalid hkind, applySlot_mismatch (by rw [htarget, tapWindows_isGauge, hgauge]; decide)]
      exact ⟨(slotMismatch_counts _).trans (congrArg satInc32 (tapWindows_mismatches l src _)),
        counter_of_store (tapWindows_store l src _)⟩

/-- Settles O24: a stop that is not bypassed adds the increment to its source's accumulator, a bypassed one stays as it is. -/
theorem stopAccumulatesAndSaturates : Obligations.StopAccumulatesAndSaturates := by
  intro s base src inc g hfree l st a
  have hbecomes : LeafBecomes (.stopIncrement base src inc g) s (l.stopIncrement base.toNat src inc.toNat g) :=
    leafBecomes_of_ring (f := fun l => l.stopIncrement base.toNat src inc.toNat g) rfl hfree
  constructor
  · intro hbyp
    rwa [show l.stopIncrement base.toNat src inc.toNat g = l from if_pos hbyp] at hbecomes
  · intro hbyp
    rw [Leaf.stopIncrement, if_neg (Bool.eq_false_iff.mp hbyp)] at hbecomes
    exact hbecomes

/-- Settles O25: an attached slot takes grant and level, one that is not raises the cause alone. -/
theorem creditIsAddedAtOnceAndTheLevelWaits : Obligations.CreditIsAddedAtOnceAndTheLevelWaits := by
  intro s slot level grant hfree l k
  have hbecomes : LeafBecomes (.creditMessage slot level grant) s (l.credit slot level.toNat grant.toNat) :=
    onLeaf_free (fun l => l.credit slot level.toNat grant.toNat) hfree
  constructor
  · intro hen
    rw [Leaf.credit, if_pos hen] at hbecomes
    refine ⟨l.u.setN k (satAdd (l.u.rn k) grant.toNat 65535), ⟨rfl, fun j hj => ?_⟩, ?_, hbecomes⟩
    · exact reg_setReg_ne _ _ (by simpa only [List.mem_singleton] using hj)
    · rw [Blk.setN, reg_setReg_same, satAdd_eq_min, BitVec.toNat_ofNat, Nat.mod_eq_of_lt (by omega)]
      rfl
  · intro hen
    rwa [Leaf.credit, if_neg (Bool.eq_false_iff.mp hen)] at hbecomes

end Sys2Proof.Slice0

/-! The trace ring (R96 to R98): what recording an event leaves of the registers, and what a write of the read pointer does. -/

namespace Sys2Proof.Machine

/-! ### Registers that recording an event leaves (R105, R108, R110, R383) -/

/-- The registers that a report may write: the recorder's numbers and losses, the history's losses, the causes of both pages, and `ERR.FIRST` with its time. -/
def reportRegs : List Nat :=
  [R.EVR_SEQ, R.EVR_LOST, R.EVR_LOSTTOT, inst (0x08 * 0x1000 + H.PGCAUSE) 0, R.HIS_LOST, inst (0x09 * 0x1000 + H.PGCAUSE) 0,
    R.ERR_FIRST, R.ERR_FIRSTT_L, R.ERR_FIRSTT_H]

/-- A register that no report writes: none of the list, and no pending bit of MSI-X. -/
abbrev Unreported (j : Nat) : Prop := j ∉ reportRegs ∧ j < 0x58000001

theorem Unreported.ne {j k : Nat} (h : Unreported j) (hk : k ∈ reportRegs) : j ≠ k := fun e => h.1 (e ▸ hk)

/-- A cause of the recorder's own page, or of the history's. -/
theorem cause_unreported (u : Blk) (p i : Nat) {j : Nat} (hj : Unreported j) (hp : inst (p * 0x1000 + H.PGCAUSE) 0 ∈ reportRegs) :
    (u.cause p 0 i).reg j = u.reg j := by
  have hfirst : j ∉ [R.ERR_FIRST, R.ERR_FIRSTT_L, R.ERR_FIRSTT_H] := fun hmem => hj.1 (List.mem_append_right (reportRegs.take 6) hmem)
  exact cause_reg_ne u p 0 i (hj.ne hp) hfirst hj.2

theorem bump_unreported (u : Blk) {j k : Nat} (hj : Unreported j) (hk : k ∈ reportRegs) : (u.bump k).reg j = u.reg j :=
  reg_setReg_ne u _ (hj.ne hk)

theorem takeSeq_reg (u : Blk) {j : Nat} (hj : Unreported j) : u.takeSeq.reg j = u.reg j := reg_setReg_ne u _ (hj.ne (by decide))

theorem createRam_reg (u : Blk) (d : Rec) (o : Bool) {j : Nat} (hj : Unreported j) : (u.createRam d o).1.reg j = u.reg j := by
  unfold Blk.createRam
  extract_lets r v
  have hseq : v.reg j = u.reg j := takeSeq_reg u hj
  split
  · rw [cause_unreported _ _ _ hj (by decide), bump_unreported _ hj (by decide), bump_unreported _ hj (by decide)]
    exact hseq
  · exact hseq

theorem reg_his (u : Blk) (h : History) (j : Nat) : ({ u with his := h } : Blk).reg j = u.reg j := rfl

theorem hisQueue_reg (u : Blk) (k : RecKind) (p : BitVec 160) (role : HRole) {j : Nat} (hj : Unreported j) :
    (u.hisQueue k p role).reg j = u.reg j := by
  simp only [Blk.hisQueue, Blk.hisOwn, reg_his, createRam_reg u _ _ hj]

theorem headerDue_reg (u : Blk) {j : Nat} (hj : Unreported j) : u.headerDue.reg j = u.reg j := by
  unfold Blk.headerDue
  extract_lets h
  split
  · exact hisQueue_reg u _ _ _ hj
  · rfl

theorem hisStage_reg (u : Blk) (r : Rec) {j : Nat} (hj : Unreported j) : (u.hisStage r).1.reg j = u.reg j := by
  unfold Blk.hisStage
  extract_lets h
  split
  · exact headerDue_reg _ hj
  · exact (cause_unreported _ _ _ hj (by decide)).trans (bump_unreported _ hj (by decide))

theorem hisTick_reg (u : Blk) (r : Rec) {j : Nat} (hj : Unreported j) : (u.hisTick r).reg j = u.reg j := by
  unfold Blk.hisTick
  split
  · exact hisStage_reg u _ hj
  · split
    · rfl
    · exact hisStage_reg u _ hj

theorem hisFeed_reg (u : Blk) (r : Rec) {j : Nat} (hj : Unreported j) : (u.hisFeed r).1.reg j = u.reg j := by
  unfold Blk.hisFeed
  split
  · split
    · split
      · exact hisTick_reg u r hj
      · exact hisStage_reg u r hj
    · exact hisStage_reg u r hj
  · rfl

theorem create_reg (u : Blk) (d : Rec) (o : Bool) {j : Nat} (hj : Unreported j) : (u.create d o).reg j = u.reg j :=
  (hisFeed_reg _ _ hj).trans (createRam_reg u d o hj)

theorem reported_reg (u : Blk) (d : Rec) {j : Nat} (hj : Unreported j) : (u.reported d).reg j = u.reg j := by
  unfold Blk.reported
  split
  · split
    · extract_lets rep ring v
      split
      · exact hisTick_reg v _ hj
      · rfl
    · exact create_reg u d false hj
  · exact create_reg u d false hj

theorem report_reg (u : Blk) (k : RecKind) (src : StampSrc) (p : BitVec 160) {j : Nat} (hj : Unreported j) :
    (u.report k src p).reg j = u.reg j := by
  unfold Blk.report
  extract_lets d
  split
  · rfl
  · exact reported_reg u d hj

/-! ### The occupancy notice and a full ring (R96, R97) -/

/-- The occupancy notice reports at most: of both builds' common state it writes what a report writes. -/
theorem trcNotice_u (l : Leaf) : l.trcNotice.u = l.u ∨ l.trcNotice.u = l.u.reportOpen 0x06 2 .dflt [] := by
  unfold Leaf.trcNotice
  extract_lets t
  split
  · exact .inl rfl
  · split
    · exact .inr rfl
    · split
      · exact .inl rfl
      · exact .inl rfl

/-- A full ring sets at most a cause of TRC. -/
theorem trcFullCheck_u (l : Leaf) : l.trcFullCheck.u = l.u ∨ l.trcFullCheck.u = l.u.cause 0x06 0 2 := by
  unfold Leaf.trcFullCheck
  split
  · exact .inr rfl
  · exact .inl rfl

@[simp] theorem trcNotice_frame (l : Leaf) : l.trcNotice.u.frame = l.u.frame := by
  obtain h | h := trcNotice_u l
  · rw [h]
  · rw [h, reportOpen_frame]

@[simp] theorem trcFullCheck_frame (l : Leaf) : l.trcFullCheck.u.frame = l.u.frame := by
  obtain h | h := trcFullCheck_u l
  · rw [h]
  · rw [h, cause_frame]

@[simp] theorem trcNotice_rptr (l : Leaf) : l.trcNotice.u.reg R.TRC_RPTR = l.u.reg R.TRC_RPTR := by
  obtain h | h := trcNotice_u l
  · rw [h]
  · rw [h, Blk.reportOpen, report_reg _ _ _ _ (by decide)]

@[simp] theorem trcFullCheck_rptr (l : Leaf) : l.trcFullCheck.u.reg R.TRC_RPTR = l.u.reg R.TRC_RPTR := by
  obtain h | h := trcFullCheck_u l
  · rw [h]
  · rw [h, cause_reg_ne _ _ _ _ (by decide) (by decide) (by decide)]

/-! ### The read pointer (R96) -/

theorem trcRptr_misaligned (l : Leaf) {w : W32} (h : w.toNat % 64 ≠ 0) : l.trcRptr w = l.blk (fun u => u.cause 0x06 0 4) := if_pos h

theorem trcRptr_aligned (l : Leaf) {w : W32} (h : w.toNat % 64 = 0) :
    l.trcRptr w = (l.blk (fun u => u.setReg R.TRC_RPTR w)).trcNotice.trcFullCheck := if_neg (not_not_intro h)

theorem trcRptr_aligned_reg (l : Leaf) {w : W32} (h : w.toNat % 64 = 0) : (l.trcRptr w).u.reg R.TRC_RPTR = w := by
  rw [trcRptr_aligned l h, trcFullCheck_rptr, trcNotice_rptr, Leaf.blk_u, reg_setReg_same]

/-- Neither answer to a write of the read pointer moves anything of the frame. -/
theorem trcRptr_frame (l : Leaf) (w : W32) : (l.trcRptr w).u.frame = l.u.frame := by
  by_cases h : w.toNat % 64 = 0
  · rw [trcRptr_aligned l h, trcFullCheck_frame, trcNotice_frame, Leaf.blk_u, setReg_frame _ _ (by decide)]
  · rw [trcRptr_misaligned l h, Leaf.blk_u, cause_frame]

end Sys2Proof.Machine

namespace Sys2Proof.Slice0

open Sys2Proof.Machine

/-- Settles O29: a pointer that is not aligned raises the cause alone, and the notice and the full ring that an aligned one may bring leave the pointer and
the time. -/
theorem traceReadPointerMustBeAligned : Obligations.TraceReadPointerMustBeAligned := by
  intro s w hfree
  have hbecomes : LeafBecomes (.traceRptrWrite w) s ((s.leaf.pageWritten 0x06).trcRptr w) :=
    onLeaf_free (fun l => (l.pageWritten 0x06).trcRptr w) hfree
  constructor
  · intro hmis
    rwa [trcRptr_misaligned _ hmis] at hbecomes
  · intro hal
    exact ⟨_, hbecomes, trcRptr_aligned_reg _ hal, clk_of_frame (trcRptr_frame (s.leaf.pageWritten 0x06) w)⟩

end Sys2Proof.Slice0

/-! The recorder's window (R107): what its end does to the build. -/

namespace Sys2Proof.Machine

/-- The number of cycles that are left of the open record's window. -/
def Blk.windowLeft (u : Blk) : Nat := u.clk.cyclesTo (u.rcd.openAt + usIv (u.rf R.EVR_COAL 0 16))

theorem windowEnd_open {u : Blk} (h : u.rcd.isOpen = true) :
    u.windowEnd = { u.adv u.windowLeft with rcd := { u.rcd with isOpen := false } } := by
  have hclose : ∀ n, ({ u.adv n with rcd := { (u.adv n).rcd with isOpen := false } } : Blk) =
      { u.adv n with rcd := { u.rcd with isOpen := false } } := fun _ => rfl
  rw [← hclose, Blk.windowEnd, if_pos h]
  rfl

/-- A window that ends in a later cycle leaves the registers of the present one as those at that cycle's start (R446). -/
theorem windowEnd_cyc {u : Blk} (h : u.rcd.isOpen = true) (hleft : u.windowLeft ≠ 0) : u.windowEnd.cyc = u.regs := by
  rw [windowEnd_open h]
  exact if_neg hleft

end Sys2Proof.Machine

namespace Sys2Proof.Slice0

open Sys2Proof.Machine

/-- A command makes only one state of the leaf's common part. -/
theorem blkBecomes_leaf_unique {c : Instr} {s : State} {v w : Blk} (hv : BlkBecomes .leaf c s v) (hw : BlkBecomes .leaf c s w) : v = w :=
  congrArg (fun t : State => t.leaf.u) (Host.Outcome.next.inj (hv.symm.trans hw))

/-- Right after reset the recovery marker is open, and the registers have changed within the cycle. -/
theorem reset_leaf_recorder : State.reset.leaf.u.rcd.isOpen = true ∧ State.reset.leaf.u.regs ≠ State.reset.leaf.u.cyc := ⟨by decide, by decide⟩

/-- Its window of 1,000 us is all ahead. -/
theorem reset_leaf_windowLeft : State.reset.leaf.u.windowLeft ≠ 0 := by
  have hclk : State.reset.leaf.u.clk = Clock.reset .leaf := by decide
  have hopenAt : State.reset.leaf.u.rcd.openAt = 0 := by decide
  have hcoal : State.reset.leaf.u.rf R.EVR_COAL 0 16 = 1000 := by decide
  rw [Blk.windowLeft, hclk, hopenAt, hcoal]
  decide

/-- O27's outcome keeps the registers as they stood at the cycle's start (`cyc`, R446). A window that ends in a later cycle does so only where no register
has changed since. -/
theorem windowEnd_stated_needs_cyc (hstated : Obligations.RecordWindowClosesTheOpenRecord) {s : State} (hfree : Free s .leaf)
    (hopen : s.leaf.u.rcd.isOpen = true) (hleft : s.leaf.u.windowLeft ≠ 0) : s.leaf.u.regs = s.leaf.u.cyc := by
  obtain ⟨n, hv⟩ := (hstated s .leaf hfree).1 hopen
  have hmodel : BlkBecomes .leaf (.recordWindowEnd .leaf) s s.leaf.u.windowEnd := onLeaf_free (fun l => l.blk Blk.windowEnd) hfree
  have hcyc := congrArg Blk.cyc (blkBecomes_leaf_unique hmodel hv)
  exact (windowEnd_cyc hopen hleft).symm.trans hcyc

/-- Refutes O27: beside the time bases and the record, the window's end brings a new cycle, whose registers at its start (`cyc`, R446) are those that stand now.
In the leaf as reset leaves it the recovery marker is open, and numbering it has changed a register since the cycle began; the statement keeps `cyc`. What the
window's end does is `windowEnd_open`. -/
theorem not_recordWindowClosesTheOpenRecord : ¬ Obligations.RecordWindowClosesTheOpenRecord := by
  intro h
  obtain ⟨hopen, hregs⟩ := reset_leaf_recorder
  exact hregs (windowEnd_stated_needs_cyc h rfl hopen reset_leaf_windowLeft)

end Sys2Proof.Slice0

/-! A history read (R117): the words it fills, its cause, and what it leaves of the history and of time. -/

namespace Sys2Proof.Machine

/-! ### What a cause leaves of the history, and its own bit (R383) -/

@[simp] theorem msixSend_his (u : Blk) (v : Nat) : (u.msixSend v).his = u.his := by
  simp only [Blk.msixSend, apply_ite Blk.his, Blk.setRb_his, Blk.emit_his, ite_self]

@[simp] theorem errInterrupt_his (u : Blk) : u.errInterrupt.his = u.his := by
  unfold Blk.errInterrupt
  split
  · rfl
  · exact msixSend_his _ _

@[simp] theorem fillFirst_his (u : Blk) (p i : Nat) : (u.fillFirst p i).his = u.his := by
  simp only [Blk.fillFirst, apply_ite Blk.his, Blk.setN_his, ite_self]

@[simp] theorem causeAt_his (u : Blk) (k p i : Nat) : (u.causeAt k p i).his = u.his := by
  simp only [Blk.causeAt, apply_ite Blk.his, errInterrupt_his, fillFirst_his, Blk.setRb_his, ite_self]

@[simp] theorem cause_his (u : Blk) (p n i : Nat) : (u.cause p n i).his = u.his := by
  unfold Blk.cause
  split
  · exact causeAt_his _ _ _ _
  · rfl

/-- Both builds have cause 3 of HIS. -/
theorem his_causes (b : Build) : Nat.testBit (pgCauses b 0x09) 3 = true := by cases b <;> decide

theorem cause_read_outside_bit (u : Blk) : bit ((u.cause 0x09 0 3).reg 0x9014) 3 = true := by
  have hcause : u.cause 0x09 0 3 = u.causeAt 0x9014 (pageNo u.build 0x09 0) 3 := if_pos (his_causes u.build)
  rw [hcause, causeAt_reg _ _ _ _ (by decide) (by decide), reg_setRb_same, bit_setBit]
  rfl

/-! ### The words of a place -/

/-- A loop that writes registers with different keys leaves each with the value written to it. -/
theorem foldl_setN_reg {key : Nat → Nat} (hkey : Function.Injective key) (val : Nat → Nat) (u : Blk) {n i : Nat} (h : i < n) :
    ((List.range n).foldl (fun (w : Blk) j => w.setN (key j) (val j)) u).reg (key i) = BitVec.ofNat 32 (val i) := by
  induction n with
  | zero => omega
  | succ n ih =>
    rw [List.range_succ, List.foldl_append, List.foldl_cons, List.foldl_nil]
    by_cases hi : i = n
    · rw [hi]
      exact reg_setReg_same _ _ _
    · exact (reg_setReg_ne _ _ (hkey.ne hi)).trans (ih (by omega))

theorem setRdata_reg (u : Blk) (v : BitVec 512) {i : Nat} (h : i < 16) :
    (u.setRdata v).reg (R.HIS_RDATA + 4 * i) = BitVec.ofNat 32 (fld v (32 * i) 32) :=
  foldl_setN_reg (key := fun j => R.HIS_RDATA + 4 * j) (fun _ _ e => by simpa using e) (fun j => fld v (32 * j) 32) u h

@[simp] theorem setRdata_his (u : Blk) (v : BitVec 512) : (u.setRdata v).his = u.his := foldl_keeps Blk.his _ _ u fun _ _ => rfl

@[simp] theorem setRdata_frame (u : Blk) (v : BitVec 512) : (u.setRdata v).frame = u.frame :=
  foldl_frame _ _ u fun w i => setN_frame w _ (aside_add (by decide) _)

/-- A field as a word of its own width. -/
theorem ofNat_fld {w : Nat} (x : BitVec w) (lo n : Nat) : BitVec.ofNat n (fld x lo n) = x.extractLsb' lo n := by
  apply BitVec.eq_of_toNat_eq
  simp only [fld, BitVec.toNat_ofNat, BitVec.extractLsb'_toNat, Nat.mod_mod]

/-- Every word of an erased place is all ones. -/
theorem erased_word {i : Nat} (h : i < 16) : BitVec.ofNat 32 (fld erased (32 * i) 32) = 0xFFFFFFFF#32 := by
  rw [ofNat_fld, show 0xFFFFFFFF#32 = BitVec.allOnes 32 from rfl]
  refine BitVec.eq_of_getLsbD_eq fun j hj => ?_
  have hbit : 32 * i + j < 512 := by omega
  simp only [erased, BitVec.getLsbD_extractLsb', BitVec.getLsbD_allOnes, hj, hbit, decide_true, Bool.and_true]

/-! ### The read -/

/-- The read position as `HIS.RPOS` holds it. -/
def Blk.atRpos (u : Blk) (w : W32) : Blk := u.setN R.HIS_RPOS (fld w 0 28)

/-- A place outside the region reads as erased, and is noted as a cause. -/
def Blk.erasedRead (u : Blk) : Blk := (u.setRdata erased).cause 0x09 0 3

theorem atRpos_hisNblk (u : Blk) (w : W32) : (u.atRpos w).hisNblk = u.hisNblk :=
  congrArg (fun x => fld x 0 15) (reg_setReg_ne u _ (by decide))

theorem atRpos_frame (u : Blk) (w : W32) : (u.atRpos w).frame = u.frame := setN_frame u _ (.inr (by decide))

@[simp] theorem erasedRead_his (u : Blk) : u.erasedRead.his = u.his := (cause_his _ _ _ _).trans (setRdata_his u _)

theorem erasedRead_frame (u : Blk) : u.erasedRead.frame = u.frame := (cause_frame _ _ _ _).trans (setRdata_frame u _)

/-- The words of `HIS.RDATA` are no register that the cause writes. -/
theorem rdata_key {i : Nat} (h : i < 16) : R.HIS_RDATA + 4 * i ≠ inst (0x09 * 0x1000 + H.PGCAUSE) 0 ∧
    R.HIS_RDATA + 4 * i ∉ [R.ERR_FIRST, R.ERR_FIRSTT_L, R.ERR_FIRSTT_H] ∧ R.HIS_RDATA + 4 * i < 0x58000001 := by
  revert i
  decide

theorem erasedRead_word (u : Blk) {i : Nat} (h : i < 16) : u.erasedRead.reg (R.HIS_RDATA + 4 * i) = 0xFFFFFFFF#32 := by
  obtain ⟨hpage, hfirst, hpba⟩ := rdata_key h
  rw [Blk.erasedRead, cause_reg_ne _ _ _ _ hpage hfirst hpba, setRdata_reg u _ h, erased_word h]

theorem hisRead_outside {u : Blk} {w : W32} (h : u.hisNblk ≤ fld w 0 28 / 1024) :
    u.hisRead w = { (u.atRpos w).erasedRead with his := { u.his with rdy := true, readBusy := false } } := by
  have hhis : (u.atRpos w).erasedRead.his = u.his := erasedRead_his _
  rw [← hhis]
  exact if_pos ((atRpos_hisNblk u w).trans_le h)

theorem hisRead_inside {u : Blk} {w : W32} (h : fld w 0 28 / 1024 < u.hisNblk) :
    u.hisRead w = { u.atRpos w with his := { u.his with rdy := false, readBusy := true, readPos := fld w 0 28 } } :=
  if_neg (by rw [← Blk.atRpos, atRpos_hisNblk]; omega)

end Sys2Proof.Machine

namespace Sys2Proof.Slice0

open Sys2Proof.Machine

/-- Settles O28: a place outside the region is read as erased at once, and one inside starts a read. -/
theorem historyReadOutsideTheRegion : Obligations.HistoryReadOutsideTheRegion := by
  intro s b w hopen u
  have hbecomes : BlkBecomes b (.historyRead b w) s ((u.pageWritten 0x09 0).hisRead w) :=
    blkBecomes_of_host (f := fun u => (u.pageWritten 0x09 0).hisRead w) rfl hopen
  have hclk : ((u.pageWritten 0x09 0).atRpos w).clk = u.clk := clk_of_frame (atRpos_frame _ w)
  refine ⟨_, hbecomes, ?_⟩
  by_cases h : u.hisNblk ≤ fld w 0 28 / 1024
  · rw [hisRead_outside (u := u.pageWritten 0x09 0) h]
    exact ⟨rfl, (clk_of_frame (erasedRead_frame _)).trans hclk,
      fun _ => ⟨rfl, fun i hi => erasedRead_word _ hi, cause_read_outside_bit _⟩, fun hin => absurd h (Nat.not_le.mpr hin)⟩
  · rw [hisRead_inside (u := u.pageWritten 0x09 0) (Nat.not_le.mp h)]
    exact ⟨rfl, hclk, fun hout => absurd hout h, fun _ => ⟨rfl, rfl, rfl⟩⟩

end Sys2Proof.Slice0

/-! A report that takes the last place of the history's current block (R111): the next block's block open record follows it with a number of its own. -/

namespace Sys2Proof.Slice0

open Sys2Proof.Machine

/-- A leaf with its history on, its scan ended, and two places left in the current block. The recovery marker waits for the first of them. -/
def lastPlaceLeft : State :=
  { State.reset with
    leaf := State.reset.leaf.blk fun u => { u.setReg R.HIS_CTL 0x80000000 with his := { u.his with scanned := true, place := 1022 } } }

/-- A report whose record goes to the history whatever its severity brings the block open record of the next block (page 0x09, code 1) with it. -/
theorem lastPlaceLeft_report :
    (lastPlaceLeft.leaf.u.report (rk 0x02 0x0001 1 .always) .dflt 0).rcd.ring.map (fun r => (r.kind, r.seq)) =
      [(rk 0x16 0x0002 1 .always, 0), (rk 0x02 0x0001 1 .always, 1), (rkBlockOpen, 2)] ∧
    (lastPlaceLeft.leaf.u.report (rk 0x02 0x0001 1 .always) .dflt 0).reg R.EVR_SEQ = 3 ∧ lastPlaceLeft.leaf.u.reg R.EVR_SEQ = 1 :=
  ⟨by decide, by decide, by decide⟩

/-- O26's outcome of a report that is no repeat takes one number. -/
theorem report_stated_takes_one_number (hstated : Obligations.ReportsRepeatCreateOrAreLost) {s : State} (hfree : Free s .leaf)
    (hgather : s.leaf.u.gather = none) (page : Byte) (code : W16) (sev : BitVec 3) (fl : FlashRule) (p : BitVec 160)
    (hnew : s.leaf.u.rcd.ring.getLast?.map Rec.key ≠ some (s.leaf.u.draft (rk page.toNat code.toNat sev.toNat fl) .dflt p).key) :
    (s.leaf.u.report (rk page.toNat code.toNat sev.toNat fl) .dflt p).reg R.EVR_SEQ = s.leaf.u.reg R.EVR_SEQ + 1 := by
  obtain ⟨v, hv, -, -, -, hcreated⟩ := hstated s .leaf page code sev fl none p hfree hgather
  have hmodel : BlkBecomes .leaf (.eventReport .leaf page code sev fl none p) s (s.leaf.u.report (rk page.toNat code.toNat sev.toNat fl) .dflt p) :=
    onLeaf_free (fun l => l.blk fun u => u.report (rk page.toNat code.toNat sev.toNat fl) .dflt p) hfree
  rw [blkBecomes_leaf_unique hmodel hv]
  refine (hcreated ?_).1
  rintro ⟨-, n, hlast, hkey⟩
  exact hnew ((congrArg (Option.map Rec.key) hlast).trans (congrArg some hkey))

/-- Refutes O26: a report that is no repeat takes two numbers where its record takes the last place of the history's current block, for the next block's block
open record is created in the same step (R111) and takes the number after it. -/
theorem not_reportsRepeatCreateOrAreLost : ¬ Obligations.ReportsRepeatCreateOrAreLost := by
  intro h
  obtain ⟨-, hafter, hbefore⟩ := lastPlaceLeft_report
  have hone := report_stated_takes_one_number h (s := lastPlaceLeft) rfl rfl 0x02 0x0001 1 .always 0 (by decide)
  have hnumbers : (3 : W32) = 1 + 1 := hafter.symm.trans (hone.trans (congrArg (· + 1) hbefore))
  exact absurd hnumbers (by decide)

end Sys2Proof.Slice0

namespace Sys2Proof.Machine

/-!
## The canonical form of the memories (O7)

The canonical form speaks of the three memories of the tier alone, and a tray operation changes these only by a write of
bytes (`Tray.lpWrite`, `Tray.brineWrite`), a write of a line (`Tray.setLine`) or a reset. So each operation of the tray has one
lemma, `Tray.Canon.<operation>`, in the order of the model's files: it follows the operation's branches and names the lemmas of
the operations it is made of. `exec_keepsCanon` then reads off, for each command, the operation that the command runs.
-/

section Canonical

variable {t : Tray}

/-- The memories of the tier are in canonical form. -/
def Tray.Canon (t : Tray) : Prop := t.memWf = true

/-- No field but the memory tier has a part in the canonical form. -/
theorem Tray.Canon.mk (ht : t.Canon) {u rings asm dists cores transit dataWay mcIds mct thieves credSince credCounted queues served flights txs
    nodes copies due models binds scores partials scoreIds gNoted batches spans psets gens staged stagedIds relay relayRem evqs thr hlt job
    descs bseqs lives snaps dumps ptpDrop pciIds tap} :
    (Tray.mk u t.tier rings asm dists cores transit dataWay mcIds mct thieves credSince credCounted queues served flights txs
      nodes copies due models binds scores partials scoreIds gNoted batches spans psets gens staged stagedIds relay relayRem evqs thr hlt job
      descs bseqs lives snaps dumps ptpDrop pciIds tap).Canon := ht

theorem Tray.Canon.ite {a b : Tray} {c : Prop} {dec : Decidable c} (ha : a.Canon) (hb : b.Canon) :
    (if c then a else b).Canon := by
  split <;> assumption

/-- A step that happens or not. -/
theorem Tray.Canon.ifThen {a : Tray} {c : Prop} {dec : Decidable c} (ht : t.Canon) (ha : t.Canon → a.Canon) :
    (if c then a else t).Canon :=
  .ite (ha ht) ht

theorem Tray.Canon.iteFst {β : Type} {a b : Tray × β} {c : Prop} {dec : Decidable c} (ha : a.1.Canon) (hb : b.1.Canon) :
    (if c then a else b).1.Canon := by
  split <;> assumption

theorem Tray.Canon.iteSnd {α : Type} {a b : α × Tray} {c : Prop} {dec : Decidable c} (ha : a.2.Canon) (hb : b.2.Canon) :
    (if c then a else b).2.Canon := by
  split <;> assumption

theorem Tray.Canon.foldl {α : Type} {l : List α} {f : Tray → α → Tray}
    (ht : t.Canon) (hf : ∀ v a, v.Canon → (f v a).Canon) :
    (l.foldl f t).Canon :=
  foldl_inv Tray.Canon f l t ht hf

theorem Tray.Canon.foldlFst {α β : Type} {l : List α} {f : Tray × β → α → Tray × β} {a : Tray × β} (ha : a.1.Canon)
    (hf : ∀ v x, v.1.Canon → (f v x).1.Canon) : (l.foldl f a).1.Canon :=
  foldl_inv (fun v : Tray × β => v.1.Canon) f l a ha hf

theorem Tray.Canon.of_memories {a : Tray} (ht : t.Canon) (hlp : a.tier.lp = t.tier.lp) (hbrine : a.tier.brine = t.tier.brine)
    (hslice : a.tier.slice = t.tier.slice) : a.Canon := by
  rw [Tray.Canon, Tray.memWf, hlp, hbrine, hslice]
  exact ht

/-- A warm reset keeps LPDDR5X and empties the brine store and the slices. -/
theorem Tray.Canon.of_lp {a : Tray} (ht : t.Canon) (hlp : a.tier.lp = t.tier.lp) (hbrine : a.tier.brine = [])
    (hslice : a.tier.slice = []) : a.Canon := by
  simp only [Tray.Canon, Tray.memWf, Bool.and_eq_true] at ht
  obtain ⟨⟨hcanon, -⟩, -⟩ := ht
  rw [Tray.Canon, Tray.memWf, hlp, hbrine, hslice, hcanon]
  rfl

theorem Tray.Canon.reset : Tray.reset.Canon := rfl

/-! ### The state (Machine/Tray) -/

theorem Tray.Canon.blk (ht : t.Canon) {f} : (t.blk f).Canon := ht

/-! ### Reads, writes and flaws of the memories (Machine/TrayMem) -/

theorem Tray.Canon.setFlaw (ht : t.Canon) {space word f} : (t.setFlaw space word f).Canon := ht

theorem Tray.Canon.readWord (ht : t.Canon) {space word} : (t.readWord space word).Canon := .ite (.blk (.ite ht ht.setFlaw)) (.ite ht.setFlaw.blk ht)

theorem Tray.Canon.readBytes (ht : t.Canon) {space a n} : (t.readBytes space a n).1.Canon := ht.foldl fun _ _ hv => hv.readWord

theorem Tray.Canon.wroteBytes (ht : t.Canon) {space a n} : (t.wroteBytes space a n).Canon := ht.foldl fun _ _ hv => .ite hv.setFlaw hv

theorem Tray.Canon.lpWrite (ht : t.Canon) {a l} : (t.lpWrite a l).Canon := lpWrite_memWf a l ht

theorem Tray.Canon.brineWrite (ht : t.Canon) {a l} : (t.brineWrite a l).Canon := brineWrite_memWf a l ht

theorem Tray.Canon.setLine (ht : t.Canon) {core line v} : (t.setLine core line v).Canon := setLine_memWf core line v ht

theorem Tray.Canon.readLine (ht : t.Canon) {core line} : (t.readLine core line).1.Canon := ht.readBytes

theorem Tray.Canon.markUsed (ht : t.Canon) : t.markUsed.Canon := ht

theorem Tray.Canon.layoutWrite (ht : t.Canon) {k w} : (t.layoutWrite k w).Canon := .ite ht (.ite ht.blk ht.mk)

theorem Tray.Canon.scrub (ht : t.Canon) {space word found} : (t.scrub space word found).Canon := by
  unfold Tray.scrub
  extract_lets read
  have hread : read.Canon := .readWord (.ite ht ht.setFlaw)
  exact .ite hread.mk hread

theorem Tray.Canon.injectMem (ht : t.Canon) {f} : (t.injectMem f).Canon := ht.setFlaw

/-! ### Event queues (Machine/TrayHev) -/

theorem Tray.Canon.setEvq (ht : t.Canon) {j e} : (t.setEvq j e).Canon := ht.mk

theorem Tray.Canon.place (ht : t.Canon) {j r} : (t.place j r).Canon := by
  dsimp only [Tray.place]
  exact ht.wroteBytes.setEvq.blk

theorem Tray.Canon.createTake (ht : t.Canon) {k p} : (t.createTake k p).1.Canon := ht.mk

theorem Tray.Canon.createPlace (ht : t.Canon) {j k p} : (t.createPlace j k p).Canon := by
  dsimp only [Tray.createPlace]
  split
  · exact ht.createTake.place
  · exact ht.createTake

theorem Tray.Canon.stageRec (ht : t.Canon) {j r} : (t.stageRec j r).Canon := .ite ht.place ht.setEvq.blk

theorem Tray.Canon.stageOne (ht : t.Canon) : t.stageOne.Canon := by
  dsimp only [Tray.stageOne]
  split
  · exact ht
  · exact ht.blk.stageRec

theorem Tray.Canon.drainN (ht : t.Canon) {n} : (t.drainN n).Canon := by
  induction n generalizing t with
  | zero => exact ht
  | succ n ih => exact .ite (ih ht.stageOne) ht

theorem Tray.Canon.drain (ht : t.Canon) : t.drain.Canon := ht.blk.drainN

theorem Tray.Canon.markNew (ht : t.Canon) {j} : (t.markNew j).Canon := .ite ht ht.drain.setEvq.createPlace

theorem Tray.Canon.markWarm (ht : t.Canon) {j} : (t.markWarm j).Canon := ht.setEvq.createPlace

theorem Tray.Canon.evSignal (ht : t.Canon) {j} : (t.evSignal j).Canon := ht.setEvq.blk

theorem Tray.Canon.evIrq (ht : t.Canon) {j nowFull} : (t.evIrq j nowFull).Canon := .ite ht.evSignal ht

theorem Tray.Canon.evDrop (ht : t.Canon) {j r} : (t.evDrop j r).Canon := ht.setEvq.blk

theorem Tray.Canon.evWrite (ht : t.Canon) {j} : (t.evWrite j).Canon := by
  dsimp only [Tray.evWrite]
  split
  · exact ht
  · exact .ite ht.readBytes.evDrop (.evIrq (.ite ht.readBytes.mk.setEvq.blk ht.readBytes.mk.setEvq))

theorem Tray.Canon.evWriteN (ht : t.Canon) {j n} : (t.evWriteN j n).Canon := by
  induction n generalizing t with
  | zero => exact ht
  | succ n ih => exact .ite (ih ht.evWrite) ht

theorem Tray.Canon.evGap (ht : t.Canon) {j} : (t.evGap j).Canon := .ite ht.drain.setEvq.createPlace ht

/-! ### The cells of a pan (Machine/PanCells) -/

theorem Tray.Canon.updLine (ht : t.Canon) {at0 f} : (t.updLine at0 f).Canon := ht.readLine.setLine.foldl fun _ _ hv => hv.setFlaw

theorem Tray.Canon.panPoisoned (ht : t.Canon) {pset pan hseq mem} : (t.panPoisoned pset pan hseq mem).Canon := ht.blk

theorem Tray.Canon.keepLine (ht : t.Canon) {a i p} : (t.keepLine a i p).1.Canon := .iteFst ht.readLine.setLine.panPoisoned ht.readLine

theorem Tray.Canon.topkPut (ht : t.Canon) {smallest at0 n e} : (t.topkPut smallest at0 n e).Canon :=
  .foldl (ht.foldl fun _ _ hv => hv.readLine) fun _ _ hv => .ite hv hv.updLine

theorem Tray.Canon.foldValue (ht : t.Canon) {a i x} : (t.foldValue a i x).Canon := by
  unfold Tray.foldValue
  extract_lets p ln
  split
  · exact ht.updLine
  · extract_lets counted clipped _ k
    have hclipped : clipped.Canon := ht.updLine.ifThen (·.mk)
    clear_value clipped
    split
    · exact hclipped.updLine
    · exact hclipped.updLine.updLine
    · exact hclipped.updLine
    · exact hclipped.updLine
    · exact hclipped.updLine
    · exact hclipped.topkPut
    · exact hclipped.keepLine.setLine.updLine.ifThen (·.updLine)
    · exact hclipped.keepLine.setLine.updLine
    · exact hclipped

theorem Tray.Canon.mergeLine (ht : t.Canon) {d r b i l c} : (t.mergeLine d r b i l c).Canon := by
  dsimp only [Tray.mergeLine]
  refine .ite ht.updLine ?_
  split
  · exact ht.updLine
  · exact ht.updLine
  · exact ht.updLine
  · exact ht.updLine
  · exact .ite ht ht.updLine
  · exact ht.topkPut
  · exact ht

/-! ### Command queues (Machine/TrayQ) -/

theorem Tray.Canon.setQueue (ht : t.Canon) {q c} : (t.setQueue q c).Canon := ht.mk

theorem Tray.Canon.stopQueue (ht : t.Canon) {q} : (t.stopQueue q).Canon := .ite ht ht.setQueue.blk

theorem Tray.Canon.closeCmd (ht : t.Canon) {d} : (t.closeCmd d).Canon :=
  .ite ht (.ifThen (.ifThen (ht.setQueue.ifThen (·.mk)) (·.blk)) (·.stopQueue))

theorem Tray.Canon.heldOne (ht : t.Canon) {j h} : (t.heldOne j h).Canon := by
  dsimp only [Tray.heldOne]
  split
  · exact ht.drain.createPlace.closeCmd
  · exact ht.drain.createPlace
  · exact ht.drain.createPlace

theorem Tray.Canon.evServeN (ht : t.Canon) {j n} : (t.evServeN j n).Canon := by
  induction n generalizing t with
  | zero => exact ht
  | succ n ih =>
    dsimp only [Tray.evServeN]
    split
    · exact ht.evWriteN.evGap.evWriteN
    · exact .ite (ih ht.evWriteN.evGap.setEvq.heldOne) ht.evWriteN.evGap

theorem Tray.Canon.evServe (ht : t.Canon) {j} : (t.evServe j).Canon := ht.evServeN

theorem Tray.Canon.held (ht : t.Canon) {j h} : (t.held j h).Canon := ht.setEvq.evServe

theorem Tray.Canon.endCmd (ht : t.Canon) {d} : (t.endCmd d).Canon := .ite ht (.ite (.closeCmd (.ite ht.mk ht)) (.held (.ite ht.mk ht)))

theorem Tray.Canon.finish (ht : t.Canon) {q status reason result late} : (t.finish q status reason result late).Canon := by
  dsimp only [Tray.finish]
  split
  · exact ht
  · split
    · exact ht.endCmd
    · exact ht.mk.endCmd

theorem Tray.Canon.endMember (ht : t.Canon) {q b status result late} : (t.endMember q b status result late).Canon := ht.endCmd

theorem Tray.Canon.dropAppend (ht : t.Canon) {q full} : (t.dropAppend q full).Canon := .blk (.ite ht.setQueue ht)

theorem Tray.Canon.stageBytes (ht : t.Canon) {q off l} : (t.stageBytes q off l).Canon := ht.setQueue

theorem Tray.Canon.append (ht : t.Canon) {q off l} : (t.append q off l).Canon :=
  .ite ht.stageBytes.setQueue.dropAppend ht.stageBytes.setQueue.brineWrite.setQueue

theorem Tray.Canon.produce (ht : t.Canon) {q b} : (t.produce q b).1.Canon := .iteFst ht.dropAppend ht.brineWrite.setQueue

/-! ### Cuts (Machine/PanCuts) -/

theorem Tray.Canon.setPset (ht : t.Canon) {p s} : (t.setPset p s).Canon := ht.mk

theorem Tray.Canon.closeCut (ht : t.Canon) {p k reason} : (t.closeCut p k reason).Canon := by
  dsimp only [Tray.closeCut]
  split
  · exact ht
  · exact ht.setPset

theorem Tray.Canon.closeComplete (ht : t.Canon) {p n} : (t.closeComplete p n).Canon := by
  induction n generalizing t with
  | zero => exact ht
  | succ n ih =>
    unfold Tray.closeComplete
    split
    · exact ht
    · split
      · exact ih ht.closeCut
      · exact ht

theorem Tray.Canon.contribute (ht : t.Canon) {p j c} : (t.contribute p j c).1.Canon := by
  dsimp only [Tray.contribute]
  split
  · exact ht
  · refine .iteFst ht.setPset (.iteFst ht (.iteFst ht.setPset.blk.closeComplete (.iteFst ht.setPset.blk.closeComplete
        (.iteFst ht.setPset.blk.closeComplete (.closeComplete ?_)))))
    split
    · exact ht.setPset.closeCut.blk
    · exact ht.setPset

theorem Tray.Canon.angleDeadline (ht : t.Canon) {p} : (t.angleDeadline p).Canon := by
  dsimp only [Tray.angleDeadline]
  split
  · exact ht
  · exact .ite (.ite ht.blk.setPset.closeCut ht.blk.setPset) ht.blk

theorem Tray.Canon.timeDeadline (ht : t.Canon) {p} : (t.timeDeadline p).Canon := by
  dsimp only [Tray.timeDeadline]
  split
  · exact ht
  · split
    · exact ht
    · exact .ite ht.blk.closeCut ht

theorem Tray.Canon.recheckCuts (ht : t.Canon) : t.recheckCuts.Canon := ht.foldl fun _ _ hv => hv.closeComplete

theorem Tray.Canon.closeAll (ht : t.Canon) {p reason} : (t.closeAll p reason).Canon := by
  dsimp only [Tray.closeAll]
  split
  · exact ht
  · exact ht.foldl fun _ _ hv => hv.closeCut

theorem Tray.Canon.startSeries (ht : t.Canon) {slot} : (t.startSeries slot).Canon := ht.foldl fun _ _ hv => .ite hv.setPset hv

/-! ### Publication of pans (Machine/PanPub) -/

theorem Tray.Canon.mergeReplicas (ht : t.Canon) {d b} : (t.mergeReplicas d b).Canon :=
  ht.foldl fun _ _ hv => hv.foldl fun _ _ hv1 => hv1.foldl fun _ _ hv2 => hv2.readLine.mergeLine

theorem Tray.Canon.readPan (ht : t.Canon) {d b i} : (t.readPan d b i).1.Canon := ht.foldlFst fun _ _ hv => hv.readLine

theorem Tray.Canon.clearBank (ht : t.Canon) {d b} : (t.clearBank d b).Canon :=
  ht.foldl fun _ _ hv => hv.foldl fun _ _ hv1 => hv1.foldl fun _ _ hv2 => hv2.setLine

theorem Tray.Canon.publish (ht : t.Canon) {p} : (t.publish p).1.Canon := by
  unfold Tray.publish
  split
  · exact ht
  · split
    · exact ht
    · extract_lets d inj fired merged r read bytes cleared poisoned at0 wrote flawed
      have hfired : fired.Canon := .ite ht.blk ht
      have hmerged : merged.Canon := by
        dsimp only [merged]
        split
        · exact hfired.mergeReplicas
        · exact hfired
      have hread : read.Canon := by
        refine .foldlFst hmerged fun _ _ hv => ?_
        split
        · exact hv.readPan
        · exact hv
      have hcleared : cleared.Canon := by
        dsimp only [cleared]
        split
        · exact hread.clearBank
        · exact hread
      have hpoisoned : poisoned.Canon := hcleared.foldl fun _ _ hv => hv.panPoisoned
      have hflawed : flawed.Canon := hpoisoned.wroteBytes.foldl fun _ _ hv => hv.setFlaw.setFlaw
      exact .iteFst ht.blk hflawed.setPset.mk.blk

theorem Tray.Canon.hrvPut (ht : t.Canon) {h l bad} : (t.hrvPut h l bad).1.Canon := ht.mk

theorem Tray.Canon.readStaged (ht : t.Canon) {x} : (t.readStaged x).1.Canon := ht.readBytes

theorem Tray.Canon.modStaged (ht : t.Canon) {id f} : (t.modStaged id f).Canon := ht.mk

theorem Tray.Canon.ringWait (ht : t.Canon) {x h} : (t.ringWait x h).Canon := .ite ht ht.modStaged.blk

theorem Tray.Canon.ringWrite (ht : t.Canon) {h} : (t.ringWrite h).Canon := by
  dsimp only [Tray.ringWrite]
  split
  · exact ht
  · exact .ite ht (.ite ht.ringWait ht.readStaged.hrvPut.modStaged.held)

theorem Tray.Canon.dropAcked (ht : t.Canon) : t.dropAcked.Canon := ht.mk

theorem Tray.Canon.rciWrite (ht : t.Canon) {h v} : (t.rciWrite h v).Canon := .ite ht.blk ht.blk.mk.dropAcked

theorem Tray.Canon.addIngest (ht : t.Canon) {n} : (t.addIngest n).Canon := ht.mk

theorem Tray.Canon.relayZero (ht : t.Canon) : t.relayZero.Canon := ht.mk

theorem Tray.Canon.relayNext (ht : t.Canon) : t.relayNext.Canon := by
  dsimp only [Tray.relayNext]
  split
  · exact ht
  · exact .ite (.ite ht ht.modStaged.blk) ht.readStaged.mk.modStaged

theorem Tray.Canon.relayGone (ht : t.Canon) : t.relayGone.Canon := ht.mk.dropAcked

/-! ### Model packages (Machine/Package) -/

theorem Tray.Canon.mcFree (ht : t.Canon) {model id} : (t.mcFree model id).Canon := ht.mk

theorem Tray.Canon.mcFill (ht : t.Canon) {model id gs} : (t.mcFill model id gs).Canon := ht.mcFree.mk

theorem Tray.Canon.loadImage (ht : t.Canon) {core i} : (t.loadImage core i).Canon :=
  .foldl (ht.readBytes.foldl fun _ _ hv => hv.setLine) fun _ _ hv => hv.setFlaw

theorem Tray.Canon.loadGroup (ht : t.Canon) {g} : (t.loadGroup g).Canon := ht.foldl fun _ _ hv => hv.loadImage

theorem Tray.Canon.loadModel (ht : t.Canon) {handle a len} : (t.loadModel handle a len).Canon :=
  .mk (.blk (.mcFill (ht.foldl fun _ _ hv => hv.loadGroup)))

theorem Tray.Canon.reportRefused (ht : t.Canon) {handle r} : (t.reportRefused handle r).Canon := ht.blk

theorem Tray.Canon.dropModel (ht : t.Canon) {handle} : (t.dropModel handle).Canon := ht.mcFree.mk

theorem Tray.Canon.unloadCheck (ht : t.Canon) {handle} : (t.unloadCheck handle).Canon := by
  dsimp only [Tray.unloadCheck]
  split
  · exact ht
  · split
    · exact ht
    · exact .ite ht ht.dropModel.blk.endCmd

theorem Tray.Canon.unloadAll (ht : t.Canon) : t.unloadAll.Canon := ht.foldl fun _ _ hv => hv.unloadCheck

theorem Tray.Canon.restoreModels (ht : t.Canon) : t.restoreModels.Canon := by
  dsimp only [Tray.restoreModels]
  refine ht.mk.foldl fun _ _ hv => ?_
  split
  · exact hv.readBytes.loadModel.mk
  · split
    · exact hv.readBytes.dropModel.blk.endCmd
    · exact hv.readBytes.dropModel.blk

theorem Tray.Canon.walk (ht : t.Canon) {core base xs n o} : (t.walk core base xs n o).1.Canon := by
  induction n generalizing t o with
  | zero => exact ht
  | succ n ih =>
    have hread : (t.readWord 3 (core * 8192 + (2 * base + o))).Canon := ht.readWord
    exact .iteFst hread (.iteFst hread (.iteFst (.ite hread.readWord hread)
      (.iteFst (ih (.ite hread.readWord hread)) (ih (.ite hread.readWord hread)))))

theorem Tray.Canon.walkImage (ht : t.Canon) {core i xs} : (t.walkImage core i xs).1.Canon := by
  dsimp only [Tray.walkImage]
  refine ht.foldlFst fun _ _ hv => .iteFst hv.readWord ?_
  split <;> exact hv.readWord.walk

/-! ### Cores and dispatch (Machine/Cores) -/

theorem Tray.Canon.judgeFrame (ht : t.Canon) {h done} : (t.judgeFrame h done).1.Canon := by
  dsimp only [Tray.judgeFrame]
  refine ht.foldlFst fun _ _ hv => .iteFst hv ?_
  split
  · exact hv
  · exact hv.contribute

theorem Tray.Canon.judgeHarvest (ht : t.Canon) {b done} : (t.judgeHarvest b done).1.Canon := by
  dsimp only [Tray.judgeHarvest]
  refine ht.foldlFst fun _ _ hv => .iteFst hv ?_
  split
  · exact hv
  · refine .iteFst hv ?_
    split
    · refine .blk ?_
      split
      · exact hv.setPset
      · exact hv
    · exact hv.contribute

theorem Tray.Canon.setCore (ht : t.Canon) {c l} : (t.setCore c l).Canon := ht.mk

theorem Tray.Canon.setOnWay (ht : t.Canon) {c l} : (t.setOnWay c l).Canon := ht.mk

theorem Tray.Canon.setOnData (ht : t.Canon) {c l} : (t.setOnData c l).Canon := ht.mk

theorem Tray.Canon.sendUnit (ht : t.Canon) {c w} : (t.sendUnit c w).Canon := ht.setOnWay

theorem Tray.Canon.sendMulticast (ht : t.Canon) {cs w} : (t.sendMulticast cs w).Canon := ht.mk.foldl fun _ _ hv => hv.sendUnit

theorem Tray.Canon.sendData (ht : t.Canon) {c w} : (t.sendData c w).Canon := ht.setOnData

theorem Tray.Canon.accrueCredit (ht : t.Canon) : t.accrueCredit.Canon := by
  dsimp only [Tray.accrueCredit]
  split
  · exact ht
  · exact ht.mk.blk

theorem Tray.Canon.creditCheck (ht : t.Canon) : t.creditCheck.Canon := by
  dsimp only [Tray.creditCheck]
  split
  · exact ht.mk
  · exact ht.accrueCredit.mk
  · exact ht

theorem Tray.Canon.enqueueUnit (ht : t.Canon) {c w} : (t.enqueueUnit c w).Canon := .ite ht.setCore.mk ht.setCore

theorem Tray.Canon.arrive (ht : t.Canon) {c data} : (t.arrive c data).Canon := by
  dsimp only [Tray.arrive]
  split
  · exact ht
  · exact .ite ht (.enqueueUnit (.ite ht.setOnData ht.setOnWay))

theorem Tray.Canon.modUnitCut (ht : t.Canon) {p step point epoch f} : (t.modUnitCut p step point epoch f).Canon := by
  dsimp only [Tray.modUnitCut]
  split
  · exact ht
  · exact ht.setPset

theorem Tray.Canon.healthVals (ht : t.Canon) {p slot mem step epoch point vals} : (t.healthVals p slot mem step epoch point vals).Canon :=
  .ite ht.mk ht

theorem Tray.Canon.setBatch (ht : t.Canon) {k b} : (t.setBatch k b).Canon := ht.mk

theorem Tray.Canon.sendGroups (ht : t.Canon) {handle entry p h word} : (t.sendGroups handle entry p h word).1.Canon :=
  ht.foldlFst fun _ _ hv => .iteFst hv.setBatch hv.sendMulticast

theorem Tray.Canon.sendPans (ht : t.Canon) {p s mem handle h word} : (t.sendPans p s mem handle h word).1.Canon := by
  dsimp only [Tray.sendPans]
  refine ht.foldlFst fun _ _ hv => .iteFst (.iteFst hv hv.sendMulticast.modUnitCut) ?_
  split <;> dsimp only
  · exact .modUnitCut (.iteFst hv hv.sendMulticast.modUnitCut)
  · exact .modUnitCut (.sendMulticast (.blk (.iteFst hv hv.sendMulticast.modUnitCut)))

theorem Tray.Canon.sendMerge (ht : t.Canon) {p s mem b} : (t.sendMerge p s mem b).1.Canon := by
  dsimp only [Tray.sendMerge]
  refine ht.sendData.modUnitCut.foldlFst fun _ _ hv => ?_
  split
  · exact hv
  · exact hv.foldlFst fun _ _ hv1 => hv1.sendData.modUnitCut

theorem Tray.Canon.contribSent (ht : t.Canon) {p mem c} : (t.contribSent p mem c).Canon := ht.modUnitCut

theorem Tray.Canon.setDist (ht : t.Canon) {d x} : (t.setDist d x).Canon := ht.mk

theorem Tray.Canon.accrue (ht : t.Canon) {d} : (t.accrue d).Canon := by
  dsimp only [Tray.accrue]
  split
  · exact ht
  · exact ht.setDist.blk

theorem Tray.Canon.accrueAll (ht : t.Canon) : t.accrueAll.Canon := .accrueCredit (ht.foldl fun _ _ hv => hv.accrue)

theorem Tray.Canon.unstall (ht : t.Canon) {d} : (t.unstall d).Canon := ht.accrue.setDist

theorem Tray.Canon.stall (ht : t.Canon) {d r why gath} : (t.stall d r why gath).Canon :=
  .ite ht (.ite (.ite ht.unstall.setDist.blk ht.unstall.setDist.blk.mk.blk) ht.unstall.setDist)

theorem Tray.Canon.longStall (ht : t.Canon) {d} : (t.longStall d).Canon := by
  dsimp only [Tray.longStall]
  split
  · exact ht
  · exact .ite ht ht.blk.setDist.blk

theorem Tray.Canon.setRing (ht : t.Canon) {r x} : (t.setRing r x).Canon := ht.mk

theorem Tray.Canon.giveCredit (ht : t.Canon) {r n} : (t.giveCredit r n).Canon := .ite ht ht.setRing

theorem Tray.Canon.ringPop (ht : t.Canon) {r} : (t.ringPop r).Canon := by
  dsimp only [Tray.ringPop]
  split
  · exact ht
  · exact ht.setRing.giveCredit

theorem Tray.Canon.poisonedBytes (ht : t.Canon) {r x} : (t.poisonedBytes r x).1.Canon :=
  .iteFst (ht.foldl fun _ _ hv => hv.readBytes) (ht.foldl fun _ _ hv => hv.readBytes)

theorem Tray.Canon.spanNext (ht : t.Canon) {handle p key} : (t.spanNext handle p key).Canon := by
  dsimp only [Tray.spanNext]
  refine .ite ht ?_
  split
  · exact ht.mk
  · split
    · exact ht.mk
    · exact ht

theorem Tray.Canon.batchGo (ht : t.Canon) {handle g m grp} : (t.batchGo handle g m grp).Canon := ht.setBatch.spanNext

theorem Tray.Canon.batchReady (ht : t.Canon) {handle g} : (t.batchReady handle g).Canon := by
  dsimp only [Tray.batchReady]
  split
  · exact ht
  · split
    · exact ht
    · exact .ite ht.batchGo ht

theorem Tray.Canon.batchesReady (ht : t.Canon) {handle p} : (t.batchesReady handle p).Canon := ht.foldl fun _ _ hv => hv.batchReady

theorem Tray.Canon.sendFrame (ht : t.Canon) {d r x badBytes} : (t.sendFrame d r x badBytes).Canon := by
  unfold Tray.sendFrame
  extract_lets b h badF word counted slot handle model ready gath full bufFull dests begun judged tallied sets scored sent popped
  have hcounted : counted.Canon := .ite ht ht.blk
  clear_value model
  have hready : ready.Canon := by
    dsimp only [ready]
    split
    · exact hcounted.batchesReady
    · exact hcounted
  have htallied : tallied.Canon := hready.unstall.judgeFrame
  have hscored : scored.1.Canon := by
    dsimp only [scored]
    split
    · exact htallied.mk.blk.sendGroups
    · exact htallied
  have hsent : sent.1.Canon := hscored.foldlFst fun _ _ hv => by
    dsimp only
    exact hv.healthVals.sendPans
  have hpopped : popped.Canon := hsent.ringPop
  exact .ite hready.stall (.ite hready.stall (.ite hready.stall hpopped.setDist))

theorem Tray.Canon.sendHarvest (ht : t.Canon) {d r x} : (t.sendHarvest d r x).Canon := by
  unfold Tray.sendHarvest
  extract_lets b begun judged tallied node sent popped
  have htallied : ((tallied, 0) : Tray × Nat).1.Canon := ht.unstall.judgeHarvest
  have hsent : sent.1.Canon := by
    refine htallied.foldlFst fun _ _ hv => ?_
    dsimp only
    split
    · exact hv
    · refine .iteFst hv ?_
      split
      · exact hv
      · dsimp only
        exact hv.sendMerge.contribSent
  have hpopped : popped.Canon := hsent.ringPop
  exact .ite ht.stall hpopped.setDist

theorem Tray.Canon.uncount (ht : t.Canon) {r x} : (t.uncount r x).Canon := by
  dsimp only [Tray.uncount]
  refine ht.foldl fun _ _ hv => .ite hv ?_
  split
  · exact hv.modUnitCut
  · exact hv

theorem Tray.Canon.distribute (ht : t.Canon) {d} : (t.distribute d).Canon := by
  dsimp only [Tray.distribute]
  split
  · exact ht.unstall
  · split
    · exact ht
    · exact .ite ht.poisonedBytes.blk.uncount.ringPop (.ite ht.poisonedBytes.sendFrame ht.poisonedBytes.sendHarvest)

theorem Tray.Canon.begin (ht : t.Canon) {c} : (t.begin c).Canon := .ite ht ht.setCore

theorem Tray.Canon.coreWork (ht : t.Canon) : t.coreWork.Canon := .creditCheck (ht.foldl fun _ _ hv => hv.begin)

theorem Tray.Canon.foldUnit (ht : t.Canon) {w p pc rep mem score} : (t.foldUnit w p pc rep mem score).Canon := by
  dsimp only [Tray.foldUnit]
  split
  · exact ht
  · split
    · exact ht
    · split
      · exact ht
      · exact .modUnitCut (ht.foldl fun _ _ hv => .ite (hv.foldl fun _ _ hv1 => hv1.foldValue) hv)

theorem Tray.Canon.mergeUnit (ht : t.Canon) {w p rep mem pan part} : (t.mergeUnit w p rep mem pan part).Canon := by
  dsimp only [Tray.mergeUnit]
  split
  · exact ht
  · split
    · exact ht
    · split
      · exact ht
      · exact .closeComplete (.modUnitCut (ht.foldl fun _ _ hv => hv.mergeLine))

theorem Tray.Canon.treeUnit (ht : t.Canon) {c w handle g pos entry} : (t.treeUnit c w handle g pos entry).Canon := by
  dsimp only [Tray.treeUnit]
  split
  · exact ht
  · exact .ite (.setBatch (.mk (.ite ht.walkImage.blk ht.walkImage))) (.mk (.ite ht.walkImage.blk ht.walkImage))

theorem Tray.Canon.unitEnd (ht : t.Canon) {c i} : (t.unitEnd c i).Canon := by
  dsimp only [Tray.unitEnd]
  split
  · exact ht.begin
  · split
    · exact ht.begin
    · split
      · exact ht.begin.setCore.treeUnit
      · exact ht.begin.setCore.foldUnit
      · exact ht.begin.setCore.foldUnit
      · exact ht.begin.setCore.mergeUnit
      · exact ht.begin.setCore.modUnitCut.closeComplete

theorem Tray.Canon.setThief (ht : t.Canon) {c x} : (t.setThief c x).Canon := ht.mk

theorem Tray.Canon.askVictim (ht : t.Canon) {c} : (t.askVictim c).Canon := .ite ht ht.setThief.blk

theorem Tray.Canon.thiefIdle (ht : t.Canon) {c} : (t.thiefIdle c).Canon := .ite ht.begin.askVictim ht

theorem Tray.Canon.stealRequest (ht : t.Canon) {thief} : (t.stealRequest thief).Canon := by
  dsimp only [Tray.stealRequest]
  split
  · exact ht
  · exact .ite ht (.ite ht.begin.setThief.blk ht.begin.setCore.setThief.blk)

theorem Tray.Canon.stealRefused (ht : t.Canon) {thief} : (t.stealRefused thief).Canon := .ite ht.setThief ht

theorem Tray.Canon.backoffExpiry (ht : t.Canon) {thief} : (t.backoffExpiry thief).Canon := by
  dsimp only [Tray.backoffExpiry]
  split
  · exact ht
  · exact ht.blk.setThief

theorem Tray.Canon.transferDone (ht : t.Canon) {thief} : (t.transferDone thief).Canon := by
  dsimp only [Tray.transferDone]
  split
  · exact ht
  · split
    · exact ht
    · split
      · exact ht
      · exact .ite ht ht.setCore.setCore.setThief.blk

theorem Tray.Canon.modScore (ht : t.Canon) {id f} : (t.modScore id f).Canon := ht.mk

theorem Tray.Canon.partialReceive (ht : t.Canon) {handle gath} : (t.partialReceive handle gath).Canon := by
  dsimp only [Tray.partialReceive]
  split
  · exact ht
  · split
    · exact ht
    · refine .unloadCheck ?_
      split
      · exact ht.mk.blk
      · exact .ite ht.mk.blk (.ite ht.mk.modScore.blk ht.mk.modScore)

theorem Tray.Canon.scoreExpired (ht : t.Canon) {handle gath} : (t.scoreExpired handle gath).Canon := by
  dsimp only [Tray.scoreExpired]
  split
  · exact ht
  · exact ht.blk.modScore.blk

theorem Tray.Canon.scoreSend (ht : t.Canon) {handle gath} : (t.scoreSend handle gath).Canon := by
  dsimp only [Tray.scoreSend]
  split
  · exact ht
  · refine .unloadCheck (.blk (.mk (ht.foldl fun _ _ hv => ?_)))
    split
    · exact hv
    · exact hv.healthVals.foldl fun _ _ hv1 => .ite hv1 (.ite hv1.sendMulticast.modUnitCut hv1.sendMulticast)

theorem Tray.Canon.scoreSendN (ht : t.Canon) {handle gath n} : (t.scoreSendN handle gath n).Canon := by
  induction n generalizing t with
  | zero => exact ht
  | succ n ih => exact ih ht.scoreSend

theorem Tray.Canon.forceUnload (ht : t.Canon) {handle} : (t.forceUnload handle).Canon := by
  dsimp only [Tray.forceUnload]
  split
  · exact ht
  · exact .endCmd (.blk (.dropModel (ht.mk.foldl fun _ _ hv => hv.scoreSendN)))

theorem Tray.Canon.shortBatch (ht : t.Canon) {handle g} : (t.shortBatch handle g).Canon := by
  dsimp only [Tray.shortBatch]
  split
  · exact ht
  · split
    · exact ht
    · exact .ite ht.blk.blk.setBatch.batchReady ht

theorem Tray.Canon.streamLoaded (ht : t.Canon) {handle g waited} : (t.streamLoaded handle g waited).Canon := by
  dsimp only [Tray.streamLoaded]
  split
  · exact ht
  · split
    · exact ht
    · split
      · exact ht
      · exact .ite ht (.blk (ht.loadGroup.mk.setBatch.foldl fun _ _ hv => hv.foldl fun _ _ hv1 => hv1.sendUnit))

theorem Tray.Canon.streamDone (ht : t.Canon) {handle g} : (t.streamDone handle g).Canon := by
  dsimp only [Tray.streamDone]
  split
  · exact ht
  · split
    · exact ht
    · exact .ite (.spanNext (.ite ht.setBatch.mk.batchReady ht.setBatch.mk)) ht

theorem Tray.Canon.powerThrottled (ht : t.Canon) {first} : (t.powerThrottled first).Canon := .blk (.ite ht.blk ht)

theorem Tray.Canon.holdIssue (ht : t.Canon) : t.holdIssue.Canon := .ite ht ht.mk.powerThrottled

theorem Tray.Canon.currentInterval (ht : t.Canon) {mean} : (t.currentInterval mean).Canon :=
  .ite (.ite ht.blk.blk.mk.powerThrottled ht.blk.blk.mk) (.ite ht.blk.blk.mk ht.blk.blk.mk)

/-! ### Commands of the command queues (Machine/TrayCmd) -/

theorem Tray.Canon.checkReads (ht : t.Canon) {b r} : (t.checkReads b r).Canon := .ite ht.readBytes ht

theorem Tray.Canon.initCells (ht : t.Canon) {d} : (t.initCells d).Canon :=
  .foldl (ht.foldl fun _ _ hv => hv.clearBank) fun _ _ hv => hv.foldl fun _ _ hv1 => hv1.setLine

theorem Tray.Canon.define (ht : t.Canon) {p slot d since} : (t.define p slot d since).Canon := ht.initCells.mcFill.mk.setPset

theorem Tray.Canon.freeCheck (ht : t.Canon) {p} : (t.freeCheck p).Canon := by
  dsimp only [Tray.freeCheck]
  split
  · exact ht
  · split
    · exact ht
    · exact .ite ht.mcFree.mk.blk.endCmd ht

theorem Tray.Canon.setEpoch (ht : t.Canon) {slot e} : (t.setEpoch slot e).Canon := by
  dsimp only [Tray.setEpoch]
  refine .ite ht (.foldl (.blk (ht.foldl fun _ _ hv => hv.closeAll)) fun _ _ hv => ?_)
  split
  · exact hv
  · exact hv.setPset

theorem Tray.Canon.sattach (ht : t.Canon) {slot b} : (t.sattach slot b).Canon := ht.blk.mk

theorem Tray.Canon.sdetach (ht : t.Canon) {slot} : (t.sdetach slot).Canon := ht.blk.mk

theorem Tray.Canon.unbind (ht : t.Canon) {slot handle since} : (t.unbind slot handle since).Canon := by
  dsimp only [Tray.unbind]
  split <;> exact ht.mk

theorem Tray.Canon.applyCmd (ht : t.Canon) {b since d} : (t.applyCmd b since d).1.Canon := by
  dsimp only [Tray.applyCmd]
  split
  · exact ht.loadModel.blk
  · exact ht.mk.unloadCheck
  · exact ht.mk
  · exact ht.unbind
  · exact ht.define
  · exact ht.closeAll.mk.freeCheck
  · split
    · exact ht
    · exact .iteFst ht ht.closeCut
  · exact ht.sattach
  · exact ht.sdetach
  · exact ht.setEpoch
  · exact ht

theorem Tray.Canon.countCfg (ht : t.Canon) {ms} : (t.countCfg ms).Canon := ht.foldl fun _ _ hv => hv.blk

theorem Tray.Canon.noteRefusal (ht : t.Canon) {v b e} : (t.noteRefusal v b e).Canon := by
  dsimp only [Tray.noteRefusal]
  refine .ite ?_ ht
  split
  · exact ht.reportRefused
  · exact ht

theorem Tray.Canon.spaceWrite (ht : t.Canon) {space a l} : (t.spaceWrite space a l).Canon := .ite ht.blk ht.lpWrite

theorem Tray.Canon.firstPoison (ht : t.Canon) {space a n} : (t.firstPoison space a n).1.Canon := .iteFst ht (.iteFst ht.readBytes ht.readBytes)

theorem Tray.Canon.copyDone (ht : t.Canon) {q b} : (t.copyDone q b).Canon := by
  dsimp only [Tray.copyDone]
  split
  · exact .finish (.ite ht.firstPoison.spaceWrite.setFlaw ht.firstPoison.spaceWrite.blk)
  · exact ht.firstPoison.spaceWrite.finish

theorem Tray.Canon.msendGo (ht : t.Canon) {q f} : (t.msendGo q f).Canon := by
  dsimp only [Tray.msendGo]
  split
  · exact ht.finish
  · exact .ite ht.firstPoison.finish ht.firstPoison.mk

theorem Tray.Canon.msendCheck (ht : t.Canon) : t.msendCheck.Canon := ht.foldl fun _ _ hv => .ite (.ite hv hv.finish) hv

/-! ### Ingest rings and frames (Machine/TrayIngest) -/

theorem Tray.Canon.setAsm (ht : t.Canon) {k a} : (t.setAsm k a).Canon := ht.mk

theorem Tray.Canon.ringCfg (ht : t.Canon) {r w} : (t.ringCfg r w).Canon :=
  .ite ht.blk (.ite ht.blk (.recheckCuts (.mk (.mk (ht.blk.foldl fun _ _ hv => hv.uncount)))))

theorem Tray.Canon.ringBind (ht : t.Canon) {r v} : (t.ringBind r v).Canon := .ite ht ht.setRing

theorem Tray.Canon.noRing (ht : t.Canon) {src} : (t.noRing src).Canon := ht.blk

theorem Tray.Canon.incomplete (ht : t.Canon) {k r} : (t.incomplete k r).Canon := .ite ht ht.setAsm.blk.setRing.giveCredit

theorem Tray.Canon.crcFailed (ht : t.Canon) {k r a} : (t.crcFailed k r a).Canon := ht.setAsm.blk.setRing.giveCredit

theorem Tray.Canon.ringPut (ht : t.Canon) {r b seq} : (t.ringPut r b seq).Canon := .setRing (ht.foldl fun _ _ hv => hv.brineWrite)

theorem Tray.Canon.setJudged (ht : t.Canon) {r js} : (t.setJudged r js).Canon := ht.setRing

theorem Tray.Canon.frameDone (ht : t.Canon) {r a} : (t.frameDone r a).Canon := by
  unfold Tray.frameDone
  extract_lets inj fired
  have hfired : fired.Canon := .ite ht.blk ht
  exact .ite hfired.crcFailed (.ite hfired.setAsm.blk (.ite hfired.setAsm.setAsm.incomplete
    hfired.setAsm.setRing.giveCredit.ringPut.setRing.judgeFrame.setJudged.addIngest))

theorem Tray.Canon.brineSegment (ht : t.Canon) {leaf b} : (t.brineSegment leaf b).Canon := by
  dsimp only [Tray.brineSegment]
  split
  · exact .ite ht.noRing ht
  · exact .ite ht.blk (.ite (.ite ht.incomplete.setAsm.frameDone ht.incomplete.setAsm) (.ite (.ite ht.setAsm.frameDone ht.setAsm) ht.incomplete))

theorem Tray.Canon.harvestDone (ht : t.Canon) {k r pset a} : (t.harvestDone k r pset a).Canon := by
  unfold Tray.harvestDone
  extract_lets inj fired
  have hfired : fired.Canon := .ite ht.blk ht
  exact .ite hfired.crcFailed (.ite hfired.setAsm.blk (.ite hfired.setAsm.setAsm.incomplete
    hfired.setAsm.setRing.ringPut.judgeHarvest.setJudged.addIngest))

theorem Tray.Canon.harvestSegment (ht : t.Canon) {child b} : (t.harvestSegment child b).Canon := by
  dsimp only [Tray.harvestSegment]
  split
  · exact .ite ht.noRing ht
  · exact .ite ht.blk (.ite (.ite ht.incomplete.setAsm.harvestDone ht.incomplete.setAsm) (.ite (.ite ht.setAsm.harvestDone ht.setAsm) ht.incomplete))

theorem Tray.Canon.asmTimeout (ht : t.Canon) {k} : (t.asmTimeout k).Canon := .ite ht.blk.incomplete ht

theorem Tray.Canon.setLevel (ht : t.Canon) {r level} : (t.setLevel r level).Canon := .ite ht ht.setRing.blk

theorem Tray.Canon.nextLevel (ht : t.Canon) {r} : (t.nextLevel r).Canon := .ite (.ite ht.setRing.setLevel ht) (.ite ht.setRing.setLevel ht)

theorem Tray.Canon.sendCredit (ht : t.Canon) {r grant} : (t.sendCredit r grant).Canon := by
  dsimp only [Tray.sendCredit]
  split
  · exact ht
  · exact ht.blk

theorem Tray.Canon.creditReturn (ht : t.Canon) {r} : (t.creditReturn r).Canon := .ite ht (.setRing (.sendCredit (.nextLevel (.ite ht ht.blk))))

theorem Tray.Canon.quietStep (ht : t.Canon) {slot} : (t.quietStep slot).Canon := ht.foldl fun _ _ hv => .ite hv.setRing hv

/-! ### Transactions of the tray (Machine/TrayTx) -/

theorem Tray.Canon.txFreed (ht : t.Canon) : t.txFreed.Canon := ht.mk

theorem Tray.Canon.doom (ht : t.Canon) {q} : (t.doom q).Canon := by
  dsimp only [Tray.doom]
  split
  · exact ht
  · exact .ite ht (.txFreed (ht.mk.foldl fun _ _ hv => hv.endMember))

theorem Tray.Canon.dropTx (ht : t.Canon) {q} : (t.dropTx q).Canon := ht.mk.txFreed

theorem Tray.Canon.failsIn (ht : t.Canon) {q b} : (t.failsIn q b).Canon := .ite ht.mk ht.doom

theorem Tray.Canon.dispatch (ht : t.Canon) {cls} : (t.dispatch cls).Canon := by
  dsimp only [Tray.dispatch]
  refine .ite ?_ ht
  split
  · exact ht
  · exact .ite ht.readBytes.setQueue.mk.blk.failsIn.finish (.ite ht.readBytes.setQueue.mk.blk ht.readBytes.setQueue.mk.blk.failsIn.finish)

theorem Tray.Canon.member (ht : t.Canon) {q f} : (t.member q f).Canon := by
  dsimp only [Tray.member]
  refine .ite ht.mk (.ite ht.mk.doom.finish (.ite ht.mk.finish (.ite ht.mk.doom.finish (.ite ht.mk.doom.finish ?_))))
  split
  · exact .finish (.doom (.noteRefusal (.ite ht.mk.checkReads ht.mk)))
  · exact .mk (.ite ht.mk.checkReads ht.mk)

theorem Tray.Canon.take (ht : t.Canon) {q op} : (t.take q op).1.Canon := by
  dsimp only [Tray.take]
  split
  · exact ht
  · exact .iteFst ht (.iteFst ht.member (.iteFst ht.doom.finish ht))

theorem Tray.Canon.setPhase (ht : t.Canon) {q p} : (t.setPhase q p).Canon := ht.mk

theorem Tray.Canon.runTable (ht : t.Canon) {q op} : (t.runTable q op).Canon := by
  dsimp only [Tray.runTable]
  split
  · exact ht.take
  · split
    · exact ht.take.checkReads.noteRefusal.finish
    · split
      · exact ht.take.checkReads.countCfg.applyCmd.finish
      · exact .ite ht.take.checkReads.countCfg.applyCmd.setPhase ht.take.checkReads.countCfg.applyCmd

theorem Tray.Canon.toPoint (ht : t.Canon) {p} : (t.toPoint p).Canon := by
  dsimp only [Tray.toPoint]
  split
  · exact ht
  · exact .ite ht.blk ht
  · exact ht.blk

theorem Tray.Canon.waitq (ht : t.Canon) {q} : (t.waitq q).Canon := by
  dsimp only [Tray.waitq]
  split
  · exact ht.take
  · exact .ite ht.take.finish (.ite ht.take.finish ht.take.mk)

theorem Tray.Canon.waitat (ht : t.Canon) {q} : (t.waitat q).Canon := by
  dsimp only [Tray.waitat]
  split
  · exact ht.take
  · exact .ite ht.take.finish (.ite ht.take.finish (.ite ht.take.finish ht.take.mk))

theorem Tray.Canon.waitMet (ht : t.Canon) {q} : (t.waitMet q).Canon := by
  dsimp only [Tray.waitMet]
  split
  · exact .ite ht.finish ht
  · exact .ite ht.toPoint.finish ht.toPoint
  · exact ht

theorem Tray.Canon.waitqTimeout (ht : t.Canon) {q} : (t.waitqTimeout q).Canon := by
  dsimp only [Tray.waitqTimeout]
  split
  · exact ht
  · exact .ite ht ht.blk.finish

theorem Tray.Canon.copyGo (ht : t.Canon) {q} : (t.copyGo q).Canon := by
  dsimp only [Tray.copyGo]
  split
  · exact ht.take
  · split
    · exact ht.take.finish
    · exact ht.take.setPhase

theorem Tray.Canon.zipGo (ht : t.Canon) {q op} : (t.zipGo q op).Canon := by
  dsimp only [Tray.zipGo]
  split
  · exact ht.take
  · split
    · exact ht.take.finish
    · exact ht.take.mk

theorem Tray.Canon.verifyFailed (ht : t.Canon) {engine blk set} : (t.verifyFailed engine blk set).Canon := ht.blk

theorem Tray.Canon.zipDone (ht : t.Canon) {q engine b} : (t.zipDone q engine b).Canon := by
  unfold Tray.zipDone
  extract_lets n dec lim src read found input inj fired z poisoned wrote counted verified result
  have hcounted : counted.Canon := .blk (.blk (.spaceWrite (.ite ht.firstPoison.blk ht.firstPoison)))
  have hverified : verified.Canon := by
    dsimp only [verified]
    split
    · exact hcounted.verifyFailed
    · exact hcounted
  exact .ite hverified.finish hverified.finish

theorem Tray.Canon.dataDone (ht : t.Canon) {q engine} : (t.dataDone q engine).Canon := by
  dsimp only [Tray.dataDone]
  split
  · exact ht
  · refine .ite ht ?_
    split
    · exact ht.copyDone
    · exact .ite ht.zipDone ht
    · exact .ite ht.zipDone ht
    · exact ht

theorem Tray.Canon.msend (ht : t.Canon) {q} : (t.msend q).Canon := by
  dsimp only [Tray.msend]
  split
  · exact ht.take
  · split
    · exact ht.take.finish
    · exact ht.take.msendGo

theorem Tray.Canon.queueResume (ht : t.Canon) {q} : (t.queueResume q).Canon := .ite ht.setQueue ht

theorem Tray.Canon.flushN (ht : t.Canon) {q n} : (t.flushN q n).Canon := by
  induction n generalizing t with
  | zero => exact ht
  | succ n ih => exact .ite ht (ih (.endCmd (.ite ht.setQueue.dropTx ht.setQueue)))

theorem Tray.Canon.queueFlush (ht : t.Canon) {q} : (t.queueFlush q).Canon := .ite ht.doom.flushN.setQueue ht

theorem Tray.Canon.queueCfg (ht : t.Canon) {q w} : (t.queueCfg q w).Canon := .ite ht.blk.mk.stopQueue ht.blk.mk

theorem Tray.Canon.fromJournal (ht : t.Canon) {cls} : (t.fromJournal cls).Canon := ht.mk

theorem Tray.Canon.journalOne {acc : Tray × Nat × Nat} (hacc : acc.1.Canon) {q} : (Tray.journalOne acc q).1.Canon := by
  dsimp only [Tray.journalOne]
  split
  · exact hacc.readBytes
  · exact .iteFst hacc.readBytes (.iteFst hacc.readBytes.finish (.iteFst (.iteFst hacc.readBytes.finish hacc.readBytes.mk)
      (.iteFst hacc.readBytes.finish (.iteFst hacc.readBytes.mk.finish hacc.readBytes))))

theorem Tray.Canon.classReset (ht : t.Canon) {cls pass} : (t.classReset cls pass).Canon := by
  unfold Tray.classReset
  extract_lets raised js fromj qs r processed disarmed
  have hprocessed : processed.Canon := ht.relayZero.blk.fromJournal.foldlFst fun _ _ hv => hv.journalOne
  exact .restoreModels ((hprocessed.ifThen (·.blk)).foldl fun _ _ hv => hv.held)

/-! ### Job starts (Machine/TrayStart) -/

theorem Tray.Canon.modDesc (ht : t.Canon) {job bseq f} : (t.modDesc job bseq f).Canon := ht.mk

theorem Tray.Canon.setJslot (ht : t.Canon) {s j} : (t.setJslot s j).Canon := ht.mk

theorem Tray.Canon.attachLeaf (ht : t.Canon) {x leaf cached} : (t.attachLeaf x leaf cached).Canon := by
  dsimp only [Tray.attachLeaf]
  split
  · exact ht.modDesc
  · refine .ite ht.blk ?_
    split
    · exact ht.blk.modDesc
    · exact ht.blk.modDesc.setRing.sendCredit

theorem Tray.Canon.attachAll (ht : t.Canon) {x} : (t.attachAll x).Canon :=
  .ite ht (ht.foldl fun _ _ hv => .ite hv.attachLeaf (.ite hv.attachLeaf hv))

theorem Tray.Canon.beginMember (ht : t.Canon) {q m} : (t.beginMember q m).Canon := ht.mk

theorem Tray.Canon.applyMembers (ht : t.Canon) {q ms since late levels} : (t.applyMembers q ms since late levels).Canon := by
  dsimp only [Tray.applyMembers]
  refine ht.countCfg.foldl fun _ _ hv => .ite hv.endMember (.ite hv.beginMember ?_)
  split
  · exact hv.applyCmd.endMember
  · exact hv.applyCmd

theorem Tray.Canon.applyStart (ht : t.Canon) {x held again since late} : (t.applyStart x held again since late).Canon := by
  dsimp only [Tray.applyStart]
  split
  · refine .attachAll ?_
    split
    · exact ht.applyMembers.modDesc.setJslot
    · exact ht.applyMembers.modDesc
  · split
    · exact ht.applyMembers.modDesc.setJslot
    · exact ht.applyMembers.modDesc

theorem Tray.Canon.applyDeferred (ht : t.Canon) {slot} : (t.applyDeferred slot).Canon := ht.foldl fun _ _ hv => .ite hv.applyMembers.modDesc.blk hv

theorem Tray.Canon.releaseDeadline (ht : t.Canon) {job} : (t.releaseDeadline job).Canon := by
  dsimp only [Tray.releaseDeadline]
  split
  · exact ht
  · refine .ite ht.blk.modDesc (.foldl ?_ fun _ _ hv => .blk (hv.foldl fun _ _ hv1 => hv1.mk.freeCheck))
    split
    · exact .setJslot (ht.blk.modDesc.foldl fun _ _ hv => hv.forceUnload)
    · exact ht.blk.modDesc.foldl fun _ _ hv => hv.forceUnload

/-! ### Transactions across the pod (Machine/TxPod) -/

theorem Tray.Canon.modNode (ht : t.Canon) {job txid f} : (t.modNode job txid f).Canon := ht.mk

theorem Tray.Canon.dropNode (ht : t.Canon) {job txid} : (t.dropNode job txid).Canon := ht.mk.txFreed

theorem Tray.Canon.nodeCheck (ht : t.Canon) {job txid} : (t.nodeCheck job txid).Canon := by
  dsimp only [Tray.nodeCheck]
  split
  · exact .ite ht.dropNode ht
  · exact ht

theorem Tray.Canon.sendTx (ht : t.Canon) {link m} : (t.sendTx link m).Canon := ht.blk

theorem Tray.Canon.applyDue (ht : t.Canon) {d late} : (t.applyDue d late).Canon := by
  unfold Tray.applyDue
  extract_lets since again applied
  have happlied : applied.Canon := by
    dsimp only [applied]
    split
    · exact ht.applyStart
    · exact ht.applyMembers
  split
  · split
    · exact happlied.finish
    · exact happlied
  · extract_lets n count marked ended sent
    clear_value n
    have hended : ended.Canon := by
      dsimp only [ended]
      split
      · exact happlied.modNode.finish
      · exact happlied.modNode
    have hsent : sent.Canon := by
      cases n with
      | none => exact hended
      | some n => exact .ite hended.sendTx hended
    exact hsent.nodeCheck

theorem Tray.Canon.runDueN (ht : t.Canon) {n} : (t.runDueN n).Canon := by
  induction n generalizing t with
  | zero => exact ht
  | succ n ih =>
    unfold Tray.runDueN
    split
    · exact ht
    · split
      · exact ht
      · exact ih ht.mk.applyDue

theorem Tray.Canon.commitPoint (ht : t.Canon) {i} : (t.commitPoint i).Canon := by
  dsimp only [Tray.commitPoint]
  split
  · exact ht
  · exact ht.toPoint.runDueN

theorem Tray.Canon.fireLate (ht : t.Canon) {a} : (t.fireLate a).Canon := by
  cases a with
  | action a => exact ht.blk
  | wait q => exact ht.finish
  | commit d => exact ht.mk.applyDue

theorem Tray.Canon.fireStamp (ht : t.Canon) {a} : (t.fireStamp a).Canon := by
  cases a with
  | commit d => exact ht.mk.applyDue
  | wait q => exact ht.finish
  | cut p => exact ht.angleDeadline

theorem Tray.Canon.fireStamps (ht : t.Canon) {s n} : (t.fireStamps s n).Canon := by
  induction n generalizing t with
  | zero => exact ht
  | succ n ih =>
    unfold Tray.fireStamps
    split
    · exact ht
    · exact ih ht.fireStamp

theorem Tray.Canon.setTb0 (ht : t.Canon) {v} : (t.setTb0 v).Canon :=
  .foldl (.blk (ht.blk.foldl fun _ _ hv => hv.fireLate)) fun _ _ hv => hv.fireStamps

theorem Tray.Canon.enact (ht : t.Canon) {d} : (t.enact d).Canon := .ite ht.applyDue ht.mk

theorem Tray.Canon.closeFails (ht : t.Canon) {q status} : (t.closeFails q status).Canon := ht.doom.dropTx.finish

theorem Tray.Canon.txclose (ht : t.Canon) {q} : (t.txclose q).Canon := by
  dsimp only [Tray.txclose]
  split
  · exact ht
  · split
    · exact .ite ht.finish ht.finish
    · exact .ite ht.doom.finish (.ite ht.doom.finish (.ite ht.dropTx.finish (.ite ht.closeFails (.ite ht.closeFails (.ite ht.closeFails
          (.ite ht.closeFails (.ite ht.setPhase.mk.txFreed.enact (.ite (.finish (ht.setPhase.mk.txFreed.foldl fun _ _ hv => hv.endMember))
              (ht.setPhase.mk.txFreed.mk.foldl fun _ _ hv => hv.foldl fun _ _ hv1 => hv1.sendTx)))))))))

theorem Tray.Canon.castVote (ht : t.Canon) {n} : (t.castVote n).Canon := .ite ht ht.modNode.sendTx

theorem Tray.Canon.tryVote (ht : t.Canon) {job txid} : (t.tryVote job txid).Canon := by
  dsimp only [Tray.tryVote]
  split
  · exact ht
  · exact .ite ht.castVote ht

theorem Tray.Canon.voteTime (ht : t.Canon) {job txid} : (t.voteTime job txid).Canon := by
  dsimp only [Tray.voteTime]
  split
  · exact ht
  · exact .ite ht (.castVote (.ite ht.blk ht))

theorem Tray.Canon.txPrepare (ht : t.Canon) {link m} : (t.txPrepare link m).Canon := by
  have hfwd : ∀ v : Tray, v.Canon → (v.childTrays.foldl (fun (w : Tray) l => w.sendTx l m) v).Canon := fun _ hv =>
    hv.foldl fun _ _ hw => hw.sendTx
  exact .ite ht.sendTx (.ite ht (.ite (hfwd _ ht).sendTx (.ite (hfwd _ ht.mk)
    (.tryVote (.modNode ((hfwd _ ht.mk).foldl fun _ _ hv => hv.checkReads))))))

theorem Tray.Canon.txVote (ht : t.Canon) {link m} : (t.txVote link m).Canon := by
  dsimp only [Tray.txVote]
  split
  · exact ht
  · exact .ite ht (.ite ht.modNode ht.modNode.tryVote)

theorem Tray.Canon.sendOutcome (ht : t.Canon) {n} : (t.sendOutcome n).Canon := .modNode (ht.foldl fun _ _ hv => hv.sendTx)

theorem Tray.Canon.commitNode (ht : t.Canon) {n own} : (t.commitNode n own).Canon :=
  .ite ht.modNode.sendOutcome.enact (.nodeCheck (.modNode (.ite ht.modNode.sendOutcome.sendTx ht.modNode.sendOutcome)))

theorem Tray.Canon.abortHere (ht : t.Canon) {n} : (t.abortHere n).Canon := by
  unfold Tray.abortHere
  extract_lets sent start count closed dropped
  have hsent : sent.Canon := ht.foldl fun _ _ hv => hv.sendTx
  clear_value start
  have hclosed : closed.Canon := by
    cases start with
    | none => exact hsent
    | some y => exact .modDesc (.ite hsent.blk hsent)
  have hdropped : dropped.Canon := hclosed.dropNode
  split
  · exact hdropped
  · exact .finish (.ite hdropped (hdropped.foldl fun _ _ hv => hv.endMember))

theorem Tray.Canon.txDecision (ht : t.Canon) {job txid} : (t.txDecision job txid).Canon := by
  unfold Tray.txDecision
  split
  · exact ht
  · extract_lets early timed ok count commit decided noted
    have htimed : timed.Canon := .ite ht ht.blk
    have hnoted : noted.Canon := by
      dsimp only [noted]
      split
      · exact htimed.modNode.blk
      · exact htimed.modNode
    exact .ite ht (.ite htimed.abortHere (.ite hnoted.modNode.sendTx hnoted.commitNode))

theorem Tray.Canon.txCopy (ht : t.Canon) {link m} : (t.txCopy link m).Canon := ht.mk.sendTx

theorem Tray.Canon.txCopyAck (ht : t.Canon) {job txid} : (t.txCopyAck job txid).Canon := by
  dsimp only [Tray.txCopyAck]
  split
  · exact ht
  · exact .ite ht.commitNode ht

theorem Tray.Canon.txCommit (ht : t.Canon) {link m} : (t.txCommit link m).Canon := by
  dsimp only [Tray.txCommit]
  split
  · exact ht
  · exact .ite ht.sendTx (.ite ht ht.commitNode)

theorem Tray.Canon.txAbort (ht : t.Canon) {m} : (t.txAbort m).Canon := by
  dsimp only [Tray.txAbort]
  split
  · exact ht.foldl fun _ _ hv => hv.sendTx
  · exact .ite ht ht.abortHere

theorem Tray.Canon.txCommitAck (ht : t.Canon) {link m} : (t.txCommitAck link m).Canon := ht.modNode.nodeCheck

theorem Tray.Canon.txDoubt (ht : t.Canon) {job txid} : (t.txDoubt job txid).Canon := by
  dsimp only [Tray.txDoubt]
  split
  · exact ht
  · exact .ite ht (.ite ht.blk.sendTx ht.blk.modNode.blk.sendTx)

theorem Tray.Canon.txQuery (ht : t.Canon) {link m} : (t.txQuery link m).Canon := by
  dsimp only [Tray.txQuery]
  split
  · exact ht.sendTx
  · exact ht

theorem Tray.Canon.txReplay (ht : t.Canon) {link} : (t.txReplay link).Canon :=
  ht.foldl fun _ _ hv => .ite (.sendTx (hv.foldl fun _ _ hv1 => hv1.sendTx)) hv

theorem Tray.Canon.txMessage (ht : t.Canon) {link m} : (t.txMessage link m).Canon := by
  dsimp only [Tray.txMessage]
  split
  · exact ht.txPrepare
  · exact ht.txVote
  · exact ht.txCommit
  · exact ht.txAbort
  · exact .ite ht.txCopyAck ht.txCommitAck
  · exact ht.txQuery
  · exact ht.txCopy
  · exact ht.blk

theorem Tray.Canon.txabort (ht : t.Canon) {q} : (t.txabort q).Canon := by
  dsimp only [Tray.txabort]
  split
  · exact ht
  · refine .ite ht.member (.ite ht.doom.finish ?_)
    split
    · exact .ite ht.doom.dropTx.finish ht.doom.finish
    · refine .ite ht.finish ?_
      split
      · exact ht.abortHere.finish
      · exact ht.finish

/-! ### The census (Machine/TrayCensus) -/

theorem Tray.Canon.setView (ht : t.Canon) {slot leaf alt state} : (t.setView slot leaf alt state).Canon := ht.mk

theorem Tray.Canon.noticeDown (ht : t.Canon) {leaf first ks} : (t.noticeDown leaf first ks).Canon := by
  dsimp only [Tray.noticeDown]
  split
  · exact ht.blk
  · exact ht.foldl fun _ _ hv => hv.blk

theorem Tray.Canon.noticeRelay (ht : t.Canon) {body} : (t.noticeRelay body).Canon := ht.noticeDown

theorem Tray.Canon.sendChoices (ht : t.Canon) {c ch} : (t.sendChoices c ch).Canon := ht.foldl fun _ _ hv => hv.noticeDown

theorem Tray.Canon.setCensus (ht : t.Canon) {slot c} : (t.setCensus slot c).Canon := ht.setJslot

theorem Tray.Canon.checkpointFails (ht : t.Canon) {slot c reason group} : (t.checkpointFails slot c reason group).Canon := ht.setCensus.blk

theorem Tray.Canon.failIfLost (ht : t.Canon) {slot} : (t.failIfLost slot).Canon := by
  dsimp only [Tray.failIfLost]
  split
  · exact ht
  · split
    · exact ht.checkpointFails
    · exact ht

theorem Tray.Canon.censusCheck (ht : t.Canon) {slot} : (t.censusCheck slot).Canon := by
  dsimp only [Tray.censusCheck]
  split
  · exact ht
  · split
    · exact ht.checkpointFails
    · exact .ite ht (.ite ht.checkpointFails ht.mk.setJslot.blk)

theorem Tray.Canon.censusGo (ht : t.Canon) {slot} : (t.censusGo slot).Canon := by
  dsimp only [Tray.censusGo]
  split
  · exact ht
  · exact ht.setCensus.sendChoices.censusCheck

theorem Tray.Canon.censusDeadline (ht : t.Canon) {slot} : (t.censusDeadline slot).Canon := by
  dsimp only [Tray.censusDeadline]
  split
  · exact ht
  · exact ht.blk.checkpointFails

theorem Tray.Canon.bulkUp (ht : t.Canon) {b} : (t.bulkUp b).Canon := .ite ht.blk ht

theorem Tray.Canon.stale (ht : t.Canon) {slot n} : (t.stale slot n).Canon := ht.blk

theorem Tray.Canon.changed (ht : t.Canon) {slot c i chunk} : (t.changed slot c i chunk).1.Canon := by
  dsimp only [Tray.changed]
  split
  · exact ht
  · refine ht.sendChoices.foldl fun _ _ hv => .ite hv ?_
    split
    · exact hv.sendChoices.blk
    · exact hv

theorem Tray.Canon.reportOne (ht : t.Canon) {slot e} : (t.reportOne slot e).Canon := by
  dsimp only [Tray.reportOne]
  split
  · exact ht.stale
  · split
    · exact ht.stale
    · exact .ite ht.setCensus (.ite ht.stale (.ite ht.setCensus.stale (.ite ht.setCensus (.ite ht.changed.setCensus.failIfLost ht))))

theorem Tray.Canon.censusReport (ht : t.Canon) {b} : (t.censusReport b).Canon := by
  dsimp only [Tray.censusReport]
  split
  · exact ht.bulkUp
  · exact .ite ht.stale (.censusGo (ht.foldl fun _ _ hv => hv.reportOne))

theorem Tray.Canon.planWrite (ht : t.Canon) {slot chunks} : (t.planWrite slot chunks).Canon := by
  dsimp only [Tray.planWrite]
  split
  · exact .ite ht.setJslot (ht.foldl fun _ _ hv => hv.blk)
  · exact ht

theorem Tray.Canon.censusBus (ht : t.Canon) : t.censusBus.Canon := by
  dsimp only [Tray.censusBus]
  refine ht.foldl fun _ _ hv => .censusCheck ?_
  split
  · exact hv.setJslot.planWrite
  · exact hv

theorem Tray.Canon.sourceLost (ht : t.Canon) {slot i} : (t.sourceLost slot i).Canon := by
  dsimp only [Tray.sourceLost]
  split
  · exact .ite ht (.blk (.ite ht.setJslot.planWrite ht.setJslot.planWrite.blk))
  · exact ht

theorem Tray.Canon.thinWarn (ht : t.Canon) {slot c i} : (t.thinWarn slot c i).Canon := .ite ht ht.blk

theorem Tray.Canon.writersLost (ht : t.Canon) {slot i} : (t.writersLost slot i).Canon := by
  dsimp only [Tray.writersLost]
  split
  · exact ht
  · exact .failIfLost (ht.setCensus.sendChoices.foldl fun _ _ hv => hv.blk)

theorem Tray.Canon.holderChange (ht : t.Canon) {slot leaf alt state} : (t.holderChange slot leaf alt state).Canon := by
  unfold Tray.holderChange
  extract_lets was viewed gone warn j openWarned keptWarned writers sources
  have hwarn : ∀ (v : Tray) c, v.Canon → (warn v c).Canon := by
    intro v c hv
    dsimp only [warn]
    split
    · split
      · exact .ite hv.thinWarn hv
      · exact hv
    · exact hv
  have hkept : keptWarned.Canon := hwarn _ _ (hwarn _ _ ht.setView)
  have hwriters : writers.Canon := by
    dsimp only [writers]
    split
    · exact .ite hkept.writersLost hkept
    · exact hkept
  have hsources : sources.Canon := by
    dsimp only [sources]
    split
    · exact .ite hwriters.sourceLost hwriters
    · exact hwriters
  exact hsources.censusGo

theorem Tray.Canon.holderReport (ht : t.Canon) {link b} : (t.holderReport link b).Canon := by
  dsimp only [Tray.holderReport]
  split
  · exact ht.foldl fun _ _ hv => hv.holderChange
  · refine .bulkUp ?_
    split
    · exact ht.foldl fun _ _ hv => hv.setView
    · exact ht

theorem Tray.Canon.liveCheck (ht : t.Canon) : t.liveCheck.Canon := by
  dsimp only [Tray.liveCheck]
  refine .ite ht (ht.foldl fun _ _ hv => hv.foldl fun _ _ hv1 => .ite hv1 ?_)
  split
  · exact .ite hv1.holderChange hv1
  · exact hv1.setView.bulkUp

theorem Tray.Canon.writtenReport (ht : t.Canon) {b} : (t.writtenReport b).Canon := by
  dsimp only [Tray.writtenReport]
  split
  · exact ht.bulkUp
  · split
    · exact ht.stale
    · refine .ite ht.stale ?_
      split
      · exact ht.stale
      · exact ht.setCensus.censusCheck

theorem Tray.Canon.copiedReport (ht : t.Canon) {b} : (t.copiedReport b).Canon := by
  dsimp only [Tray.copiedReport]
  split
  · exact ht.bulkUp
  · split
    · exact .ite ht.stale (.ite ht.setJslot.setView.setView.blk ht.setJslot)
    · exact ht.stale

theorem Tray.Canon.openCheckpoint (ht : t.Canon) {slot d} : (t.openCheckpoint slot d).Canon := ht.setCensus

theorem Tray.Canon.openSpare (ht : t.Canon) {slot d} : (t.openSpare slot d).Canon := by
  dsimp only [Tray.openSpare]
  split
  · exact ht
  · split
    · exact ht
    · exact ht.setJslot.planWrite.blk.blk

theorem Tray.Canon.fprFrame (ht : t.Canon) {b} : (t.fprFrame b).Canon := by
  dsimp only [Tray.fprFrame]
  refine .ite ht.blk ?_
  split
  · exact .ite ht.mk ht.mk.bulkUp
  · refine .censusReport ?_
    split
    · split
      · exact .ite ht.mk.setCensus ht.mk.setCensus
      · exact ht.mk
    · exact ht.mk

/-! ### Jobs and their teardown (Machine/TrayJobs) -/

theorem Tray.Canon.nextBseq (ht : t.Canon) {job} : (t.nextBseq job).1.Canon := ht.mk

theorem Tray.Canon.cacheStore (ht : t.Canon) {x cell} : (t.cacheStore x cell).Canon := by
  dsimp only [Tray.cacheStore]
  refine .mk ?_
  split
  · exact ht.wroteBytes
  · exact ht

theorem Tray.Canon.cacheRead (ht : t.Canon) {x} : (t.cacheRead x).1.Canon := by
  dsimp only [Tray.cacheRead]
  split
  · exact ht
  · exact .iteFst ht.readBytes.mk ht.readBytes

theorem Tray.Canon.sendParts (ht : t.Canon) {x l resent} : (t.sendParts x l resent).Canon := ht.foldl fun _ _ hv => hv.blk

theorem Tray.Canon.broadcast (ht : t.Canon) {x} : (t.broadcast x).Canon := .modDesc (ht.foldl fun _ _ hv => hv.sendParts)

theorem Tray.Canon.hopAck (ht : t.Canon) {l kind job bseq txid status covers} : (t.hopAck l kind job bseq txid status covers).Canon := ht.blk

theorem Tray.Canon.orphan (ht : t.Canon) {x l status} : (t.orphan x l status).Canon := ht.modDesc.blk.tryVote

theorem Tray.Canon.hopAcked (ht : t.Canon) {l m} : (t.hopAcked l m).Canon := by
  dsimp only [Tray.hopAcked]
  split
  · exact ht
  · refine .ite ?_ ?_
    · split
      · exact ht
      · exact ht.modDesc.tryVote
    · split
      · exact ht
      · exact .ite ht (.ite ht.modDesc.orphan ht.modDesc)

theorem Tray.Canon.hopTimeout (ht : t.Canon) {job bseq l} : (t.hopTimeout job bseq l).Canon := by
  dsimp only [Tray.hopTimeout]
  split
  · exact ht
  · split
    · exact ht
    · exact .ite ht ht.blk.orphan

theorem Tray.Canon.coverOrphans (ht : t.Canon) {x} : (t.coverOrphans x).Canon := .ite ht (ht.foldl fun _ _ hv => hv.hopAck)

theorem Tray.Canon.startHere (ht : t.Canon) {x parent dead queue again} : (t.startHere x parent dead queue again).Canon := by
  unfold Tray.startHere
  extract_lets d inv v new n added checked deferred
  have hadded : added.Canon := ht.mk
  have hchecked : checked.Canon := .ite (hadded.foldl fun _ _ hv => hv.checkReads) hadded
  have hdeferred : deferred.Canon := hchecked.modDesc
  exact .ite hdeferred hdeferred.coverOrphans.tryVote

theorem Tray.Canon.startPartInto (ht : t.Canon) {link m x} : (t.startPartInto link m x).Canon := by
  dsimp only [Tray.startPartInto]
  refine .ite ht.mk ?_
  split
  · exact ht.mk.hopAck
  · exact ht.cacheStore.hopAck.broadcast.startHere

theorem Tray.Canon.startAgain (ht : t.Canon) {link m x} : (t.startAgain link m x).Canon := .ite ht.startHere ht

theorem Tray.Canon.startPart (ht : t.Canon) {link m} : (t.startPart link m).Canon := by
  dsimp only [Tray.startPart]
  split
  · exact .ite ht.startPartInto (.ite ht.cacheRead.hopAck.startAgain ht.cacheRead.startPartInto)
  · exact .ite ht.hopAck ht.startPartInto

theorem Tray.Canon.notAttached (ht : t.Canon) {x leaf status} : (t.notAttached x leaf status).Canon := ht.modDesc.blk

theorem Tray.Canon.leafAcked (ht : t.Canon) {m} : (t.leafAcked m).Canon := by
  dsimp only [Tray.leafAcked]
  split
  · exact ht
  · split
    · exact ht
    · exact .ite ht.modDesc ht.modDesc.notAttached

theorem Tray.Canon.leafTimeout (ht : t.Canon) {job bseq leaf} : (t.leafTimeout job bseq leaf).Canon := by
  dsimp only [Tray.leafTimeout]
  split
  · exact ht
  · split
    · exact ht
    · exact .ite ht ht.blk.notAttached

theorem Tray.Canon.adoptLeaf (ht : t.Canon) {leaf} : (t.adoptLeaf leaf).Canon := by
  dsimp only [Tray.adoptLeaf]
  refine ht.foldl fun _ _ hv => ?_
  split
  · exact hv
  · exact .ite hv (.ite hv.cacheRead (.hopAck (.ite hv.cacheRead.attachLeaf hv.cacheRead)))

theorem Tray.Canon.teardownRun (ht : t.Canon) {waiting ms} : (t.teardownRun waiting ms).1.Canon := by
  induction ms generalizing t with
  | nil => exact ht
  | cons m ms ih =>
    unfold Tray.teardownRun
    refine .iteFst (ih ht) ?_
    split
    · exact ih ht.applyMembers
    · exact .iteFst ht (ih ht)

theorem Tray.Canon.teardownCheck (ht : t.Canon) : t.teardownCheck.Canon := by
  refine ht.foldl fun v x hv => ?_
  extract_lets run settled
  have hrun : run.1.Canon := .iteFst hv.teardownRun hv
  have hsettled : settled.Canon := .ite hrun hrun.modDesc
  exact hsettled.ifThen (·.modDesc.blk)

theorem Tray.Canon.teardownHere (ht : t.Canon) {x} : (t.teardownHere x).Canon := by
  dsimp only [Tray.teardownHere]
  refine .teardownCheck (.modDesc (.mk (.ite (.foldl (.teardownRun ?_) fun _ _ hv => .ite ?_ hv) (.teardownRun ?_))))
  · split
    · exact ht.setJslot
    · exact ht
  · split
    · exact hv.blk
    · exact hv
  · split
    · exact ht.setJslot
    · exact ht

theorem Tray.Canon.teardownPart (ht : t.Canon) {link m} : (t.teardownPart link m).Canon :=
  .ite ht.hopAck (.ite ht.mk ht.mk.hopAck.broadcast.teardownHere)

theorem Tray.Canon.teardownResend (ht : t.Canon) {job bseq l} : (t.teardownResend job bseq l).Canon := by
  dsimp only [Tray.teardownResend]
  split
  · exact ht
  · split
    · exact ht
    · exact .ite ht (.ite ht.blk.sendParts.modDesc ht.blk.orphan)

theorem Tray.Canon.startGo (ht : t.Canon) {q} : (t.startGo q).Canon := by
  dsimp only [Tray.startGo]
  have hread : ∀ {b bad}, ((t.take q 0x51).1.checkReads b bad).Canon := ht.take.checkReads
  split
  · exact ht.take
  · split
    · exact hread.finish
    · split
      · split
        · exact hread.finish
        · split
          · exact hread.finish
          · exact hread.openCheckpoint.finish
      · split
        · exact hread.finish
        · split
          · exact hread.finish
          · exact hread.openSpare.finish
      · exact .ite hread.finish (.ite hread.nextBseq.cacheStore.broadcast.teardownHere.finish
          hread.nextBseq.cacheStore.setPhase.broadcast.startHere)

theorem Tray.Canon.startMessage (ht : t.Canon) {link m} : (t.startMessage link m).Canon := by
  dsimp only [Tray.startMessage]
  split
  · exact ht.startPart
  · exact ht.hopAcked
  · exact ht.leafAcked
  · exact ht.blk

theorem Tray.Canon.bulk (ht : t.Canon) {link b} : (t.bulk link b).Canon := by
  dsimp only [Tray.bulk]
  split
  · exact ht.teardownPart
  · exact ht.hopAcked
  · exact ht.censusReport
  · exact ht.holderReport
  · exact ht.writtenReport
  · exact ht.copiedReport
  · exact ht

/-! ### Health events (Machine/TrayHealth) -/

theorem Tray.Canon.setHs (ht : t.Canon) {s h} : (t.setHs s h).Canon := ht.mk

theorem Tray.Canon.setDie (ht : t.Canon) {s m d} : (t.setDie s m d).Canon := ht.setHs

theorem Tray.Canon.down (ht : t.Canon) {code rest} : (t.down code rest).Canon := ht.foldl fun _ _ hv => hv.blk

theorem Tray.Canon.queryDie (ht : t.Canon) {s m} : (t.queryDie s m).Canon := by
  dsimp only [Tray.queryDie]
  split
  · exact ht.blk
  · exact ht

theorem Tray.Canon.sendBudgetOpen (ht : t.Canon) {s} : (t.sendBudgetOpen s).Canon := ht.down

theorem Tray.Canon.scfgWrite (ht : t.Canon) {s w} : (t.scfgWrite s w).Canon :=
  .ite (.ite ht ht.blk.setHs) (.ite ht.blk (.ite ht.blk.blk (.ite (.sendBudgetOpen (ht.blk.blk.setHs.foldl fun _ _ hv => hv.queryDie))
      (ht.blk.blk.setHs.foldl fun _ _ hv => hv.queryDie))))

theorem Tray.Canon.queryAnswer (ht : t.Canon) {m} : (t.queryAnswer m).Canon := by
  dsimp only [Tray.queryAnswer]
  split
  · exact ht
  · split
    · exact ht
    · exact .ite ht ht.setDie.blk

theorem Tray.Canon.refSend (ht : t.Canon) {h} : (t.refSend h).Canon := by
  dsimp only [Tray.refSend]
  refine ht.foldl fun _ _ hv => .ite ?_ hv
  split
  · exact hv
  · split
    · exact hv
    · exact .ite hv hv.down

theorem Tray.Canon.refReceive (ht : t.Canon) {body} : (t.refReceive body).Canon := by
  dsimp only [Tray.refReceive]
  split
  · exact ht
  · exact .down (.ite ht (.ite (.blk (.setHs (.ite ht.setHs ht))) (.ite ht.setHs ht)))

theorem Tray.Canon.unitContain (ht : t.Canon) {s m k kind arg} : (t.unitContain s m k kind arg).Canon := ht.setDie.produce

theorem Tray.Canon.answered (ht : t.Canon) {s m} : (t.answered s m).Canon := ht.setDie

theorem Tray.Canon.holdDie (ht : t.Canon) {s m status} : (t.holdDie s m status).Canon := ht.setDie.setHs.blk

theorem Tray.Canon.takeAsk (ht : t.Canon) {s m} : (t.takeAsk s m).2.Canon := ht.setDie

theorem Tray.Canon.expelDie (ht : t.Canon) {s m ahead} : (t.expelDie s m ahead).Canon := ht.setDie.blk

theorem Tray.Canon.sendContain (ht : t.Canon) {q f s m} : (t.sendContain q f s m).Canon := by
  unfold Tray.sendContain
  extract_lets leaf kind unit x asked old numbered die put
  have hasked : asked.Canon := .iteSnd ht.takeAsk ht
  have hput : put.Canon := hasked.setDie
  split
  · exact ht.finish
  · exact hput.blk.mk

theorem Tray.Canon.judgeGrant (ht : t.Canon) {s} : (t.judgeGrant s).1.Canon := .iteFst ht.setHs ht.setHs

theorem Tray.Canon.denied (ht : t.Canon) {s m status} : (t.denied s m status).Canon := by
  dsimp only [Tray.denied]
  split
  · exact .ite ht.finish ht.finish.holdDie
  · exact .ite ht.holdDie ht

theorem Tray.Canon.granted (ht : t.Canon) {s m} : (t.granted s m).1.Canon := by
  dsimp only [Tray.granted]
  split
  · exact ht.expelDie.sendContain
  · exact .iteFst ht.expelDie.unitContain ht

theorem Tray.Canon.askGrant (ht : t.Canon) {s m k} : (t.askGrant s m k).Canon :=
  .ite (.ite ht.setDie.judgeGrant.granted ht.setDie.judgeGrant.denied) (.ite ht.setDie.setDie.blk ht.setDie.denied)

theorem Tray.Canon.answerDown (ht : t.Canon) {m} : (t.answerDown m).Canon := by
  dsimp only [Tray.answerDown]
  split
  · exact ht.blk
  · exact ht.down

theorem Tray.Canon.grantRequest (ht : t.Canon) {m} : (t.grantRequest m).Canon := by
  dsimp only [Tray.grantRequest]
  split
  · exact ht.answerDown
  · exact .ite (.ite ht.judgeGrant.answerDown ht.judgeGrant.answerDown) (.ite ht.blk ht.answerDown)

theorem Tray.Canon.grant (ht : t.Canon) {m} : (t.grant m).Canon := by
  dsimp only [Tray.grant]
  refine .ite ht.answerDown ?_
  split
  · exact ht.blk
  · split
    · exact ht.setHs.blk
    · exact .ite ht.setHs.answered.granted ht.setHs.answered.granted.blk

theorem Tray.Canon.deny (ht : t.Canon) {m} : (t.deny m).Canon := by
  dsimp only [Tray.deny]
  refine .ite ht.answerDown ?_
  split
  · exact ht
  · split
    · exact ht.setHs
    · exact .ite ht.setHs.answered.denied ht.setHs

theorem Tray.Canon.grantTimeout (ht : t.Canon) {s m} : (t.grantTimeout s m).Canon := by
  dsimp only [Tray.grantTimeout]
  split
  · exact ht
  · exact .ite ht ht.blk.answered.denied

theorem Tray.Canon.grantReturned (ht : t.Canon) {m} : (t.grantReturned m).Canon := by
  dsimp only [Tray.grantReturned]
  split
  · exact ht
  · exact .ite ht.setHs (.ite ht.blk ht)

theorem Tray.Canon.askAgain (ht : t.Canon) {s} : (t.askAgain s).Canon := ht.setHs

theorem Tray.Canon.sparesWrite (ht : t.Canon) {s w} : (t.sparesWrite s w).Canon := .ite ht.blk.setHs.askAgain.sendBudgetOpen ht.blk

theorem Tray.Canon.budgetOpen (ht : t.Canon) {m} : (t.budgetOpen m).Canon := by
  dsimp only [Tray.budgetOpen]
  split
  · exact ht
  · exact .down (.askAgain (.setHs (.ite ht.blk ht)))

theorem Tray.Canon.contain (ht : t.Canon) {q} : (t.contain q).Canon := by
  dsimp only [Tray.contain]
  split
  · exact ht.take
  · split
    · exact ht.take.finish
    · exact ht.take.finish
    · exact .ite ht.take.mk.askGrant ht.take.sendContain

theorem Tray.Canon.containAck (ht : t.Canon) {m} : (t.containAck m).Canon := by
  dsimp only [Tray.containAck]
  split
  · exact ht.finish
  · exact ht

theorem Tray.Canon.containUnacked (ht : t.Canon) {q0} : (t.containUnacked q0).Canon := by
  dsimp only [Tray.containUnacked]
  split
  · exact ht
  · exact .ite ht ht.blk.finish

theorem Tray.Canon.memberWork (ht : t.Canon) : t.memberWork.Canon := ht.foldl fun _ _ hv => .ite hv.startGo hv.contain

theorem Tray.Canon.readAlarms (ht : t.Canon) {s c} : (t.readAlarms s c).Canon := by
  dsimp only [Tray.readAlarms]
  split
  · exact ht
  · exact ht.foldl fun _ _ hv => hv.foldl fun _ _ hv1 => hv1.readLine

theorem Tray.Canon.healthNote (ht : t.Canon) {p} : (t.healthNote p).Canon := by
  dsimp only [Tray.healthNote]
  split
  · exact ht
  · split
    · exact ht
    · exact .ite ht.readAlarms.setHs ht

theorem Tray.Canon.readInputs (ht : t.Canon) {slot k} : (t.readInputs slot k).Canon := by
  dsimp only [Tray.readInputs]
  refine ht.foldl fun _ _ hv => .ite ?_ hv
  split
  · exact hv.foldl fun _ _ hv1 => hv1.readAlarms
  · exact hv

theorem Tray.Canon.levelAct (ht : t.Canon) {s m l h step entered left} : (t.levelAct s m l h step entered left).Canon := by
  dsimp only [Tray.levelAct]
  split
  · exact ht.setDie.blk
  · exact ht.setDie
  · exact ht.setDie.unitContain.blk
  · exact .blk (.ite ht.setDie ht.setDie.unitContain)
  · exact .ite ht.setDie.blk ht
  · exact ht

theorem Tray.Canon.expelTest (ht : t.Canon) {s m groups k} : (t.expelTest s m groups k).Canon :=
  .ite (.ite ht.setHs.blk ht.askGrant) (.ite (.ite ht.askGrant ht) ht)

theorem Tray.Canon.evalDie (ht : t.Canon) {a refs s m k} : (t.evalDie a refs s m k).Canon :=
  .expelTest (ht.setDie.foldlFst fun _ _ hv => .iteFst hv hv.setDie.levelAct)

theorem Tray.Canon.advise (ht : t.Canon) {s m evaluated} : (t.advise s m evaluated).Canon := ht.setDie

theorem Tray.Canon.healthHarvest (ht : t.Canon) {refs s k n done} : (t.healthHarvest refs s k n done).Canon := ht.wroteBytes.mk.setHs

theorem Tray.Canon.evaluate (ht : t.Canon) {refs s k status} : (t.evaluate refs s k status).Canon :=
  .healthHarvest (.setHs (.foldl (ht.readInputs.foldl fun _ _ hv => hv.evalDie) fun _ _ hv => hv.advise))

theorem Tray.Canon.healthWaiting (ht : t.Canon) {s p k} : (t.healthWaiting s p k).Canon := by
  dsimp only [Tray.healthWaiting]
  refine ht.foldl fun _ _ hv => .ite hv (hv.foldl fun _ _ hv1 => ?_)
  split
  · exact hv1
  · refine .ite ?_ hv1
    split
    · exact hv1.healthVals
    · exact hv1

theorem Tray.Canon.healthRun (ht : t.Canon) {was} : (t.healthRun was).Canon := by
  dsimp only [Tray.healthRun]
  refine ht.foldl fun _ _ hv => ?_
  split
  · exact hv
  · exact hv.foldl fun _ _ hv1 => hv1.healthWaiting.evaluate

theorem Tray.Canon.ctnMessage (ht : t.Canon) {link m} : (t.ctnMessage link m).Canon := by
  dsimp only [Tray.ctnMessage]
  split
  · exact ht.containAck
  · exact ht.grantRequest
  · exact ht.grant
  · exact ht.deny
  · exact .ite ht.budgetOpen ht
  · exact ht.queryAnswer
  · exact ht.grantReturned
  · exact ht.blk

/-! ### What happens at once and with time (Machine/TrayStep) -/

theorem Tray.Canon.switchSource (ht : t.Canon) {s secondary} : (t.switchSource s secondary).Canon := ht.blk.blk

theorem Tray.Canon.sourceSwitched (ht : t.Canon) {s} : (t.sourceSwitched s).Canon := .ite ht ht.blk.switchSource

theorem Tray.Canon.longStep (ht : t.Canon) {s} : (t.longStep s).Canon := .ite ht ht.blk

theorem Tray.Canon.applyNotice (ht : t.Canon) {s n} : (t.applyNotice s n).Canon :=
  .ite ht.blk.startSeries.fireStamps.quietStep.applyDeferred.blk ht.blk.startSeries.fireStamps.quietStep.applyDeferred

theorem Tray.Canon.notice (ht : t.Canon) {link n} : (t.notice link n).Canon := by
  unfold Tray.notice
  split
  · exact ht
  · extract_lets c src old newBase ahead heard
    have hheard : heard.Canon := .ite ht.blk ht
    exact .ite hheard (.ite (.ite hheard.switchSource.applyNotice hheard) (.ite hheard (.ite hheard.applyNotice hheard.blk)))

theorem Tray.Canon.ptpSend (ht : t.Canon) {p dst src ptp} : (t.ptpSend p dst src ptp).Canon := ht.foldl fun _ _ hv => hv.blk

theorem Tray.Canon.timeFrame (ht : t.Canon) {p dst src ptp} : (t.timeFrame p dst src ptp).Canon := by
  dsimp only [Tray.timeFrame]
  split
  · exact ht.mk
  · exact ht.blk
  · exact ht.ptpSend
  · exact ht.ptpSend

/-! ### Links (Machine/TrayLink) -/

theorem Tray.Canon.freeAll (ht : t.Canon) : t.freeAll.Canon := ht.foldl fun _ _ hv => hv.freeCheck

theorem Tray.Canon.afterPort (ht : t.Canon) : t.afterPort.Canon := ht.relayGone.msendCheck.freeAll.teardownCheck

theorem Tray.Canon.setAdopt (ht : t.Canon) {on rs} : (t.setAdopt on rs).Canon := .foldl (ht.foldl fun _ _ hv => hv.ringCfg) fun _ _ hv => hv.blk

theorem Tray.Canon.moveLink (ht : t.Canon) {a b} : (t.moveLink a b).Canon := ht.mk

theorem Tray.Canon.linkLost (ht : t.Canon) {link} : (t.linkLost link).Canon :=
  .ite (.ite ht.blk.blk.setAdopt ht.blk.blk) (.ite ht.blk.relayZero.moveLink.blk ht.blk.relayZero)

theorem Tray.Canon.lnkCtl (ht : t.Canon) {w} : (t.lnkCtl w).Canon := .blk (.ite ht ht.moveLink)

theorem Tray.Canon.packetSent (ht : t.Canon) {p} : (t.packetSent p).Canon := .afterPort (ht.blk.foldl fun _ _ hv => hv.linkLost)

theorem Tray.Canon.linkAck (ht : t.Canon) {link lseq} : (t.linkAck link lseq).Canon := ht.blk.afterPort

theorem Tray.Canon.ackTimeout (ht : t.Canon) {link} : (t.ackTimeout link).Canon := .ite ht.mk.linkLost ht.mk

theorem Tray.Canon.enterC (ht : t.Canon) : t.enterC.Canon := ht.blk.blk

theorem Tray.Canon.stageCheck (ht : t.Canon) : t.stageCheck.Canon := .ite ht.enterC ht

theorem Tray.Canon.helloRefuse (ht : t.Canon) {p link reason detail} : (t.helloRefuse p link reason detail).Canon := ht.blk

theorem Tray.Canon.childFresh (ht : t.Canon) {kind bound} : (t.childFresh kind bound).Canon := .mk (ht.foldl fun _ _ hv => hv.setRing)

theorem Tray.Canon.queryLeaf (ht : t.Canon) {leaf} : (t.queryLeaf leaf).Canon := by
  dsimp only [Tray.queryLeaf]
  refine ht.foldl fun _ _ hv => ?_
  split
  · exact .ite hv.setDie.queryDie hv
  · exact hv

theorem Tray.Canon.sendAccept (ht : t.Canon) {link epoch node adopted} : (t.sendAccept link epoch node adopted).Canon := ht.blk

theorem Tray.Canon.resendOutcomes (ht : t.Canon) {link} : (t.resendOutcomes link).Canon := by
  dsimp only [Tray.resendOutcomes]
  refine ht.txReplay.foldl fun _ _ hv => .ite (.sendTx ?_) hv
  split
  · exact hv.sendParts
  · exact hv

theorem Tray.Canon.strayEntry (ht : t.Canon) {p link} : (t.strayEntry p link).1.Canon := .iteFst ht ht.blk

theorem Tray.Canon.adopt (ht : t.Canon) {link} : (t.adopt link).Canon :=
  .ite ht.setAdopt (.foldl (.adoptLeaf (ht.setAdopt.foldl fun _ _ hv => hv.setRing)) fun _ _ hv => .ite hv hv.setRing.sendCredit)

theorem Tray.Canon.helloAdmit (ht : t.Canon) {p link adopted} : (t.helloAdmit p link adopted).Canon := by
  unfold Tray.helloAdmit
  extract_lets r entered l s returning counted unverified based accepted fresh adopting answered
  have hunverified : unverified.Canon := ht.strayEntry.blk.ifThen (·.blk)
  have hadopting : adopting.Canon := hunverified.blk.sendAccept.childFresh.ifThen (·.adopt)
  exact .stageCheck (.blk (.ite hadopting.queryLeaf hadopting.resendOutcomes))

theorem Tray.Canon.hello (ht : t.Canon) {p} : (t.hello p).Canon := by
  dsimp only [Tray.hello]
  split
  · exact ht
  · exact ht.blk
  · split
    · exact ht.helloRefuse
    · exact .ite ht.helloRefuse (.ite ht.helloRefuse (.ite ht.helloRefuse ht.helloAdmit))

theorem Tray.Canon.tokenRefill (ht : t.Canon) {perMs} : (t.tokenRefill perMs).Canon := ht.blk

theorem Tray.Canon.setDump (ht : t.Canon) {d} : (t.setDump d).Canon := ht.mk

theorem Tray.Canon.dumpEnd (ht : t.Canon) {d} : (t.dumpEnd d).Canon := ht.setDump.blk

theorem Tray.Canon.dumpSupersede (ht : t.Canon) {leaf id} : (t.dumpSupersede leaf id).Canon := by
  dsimp only [Tray.dumpSupersede]
  split
  · exact ht
  · exact .ite ht (.ite ht.mk ht.dumpEnd)

theorem Tray.Canon.dumpSegment (ht : t.Canon) {link leaf b} : (t.dumpSegment link leaf b).Canon :=
  .ite ht.dumpSupersede (.ite ht.dumpSupersede.setDump.blk (.ite ht.dumpSupersede.lpWrite.setDump.dumpEnd ht.dumpSupersede.lpWrite.setDump))

/-! ### Resets (Machine/TrayReset) -/

/-- A cold reset empties the memories. -/
theorem Tray.Canon.coldReset {source} : (t.coldReset source).Canon := Tray.Canon.reset.mk.markNew

/-- A warm reset empties the slices and the brine store and leaves LPDDR5X. -/
theorem Tray.Canon.warmReset (ht : t.Canon) {source} : (t.warmReset source).Canon := by
  unfold Tray.warmReset
  extract_lets drained marked
  have hmarked : marked.Canon := ht.accrueAll.drain.foldl fun _ _ hv => hv.markWarm
  exact hmarked.of_lp rfl rfl rfl

theorem Tray.Canon.rstWrite (ht : t.Canon) {w} : (t.rstWrite w).Canon := by
  dsimp only [Tray.rstWrite]
  split
  · exact .coldReset
  · exact ht.warmReset
  · exact ht

theorem Tray.Canon.selfTest (ht : t.Canon) {fails chans} : (t.selfTest fails chans).Canon := by
  dsimp only [Tray.selfTest]
  exact .foldl (.foldl (ht.of_memories rfl rfl rfl) fun _ _ hv => hv.blk) fun _ _ hv => hv.blk

theorem Tray.Canon.ladderStep (ht : t.Canon) {flashOk crcOk fails chans} : (t.ladderStep flashOk crcOk fails chans).Canon := by
  dsimp only [Tray.ladderStep]
  refine .ite ht ?_
  split
  · exact ht.blk
  · exact ht.selfTest.blk
  · exact ht.blk.blk.blk.blk.restoreModels
  · exact ht.blk.blk.blk.blk.stageCheck
  · exact .ite ht.blk.blk.enterC ht.blk
  · exact ht

theorem Tray.Canon.ladderOverran (ht : t.Canon) : t.ladderOverran.Canon := by
  dsimp only [Tray.ladderOverran]
  split
  · exact ht
  · exact .ite ht ht.blk

theorem Tray.Canon.supply (ht : t.Canon) {code rail took} : (t.supply code rail took).Canon :=
  .ite ht.blk (.ite .coldReset ht.blk.holdIssue)

theorem Tray.Canon.thermJudge (ht : t.Canon) : t.thermJudge.Canon := .ite (.ite ht ht.blk.holdIssue.blk) (.ite ht.blk ht)

theorem Tray.Canon.junction (ht : t.Canon) {tj sensor} : (t.junction tj sensor).Canon :=
  .ite ht.blk (.ite (.blk .coldReset) ht.blk.thermJudge)

theorem Tray.Canon.release (ht : t.Canon) {taHash taValid} : (t.release taHash taValid).Canon := .ite ht ht.blk.supply.thermJudge

theorem Tray.Canon.portReset (ht : t.Canon) {p} : (t.portReset p).Canon :=
  ht.relayZero.blk.foldl fun _ _ hv => .blk (hv.foldl fun _ _ hv1 => hv1.incomplete)

theorem Tray.Canon.etherDown (ht : t.Canon) {p} : (t.etherDown p).Canon := .ite ht (.portReset (.blk (.ite ht.blk ht)))

theorem Tray.Canon.etherUp (ht : t.Canon) {p ty} : (t.etherUp p ty).Canon := .ite ht.blk ht

theorem Tray.Canon.pciReset (ht : t.Canon) : t.pciReset.Canon := ht.relayZero.blk

theorem Tray.Canon.busMaster (ht : t.Canon) : t.busMaster.Canon := .censusBus (ht.blk.blk.foldl fun _ _ hv => hv.evServe)

/-! ### Received packets (Machine/TrayRecv) -/

theorem Tray.Canon.relayDown (ht : t.Canon) {leaf code rest} : (t.relayDown leaf code rest).Canon := by
  dsimp only [Tray.relayDown]
  split
  · exact ht.blk
  · exact ht.down

theorem Tray.Canon.control (ht : t.Canon) {link p} : (t.control link p).Canon := by
  dsimp only [Tray.control]
  split
  · exact ht.linkAck
  · exact .ite ht.noticeRelay ht.blk
  · exact .ite ht.relayDown ht.ctnMessage
  · exact .ite ht.relayDown ht.startMessage
  · exact ht.refReceive
  · split
    · exact ht.hello
    · exact .ite ht.blk ht
    · exact .ite ht.blk ht
    · exact .ite ht.blk ht
    · exact ht
    · exact ht
    · exact ht
    · exact ht.blk
  · exact ht.txMessage
  · exact ht.blk

theorem Tray.Canon.controlReceive (ht : t.Canon) {link p} : (t.controlReceive link p).Canon :=
  .ite ht.blk (.ite ht.blk.control (.ite ht.mk.blk.control ht.mk))

theorem Tray.Canon.helloPacket (ht : t.Canon) {p} : (t.helloPacket p).Canon := by
  dsimp only [Tray.helloPacket]
  split
  · exact ht
  · exact ht.hello
  · split
    · exact .ite ht.blk.hello ht
    · exact .ite ht.blk.blk.hello (.ite ht.blk ht)

theorem Tray.Canon.segment (ht : t.Canon) {leaf b} : (t.segment leaf b).Canon := by
  dsimp only [Tray.segment]
  refine .ite (.fprFrame ?_) ht.brineSegment
  split
  · exact ht.incomplete
  · exact ht

theorem Tray.Canon.deliver (ht : t.Canon) {link p} : (t.deliver link p).Canon := by
  dsimp only [Tray.deliver]
  split
  · exact ht.segment
  · exact ht.blk
  · exact ht.dumpSegment
  · exact .ite ht.harvestSegment ht
  · exact ht.bulk
  · exact ht.notice
  · exact ht

theorem Tray.Canon.saggar (ht : t.Canon) {link p} : (t.saggar link p).Canon :=
  .ite ht.blk (.ite ht.blk (.ite ht.mk (.ite ht.mk.blk (.ite ht.mk.blk (.ite ht.mk.controlReceive (.ite ht.mk.mk.blk.deliver ht.mk.mk))))))

theorem Tray.Canon.receive (ht : t.Canon) {p} : (t.receive p).Canon := by
  unfold Tray.receive
  extract_lets n inj fired coded ok
  have hcoded : coded.Canon := .blk (.ite ht.blk ht)
  have hok : ok.Canon := hcoded.blk
  refine .ite ht (.ite hcoded (.ite hcoded.blk (.ite hcoded.blk (.ite hcoded.blk (.ite (.ite hok hok.timeFrame)
    (.ite (.ite hok.blk (.ite hok.blk (.ite hok.blk hok.helloPacket))) ?_))))))
  split
  · exact hok.saggar
  · exact hok.blk

/-! ### Registers read (Machine/TrayRead) -/

theorem Tray.Canon.readStep (ht : t.Canon) {k} : (t.readStep k).1.Canon :=
  .iteFst ht (.iteFst ht (.iteFst ht.blk (.iteFst ht (.iteFst ht (.iteFst ht (.iteFst ht (.iteFst ht (.iteFst ht (.iteFst ht (.iteFst ht (.iteFst ht
      (.iteFst ht (.iteFst ht (.iteFst ht (.iteFst ht ht)))))))))))))))

theorem Tray.Canon.readLnk (ht : t.Canon) {k} : (t.readLnk k).1.Canon := .iteFst ht (.iteFst ht (.iteFst ht (.iteFst ht (.iteFst ht ht.mk))))

theorem Tray.Canon.readPwr (ht : t.Canon) {k} : (t.readPwr k).1.Canon := .iteFst ht (.iteFst ht (.iteFst ht (.iteFst ht ht.mk)))

theorem Tray.Canon.readHevt (ht : t.Canon) {k} : (t.readHevt k).1.Canon :=
  .iteFst ht (.iteFst ht (.iteFst ht (.iteFst ht (.iteFst ht (.iteFst ht.mk (.iteFst ht ht))))))

theorem Tray.Canon.readNoc (ht : t.Canon) {k} : (t.readNoc k).1.Canon :=
  .iteFst ht.accrue.mk (.iteFst ht.mk (.iteFst ht (.iteFst ht.accrueCredit.mk ht)))

theorem Tray.Canon.readMdl (ht : t.Canon) {k} : (t.readMdl k).1.Canon :=
  .iteFst ht (.iteFst ht (.iteFst ht (.iteFst ht.mk (.iteFst ht.mk (.iteFst ht (.iteFst ht (.iteFst ht (.iteFst ht.accrueAll.mk ht))))))))

theorem Tray.Canon.readSco (ht : t.Canon) {k} : (t.readSco k).1.Canon := .iteFst ht (.iteFst ht.mk (.iteFst ht.accrueAll.mk ht))

theorem Tray.Canon.readHrv (ht : t.Canon) {k} : (t.readHrv k).1.Canon := .iteFst ht (.iteFst ht.mk (.iteFst ht (.iteFst ht ht)))

theorem Tray.Canon.readPci (ht : t.Canon) {k} : (t.readPci k).1.Canon := .iteFst ht.blk ht

theorem Tray.Canon.readPage (ht : t.Canon) {n k} : (t.readPage n k).1.Canon :=
  .iteFst ht.readStep (.iteFst (.iteFst ht.mk (.iteFst ht.mk (.iteFst ht ht))) (.iteFst ht.readLnk (.iteFst ht.readPwr (.iteFst ht.readHevt (.iteFst ht
      (.iteFst ht (.iteFst ht.readNoc (.iteFst ht (.iteFst ht.readMdl (.iteFst ht.readSco (.iteFst ht.readHrv (.iteFst ht (.iteFst ht.readPci (.iteFst ht
          (.iteFst ht (.iteFst ht (.iteFst ht ht.mk)))))))))))))))))

theorem Tray.Canon.read4 (ht : t.Canon) {a} : (t.read4 a).1.Canon := by
  dsimp only [Tray.read4]
  refine .iteFst ?_ (.iteFst ht (.iteFst ht ht))
  split
  · exact ht
  · exact .iteFst ht ht.readPage

theorem Tray.Canon.badAccess (ht : t.Canon) : t.badAccess.Canon := ht.blk

theorem Tray.Canon.readAt (ht : t.Canon) {a n} : (t.readAt a n).1.Canon := .iteFst ht.read4.read4 ht.read4

theorem Tray.Canon.readOut (ht : t.Canon) {a n same} : (t.readOut a n same).Canon := .ite ht.badAccess.blk (.ite ht.readAt.blk ht.readAt.blk)

/-! ### Registers written (Machine/TrayPort) -/

theorem Tray.Canon.plainInst (ht : t.Canon) {k n w} : (t.plainInst k n w).Canon := ht.blk

theorem Tray.Canon.plain (ht : t.Canon) {k w} : (t.plain k w).Canon := ht.blk

theorem Tray.Canon.writeStep (ht : t.Canon) {k w} : (t.writeStep k w).Canon := .ite ht.plain (.ite ht.blk ht)

theorem Tray.Canon.treeWrite (ht : t.Canon) {f} : (t.treeWrite f).Canon := .ite ht ht.blk.stageCheck

theorem Tray.Canon.writeLnk (ht : t.Canon) {k w} : (t.writeLnk k w).Canon :=
  .ite ht.lnkCtl (.ite ht.treeWrite (.ite ht.treeWrite (.ite ht.treeWrite (.ite ht.treeWrite (.ite ht ht.blk)))))

theorem Tray.Canon.report (ht : t.Canon) : t.report.Canon := ht.lpWrite.blk

theorem Tray.Canon.cfgRead (ht : t.Canon) : t.cfgRead.Canon := .ite ht ht.readBytes

theorem Tray.Canon.cfgApply (ht : t.Canon) {v flashOk} : (t.cfgApply v flashOk).Canon := ht.cfgRead.blk

theorem Tray.Canon.installCerts (ht : t.Canon) {verdict flashOk} : (t.installCerts verdict flashOk).Canon := ht.cfgRead.blk

theorem Tray.Canon.idnCmd (ht : t.Canon) {w e} : (t.idnCmd w e).Canon :=
  .ifThen (.ifThen (.ifThen (ht.ifThen (·.blk)) (·.cfgApply)) (·.report)) (·.installCerts)

theorem Tray.Canon.levels (ht : t.Canon) {w} : (t.levels w).Canon := ht.blk.supply

theorem Tray.Canon.evRefuse (ht : t.Canon) : t.evRefuse.Canon := ht.blk

theorem Tray.Canon.evCiWrite (ht : t.Canon) {j v} : (t.evCiWrite j v).Canon := .ite ht.evRefuse ht.setEvq.evServe

theorem Tray.Canon.evWbWrite (ht : t.Canon) {f} : (t.evWbWrite f).Canon := ht.setEvq

theorem Tray.Canon.evAddrWrite (ht : t.Canon) {f} : (t.evAddrWrite f).Canon := .ite ht.evRefuse ht.setEvq

theorem Tray.Canon.writeHevt (ht : t.Canon) {k w} : (t.writeHevt k w).Canon :=
  .ite ht.evAddrWrite (.ite ht.evAddrWrite (.ite ht.evWbWrite (.ite ht.evWbWrite (.ite ht.markNew.plain (.ite ht.evCiWrite ht.plain)))))

theorem Tray.Canon.evRise (ht : t.Canon) {j} : (t.evRise j).Canon := ht.setEvq.markNew.evServe

theorem Tray.Canon.evCfg (ht : t.Canon) {j w} : (t.evCfg j w).Canon :=
  .evIrq (.ite (.evRise (.blk (.ite ht.evRefuse ht))) (.blk (.ite ht.evRefuse ht)))

theorem Tray.Canon.writeQmg (ht : t.Canon) {n k w} : (t.writeQmg n k w).Canon :=
  .ite (.ite ht (.ite (.queueFlush (.ite ht.queueResume ht)) (.ite ht.queueResume ht))) (.ite ht (.ite (.ite ht.markNew.queueCfg
      (.ite ht.evCfg ht.ringCfg)) (.ite ht.ringBind ht)))

theorem Tray.Canon.cctlWrite (ht : t.Canon) {c w pass} : (t.cctlWrite c w pass).Canon := .ite ht.plain.classReset ht.plain

theorem Tray.Canon.writeEng (ht : t.Canon) {k w e} : (t.writeEng k w e).Canon := .ite ht.cctlWrite ht.plain

theorem Tray.Canon.hrvRefused (ht : t.Canon) : t.hrvRefused.Canon := ht.blk

theorem Tray.Canon.writeHrv (ht : t.Canon) {k w} : (t.writeHrv k w).Canon :=
  .ite ht.plain (.ite (.ite ht.hrvRefused ht.plainInst) (.ite (.ite ht.hrvRefused ht.markNew.plainInst) (.ite ht.rciWrite ht)))

theorem Tray.Canon.writeMem (ht : t.Canon) {k w} : (t.writeMem k w).Canon := .ite ht.layoutWrite ht.plain

theorem Tray.Canon.writeJob (ht : t.Canon) {k w} : (t.writeJob k w).Canon := .ite ht ht.plain

theorem Tray.Canon.writeHlt (ht : t.Canon) {k w} : (t.writeHlt k w).Canon :=
  .ite ht.plain (.ite ht.scfgWrite (.ite ht.sparesWrite (.ite ht (.ite ht.blk (.ite ht.blk (.ite ht.setHs (.ite ht.setHs ht.plainInst)))))))

theorem Tray.Canon.writePage (ht : t.Canon) {n k w e} : (t.writePage n k w e).Canon := by
  dsimp only [Tray.writePage]
  refine .ite ht.writeStep (.ite ht.rstWrite (.ite ht.idnCmd (.ite ht.levels (.ite ht.plain.thermJudge (.ite ht.writeLnk (.ite ht.writeHevt
      (.ite ht.writeEng (.ite ht.plainInst (.ite ht.writeHrv (.ite ht.writeMem (.ite ht.writeHlt (.ite ht.writeJob (.ite ht.plainInst (.ite ht.writeQmg
          (.ite ?_ ht.blk)))))))))))))))
  split
  · exact ht.setTb0
  · exact ht

theorem Tray.Canon.injectNow (ht : t.Canon) {p bits} : (t.injectNow p bits).Canon := .ite (.ite ht.injectMem ht.injectMem) ht

theorem Tray.Canon.writeHead (ht : t.Canon) {p n off w} : (t.writeHead p n off w).Canon := ht.mk.injectNow

theorem Tray.Canon.msixWrite (ht : t.Canon) {i w} : (t.msixWrite i w).Canon := .ite ht.blk ht.blk

theorem Tray.Canon.pageWritten (ht : t.Canon) {p n} : (t.pageWritten p n).Canon := ht.blk

theorem Tray.Canon.write4 (ht : t.Canon) {a w e} : (t.write4 a w e).Canon := by
  dsimp only [Tray.write4]
  refine .ite ?_ (.ite ht.msixWrite ht)
  split
  · exact ht
  · exact .ite ht.writeHead ht.pageWritten.writePage

theorem Tray.Canon.aperture (ht : t.Canon) {q off l} : (t.aperture q off l).Canon := .ite ht (.ite ht.badAccess (.ite ht.append ht.stageBytes))

theorem Tray.Canon.pciUncorrectable (ht : t.Canon) {bits} : (t.pciUncorrectable bits).Canon := ht.blk

theorem Tray.Canon.poisonedTlp (ht : t.Canon) : t.poisonedTlp.Canon := ht.blk.pciUncorrectable

theorem Tray.Canon.writeAt (ht : t.Canon) {a n data e} : (t.writeAt a n data e).Canon :=
  .ite ht.blk.poisonedTlp (.ite ht.aperture (.ite ht.badAccess (.ite ht.write4.write4 ht.write4)))

theorem Tray.Canon.write (ht : t.Canon) {a n data e} : (t.write a n data e).Canon := .ite ht.writeAt.blk ht.writeAt

theorem Tray.Canon.settle (ht : t.Canon) {was} : (t.settle was).Canon := ht.memberWork.healthRun.liveCheck.afterPort.unloadAll.coreWork.markUsed

/-! ### Operands (Machine/Operands) -/

theorem Tray.Canon.angOut (ht : t.Canon) {s} : (t.angOut s).Canon := ht.blk

theorem Tray.Canon.headAt (ht : t.Canon) {page off w} : (t.headAt page off w).Canon := by
  dsimp only [Tray.headAt]
  split
  · exact ht.badAccess
  · exact ht.writeHead

theorem Tray.Canon.posted (ht : t.Canon) {f} (hf : ∀ v : Tray, v.Canon → (f v).Canon) : (t.posted f).Canon := .ite ht.blk.poisonedTlp (hf t ht)

theorem Tray.Canon.unmask (ht : t.Canon) {v} : (t.unmask v).Canon := ht.blk

theorem Tray.Canon.linkResetOf (ht : t.Canon) {pci p} : (t.linkResetOf pci p).Canon := .ite ht.pciReset ht.portReset.blk

theorem Tray.Canon.offsetStep (ht : t.Canon) : t.offsetStep.Canon := ht.setTb0

theorem Tray.Canon.loadTb0 (ht : t.Canon) : t.loadTb0.Canon := ht.setTb0

theorem Tray.Canon.stageEvent (ht : t.Canon) : t.stageEvent.Canon := ht.stageOne.foldl fun _ _ hv => hv.evServe

theorem Tray.Canon.evTimer (ht : t.Canon) {j} : (t.evTimer j).Canon := .ite ht.blk.evSignal ht

theorem Tray.Canon.harvestPublish (ht : t.Canon) {p} : (t.harvestPublish p).Canon := by
  dsimp only [Tray.harvestPublish]
  refine .ite ht.publish ?_
  split
  · exact ht.healthNote.publish
  · exact ht.healthNote.publish.refSend

/-! ### Posted writes (Machine/Lift) -/

theorem Tray.Canon.tick (ht : t.Canon) : t.tick.Canon := by
  dsimp only [Tray.tick]
  split
  · exact ht
  · exact ht.blk
  · exact ht.blk

end Canonical

/-! ### The commands -/

/-- An outcome has the memories of the tier in canonical form where the state it comes from has. -/
def KeepsCanon (s : State) (x : Host.Outcome State Fault Refusal) : Prop := s.tray.Canon → ∀ s' : State, x = .next s' → s'.tray.Canon

theorem keepsCanon_next {s s' : State} (h : s.tray.Canon → s'.tray.Canon) : KeepsCanon s (.next s') := by
  rintro hs _ ⟨⟩
  exact h hs

section Lifts

variable {s : State} {b : Build} {f f' : Leaf → Leaf} {g : Tray → Tray}

theorem onLeaf_keepsCanon : KeepsCanon s (onLeaf f s) := keepsCanon_next fun hs => by split <;> exact hs

theorem onInput_keepsCanon : KeepsCanon s (onInput f' f s) := keepsCanon_next fun hs => by split <;> exact hs

theorem onRing_keepsCanon : KeepsCanon s (onRing f s) := keepsCanon_next fun hs => by split <;> exact hs

theorem onTray_keepsCanon (hg : ∀ t : Tray, t.Canon → (g t).Canon) : KeepsCanon s (onTray g s) :=
  keepsCanon_next fun hs => by
    split
    · exact hs
    · exact (hg _ hs).settle

theorem onEither_keepsCanon (hg : ∀ t : Tray, t.Canon → (g t).Canon) : KeepsCanon s (onEither b f g s) := by
  cases b
  · exact onLeaf_keepsCanon
  · exact onTray_keepsCanon hg

theorem onBar_keepsCanon (hg : ∀ t : Tray, t.Canon → (g t).Canon) : KeepsCanon s (onBar g s) := by
  unfold onBar
  split
  · exact onTray_keepsCanon hg
  · exact keepsCanon_next id

theorem onHost_keepsCanon (hg : ∀ t : Tray, t.Canon → (g t).Canon) : KeepsCanon s (onHost b f g s) := by
  cases b
  · exact onLeaf_keepsCanon
  · exact onBar_keepsCanon hg

theorem onPowered_keepsCanon (hg : ∀ t : Tray, t.Canon → (g t).Canon) : KeepsCanon s (onPowered b f g s) := by
  cases b
  · exact keepsCanon_next fun hs => by split <;> exact hs
  · refine keepsCanon_next fun hs => ?_
    split
    · exact hs
    · split
      · exact hg _ hs
      · exact (hg _ hs).settle

theorem onSupply_keepsCanon (hg : ∀ t : Tray, t.Canon → (g t).Canon) : KeepsCanon s (onSupply b f g s) := by
  cases b
  · exact keepsCanon_next id
  · refine keepsCanon_next fun hs => ?_
    split
    · exact hg _ hs
    · exact (hg _ hs).settle

theorem onReset_keepsCanon (hg : ∀ t : Tray, t.Canon → (g t).Canon) : KeepsCanon s (onReset b f g s) := by
  cases b
  · exact keepsCanon_next fun hs => by split <;> exact hs
  · refine keepsCanon_next fun hs => ?_
    split
    · exact hs
    · exact hg _ hs

theorem onRelease_keepsCanon (hg : ∀ t : Tray, t.Canon → (g t).Canon) : KeepsCanon s (onRelease b f g s) := by
  cases b
  · exact keepsCanon_next id
  · exact keepsCanon_next (hg _)

end Lifts

theorem exec_keepsCanon (c : Instr) (s : State) : KeepsCanon s (exec c s) := by
  unfold exec
  cases c with
  | registerWrite => exact onHost_keepsCanon fun _ ht => ht.write
  | rcRead => exact onHost_keepsCanon fun _ ht => ht.readOut
  | incFracWrite | incNsWrite | tb0NslRead | historyEnable | historyFormat | historyRead | coneEnable | coneRestart | mailboxSend | gateSwap
    | tsqE3Read | park | unpark | debugModeWrite | errorInterruptEnable | enroll | measurementExtend => exact onHost_keepsCanon fun _ ht => ht.blk
  | offsetStep => exact onHost_keepsCanon fun _ ht => ht.offsetStep
  | load => exact onHost_keepsCanon fun _ ht => ht.loadTb0
  | holdover | timedAction | eventReport | recordWindowEnd | flashProgramDone | flashEraseDone | historyScanDone | historyReadDone | conePoll
    | identityReadDone | coneCheckpoint | restartResend | gateEntryChange | launchTime | queueSample | helloRetry | accept | helloRefuse | keepalive
    | correctedErrorSecond | attestationRequest => exact onEither_keepsCanon fun _ ht => ht.blk
  | longStep => exact onEither_keepsCanon fun _ ht => ht.longStep
  | angRead => exact onHost_keepsCanon fun _ ht => ht.angOut
  | ppsIn | ppsOutRise | ppsOutFall => exact onTray_keepsCanon fun _ ht => ht.blk
  | stepMarkNotice => exact onTray_keepsCanon fun _ ht => ht.notice
  | stepSourceSwitched => exact onTray_keepsCanon fun _ ht => ht.sourceSwitched
  | timeFrameReceive => exact onEither_keepsCanon fun _ ht => ht.timeFrame
  | ptpForward => exact onTray_keepsCanon fun _ ht => ht.timeFrame
  | ringSlotArrival | stopIncrement | stopBypass | heldSlotRead => exact onRing_keepsCanon
  | creditReturn => exact onTray_keepsCanon fun _ ht => ht.creditReturn
  | traceLpEntry | traceLpExit | heartbeat | resetDone | containmentHostAck => exact onInput_keepsCanon
  | operatingMinute | operatingSecond | supplyWarningLong => exact onPowered_keepsCanon fun _ ht => ht.blk
  | dumpSegmentReceive => exact onTray_keepsCanon fun _ ht => ht.dumpSegment
  | receivePacket => exact onEither_keepsCanon fun _ ht => ht.receive
  | controlReceive => exact onEither_keepsCanon fun _ ht => ht.controlReceive
  | linkAcknowledgement => exact onEither_keepsCanon fun _ ht => ht.linkAck
  | ackTimeout => exact onEither_keepsCanon fun _ ht => ht.ackTimeout
  | packetSent => exact onEither_keepsCanon fun _ ht => ht.packetSent
  | segmentReceive => exact onTray_keepsCanon fun _ ht => ht.segment
  | reassemblyTimeout => exact onTray_keepsCanon fun _ ht => ht.asmTimeout
  | ethernetLinkDown => exact onTray_keepsCanon fun _ ht => ht.etherDown
  | ethernetLinkUp => exact onTray_keepsCanon fun _ ht => ht.etherUp
  | distributeFrame => exact onTray_keepsCanon fun _ ht => ht.distribute
  | projectionArrival => exact onTray_keepsCanon fun _ ht => ht.arrive
  | workUnitEnd => exact onTray_keepsCanon fun _ ht => ht.unitEnd
  | forcedRefresh | attestationReport => exact onTray_keepsCanon fun _ ht => ht
  | patrolScrub => exact onSupply_keepsCanon fun _ ht => ht.scrub
  | currentInterval => exact onTray_keepsCanon fun _ ht => ht.currentInterval
  | ingestRingEnable => exact onBar_keepsCanon fun _ ht => ht.ringCfg
  | apertureStageWrite | commandAppend => exact onBar_keepsCanon fun _ ht => ht.posted fun _ hv => hv.aperture
  | commandDispatch => exact onTray_keepsCanon fun _ ht => ht.dispatch
  | nop | mark | mload | munload | mbind | munbind | pdefine | pfree | cutclose | sattach | sdetach | sepoch
    => exact onTray_keepsCanon fun _ ht => ht.runTable
  | waitq => exact onTray_keepsCanon fun _ ht => ht.waitq
  | waitat => exact onTray_keepsCanon fun _ ht => ht.waitat
  | waitSatisfied => exact onTray_keepsCanon fun _ ht => ht.waitMet
  | waitqTimeout => exact onTray_keepsCanon fun _ ht => ht.waitqTimeout
  | txclose => exact onTray_keepsCanon fun _ ht => ht.txclose
  | txabort => exact onTray_keepsCanon fun _ ht => ht.txabort
  | pfreeRelease => exact onTray_keepsCanon fun _ ht => ht.freeCheck
  | copy => exact onTray_keepsCanon fun _ ht => ht.copyGo
  | zcomp | zdecomp => exact onTray_keepsCanon fun _ ht => ht.zipGo
  | msend => exact onTray_keepsCanon fun _ ht => ht.msend
  | start => exact onTray_keepsCanon fun _ ht => ht.startGo
  | contain => exact onTray_keepsCanon fun _ ht => ht.contain
  | queueResume => exact onBar_keepsCanon fun _ ht => ht.queueResume
  | queueFlush => exact onBar_keepsCanon fun _ ht => ht.queueFlush
  | thiefIdle => exact onTray_keepsCanon fun _ ht => ht.thiefIdle
  | stealRequest => exact onTray_keepsCanon fun _ ht => ht.stealRequest
  | stealRefused => exact onTray_keepsCanon fun _ ht => ht.stealRefused
  | stealBackoffExpiry => exact onTray_keepsCanon fun _ ht => ht.backoffExpiry
  | stealTransferDone => exact onTray_keepsCanon fun _ ht => ht.transferDone
  | classUnitReset => exact onBar_keepsCanon fun _ ht => ht.classReset
  | commitPoint => exact onTray_keepsCanon fun _ ht => ht.commitPoint
  | txPrepare => exact onTray_keepsCanon fun _ ht => ht.txPrepare
  | voteTime => exact onTray_keepsCanon fun _ ht => ht.voteTime
  | txVote => exact onTray_keepsCanon fun _ ht => ht.txVote
  | txDecision => exact onTray_keepsCanon fun _ ht => ht.txDecision
  | txDecisionCopy => exact onTray_keepsCanon fun _ ht => ht.txCopy
  | txDecisionCopyAck => exact onTray_keepsCanon fun _ ht => ht.txCopyAck
  | txCommit => exact onTray_keepsCanon fun _ ht => ht.txCommit
  | txAbort => exact onTray_keepsCanon fun _ ht => ht.txAbort
  | txCommitAck => exact onTray_keepsCanon fun _ ht => ht.txCommitAck
  | transactionInDoubt => exact onTray_keepsCanon fun _ ht => ht.txDoubt
  | txOutcomeQuery => exact onTray_keepsCanon fun _ ht => ht.txQuery
  | cutAngleDeadline => exact onTray_keepsCanon fun _ ht => ht.angleDeadline
  | cutTimeDeadline => exact onTray_keepsCanon fun _ ht => ht.timeDeadline
  | harvestPublish => exact onTray_keepsCanon fun _ ht => ht.harvestPublish
  | harvestRingWrite => exact onTray_keepsCanon fun _ ht => ht.ringWrite
  | harvestRelay => exact onTray_keepsCanon fun _ ht => ht.relayNext
  | harvestSegmentReceive => exact onTray_keepsCanon fun _ ht => ht.harvestSegment
  | partialReceive => exact onTray_keepsCanon fun _ ht => ht.partialReceive
  | scoreSend => exact onTray_keepsCanon fun _ ht => ht.scoreSend
  | scoreExpired => exact onTray_keepsCanon fun _ ht => ht.scoreExpired
  | batchReady => exact onTray_keepsCanon fun _ ht => ht.batchReady
  | shortBatch => exact onTray_keepsCanon fun _ ht => ht.shortBatch
  | streamLoadDone => exact onTray_keepsCanon fun _ ht => ht.streamLoaded
  | streamBatchDone => exact onTray_keepsCanon fun _ ht => ht.streamDone
  | healthEnable => exact onBar_keepsCanon fun _ ht => ht.scfgWrite
  | referenceMessage => exact onTray_keepsCanon fun _ ht => ht.refReceive
  | containmentAcknowledgement => exact onTray_keepsCanon fun _ ht => ht.containAck
  | containmentUnacknowledged => exact onTray_keepsCanon fun _ ht => ht.containUnacked
  | stateQueryAnswer => exact onTray_keepsCanon fun _ ht => ht.queryAnswer
  | grantRequest => exact onTray_keepsCanon fun _ ht => ht.grantRequest
  | grant => exact onTray_keepsCanon fun _ ht => ht.grant
  | deny => exact onTray_keepsCanon fun _ ht => ht.deny
  | grantTimeout => exact onTray_keepsCanon fun _ ht => ht.grantTimeout
  | grantReturned => exact onTray_keepsCanon fun _ ht => ht.grantReturned
  | sparesWrite => exact onBar_keepsCanon fun _ ht => ht.sparesWrite
  | budgetOpen => exact onTray_keepsCanon fun _ ht => ht.budgetOpen
  | eventRecordStage => exact onTray_keepsCanon fun _ ht => ht.stageEvent
  | ciWrite => exact onHost_keepsCanon fun _ ht => ht.evCiWrite
  | coalescingTimer => exact onEither_keepsCanon fun _ ht => ht.evTimer
  | eventQueueEnable => exact onHost_keepsCanon fun _ ht => ht.evCfg
  | startPart => exact onTray_keepsCanon fun _ ht => ht.startPart
  | hopAcknowledgement => exact onTray_keepsCanon fun _ ht => ht.hopAcked
  | hopTimeout => exact onTray_keepsCanon fun _ ht => ht.hopTimeout
  | leafAcknowledgement => exact onTray_keepsCanon fun _ ht => ht.leafAcked
  | leafNotAttached => exact onTray_keepsCanon fun _ ht => ht.leafTimeout
  | teardownPart => exact onTray_keepsCanon fun _ ht => ht.teardownPart
  | teardownResend => exact onTray_keepsCanon fun _ ht => ht.teardownResend
  | releaseDeadline => exact onTray_keepsCanon fun _ ht => ht.releaseDeadline
  | censusReport => exact onTray_keepsCanon fun _ ht => ht.censusReport
  | holderStateReport => exact onTray_keepsCanon fun _ ht => ht.holderReport
  | writtenReport => exact onTray_keepsCanon fun _ ht => ht.writtenReport
  | censusDeadline => exact onTray_keepsCanon fun _ ht => ht.censusDeadline
  | copiedReport => exact onTray_keepsCanon fun _ ht => ht.copiedReport
  | ladderStepEnd => exact onEither_keepsCanon fun _ ht => ht.ladderStep
  | ladderStepOverran => exact onTray_keepsCanon fun _ ht => ht.ladderOverran
  | hello => exact onTray_keepsCanon fun _ ht => ht.hello
  | tokenRefill => exact onTray_keepsCanon fun _ ht => ht.tokenRefill
  | supplyWarningStart | supplyWarningEnd => exact onSupply_keepsCanon fun _ ht => ht.supply
  | coldReset => exact onReset_keepsCanon fun _ _ => .coldReset
  | warmReset => exact onEither_keepsCanon fun _ ht => ht.warmReset
  | linkReset => exact onEither_keepsCanon fun _ ht => ht.linkResetOf
  | resetRelease => exact onRelease_keepsCanon fun _ ht => ht.release
  | injectionKey | injectionArm => exact onHost_keepsCanon fun _ ht => ht.headAt
  | installCerts => exact onHost_keepsCanon fun _ ht => ht.installCerts
  | configurationApply => exact onHost_keepsCanon fun _ ht => ht.cfgApply
  | reportRequest => exact onHost_keepsCanon fun _ ht => ht.report
  | thermalLimit | thermalClear | thermtrip => exact onSupply_keepsCanon fun _ ht => ht.junction
  | dataCommandComplete => exact onTray_keepsCanon fun _ ht => ht.dataDone
  | harvestRingRciWrite => exact onBar_keepsCanon fun _ ht => ht.pageWritten.rciWrite
  | busMasterEnable => exact onTray_keepsCanon fun _ ht => ht.busMaster
  | msixVectorUnmask => exact onBar_keepsCanon fun _ ht => ht.unmask
  | distributorStalled => exact onTray_keepsCanon fun _ ht => ht.longStall
  | _ => exact onLeaf_keepsCanon

theorem step_keepsCanon (s : State) : KeepsCanon s (step s) := by
  unfold step
  split
  · exact keepsCanon_next fun hs => hs.tick
  · exact fun hs => exec_keepsCanon _ _ hs

end Sys2Proof.Machine

namespace Sys2Proof.Slice0

open Sys2Proof.Machine

/-- Settles O7: every write of the memories goes through a write that lists no zero, and a reset empties what it clears. -/
theorem memoryStaysCanonical : Obligations.MemoryStaysCanonical := fun s s' hs hstep => step_keepsCanon s hs s' hstep

end Sys2Proof.Slice0

namespace Sys2Proof.Machine

/-! ### Bytes written read back -/

theorem smReadBytes_writeBytes (l : List Byte) (m : SMap Byte) (a : Nat) (d : Byte) : smReadBytes (smWriteBytes m a d l) a d l.length = l := by
  induction l generalizing m a with
  | nil => rfl
  | cons b t ih =>
    have hb : smGet (smWriteBytes (smSet m a b d) (a + 1) d t) a d = b := by
      rw [smGet_writeBytes_outside t _ _ d (.inl (Nat.lt_succ_self a)), smGet_set_same]
    exact congrArg₂ List.cons hb (ih _ _)

theorem smReadBytes_writeBytes_outside (l : List Byte) (m : SMap Byte) (a : Nat) (d : Byte) {x : Nat} (h : x < a ∨ a + l.length ≤ x) :
    smReadBytes (smWriteBytes m a d l) x d 1 = smReadBytes m x d 1 :=
  congrArg (fun b => [b]) (smGet_writeBytes_outside l m a d h)

theorem lpBytes_lpWrite (t : Tray) (a : Nat) (l : List Byte) : (t.lpWrite a l).lpBytes a l.length = l := by
  rw [Tray.lpBytes, lpWrite_lp, smReadBytes_writeBytes]

theorem lpBytes_lpWrite_outside (t : Tray) {a x : Nat} {l : List Byte} (h : x < a ∨ a + l.length ≤ x) :
    (t.lpWrite a l).lpBytes x 1 = t.lpBytes x 1 := by
  rw [Tray.lpBytes, lpWrite_lp, smReadBytes_writeBytes_outside l _ a 0 h, Tray.lpBytes]

theorem lpWrite_u (t : Tray) (a : Nat) (l : List Byte) : (t.lpWrite a l).u = t.u := wroteBytes_u _ _ _ _

theorem brineBytes_brineWrite (t : Tray) (a : Nat) (l : List Byte) : (t.brineWrite a l).brineBytes a l.length = l := by
  rw [Tray.brineBytes, brineWrite_brine, smReadBytes_writeBytes]

theorem brineBytes_brineWrite_outside (t : Tray) {a x : Nat} {l : List Byte} (h : x < a ∨ a + l.length ≤ x) :
    (t.brineWrite a l).brineBytes x 1 = t.brineBytes x 1 := by
  rw [Tray.brineBytes, brineWrite_brine, smReadBytes_writeBytes_outside l _ a 0 h, Tray.brineBytes]

theorem brineWrite_u (t : Tray) (a : Nat) (l : List Byte) : (t.brineWrite a l).u = t.u := wroteBytes_u _ _ _ _

/-! ### The memories at reset -/

/-- The recovery marker that a reset records takes a staging place and writes no byte of a memory. -/
theorem reset_memories : State.reset.tray.tier.lp = [] ∧ State.reset.tray.tier.brine = [] ∧ State.reset.tray.tier.slice = [] := by decide

/-! ### The patrol scrub -/

theorem flaw_setFlaw_same (t : Tray) (space word f : Nat) : (t.setFlaw space word f).flaw space word = f := smGet_set_same _ _ _ _

theorem readWord_good {t : Tray} {space word : Nat} (h : t.flaw space word = 0) : t.readWord space word = t := by
  simp [Tray.readWord, h]

/-- What a corrected word of a space adds to its counters. -/
def Blk.corrects (u : Blk) (space : Nat) : Blk :=
  let v := u.bump (ceReg space)
  { v with er := { v.er with corrected := smUpd v.er.corrected space 0 (· + 1) } }

/-- What an uncorrectable word of a space counts and reports. -/
def Blk.poisons (u : Blk) (space word : Nat) : Blk :=
  ((u.bump (ueReg space)).cause 0x28 0 0).report rkUncorrectable .dflt (pay [fd 0x24 1 space, fd 0x28 8 (8 * word)])

theorem readWord_single {t : Tray} {space word : Nat} (h : t.flaw space word = flawSingle) (hspace : space ≠ 0) :
    t.readWord space word = (t.setFlaw space word 0).blk fun u => u.corrects space := by
  simp [Tray.readWord, h, hspace, Blk.corrects]

theorem readWord_double {t : Tray} {space word : Nat} (h : t.flaw space word = flawDouble) :
    t.readWord space word = (t.setFlaw space word flawPoison).blk fun u => u.poisons space word := by
  simp [Tray.readWord, h, Blk.poisons]

theorem poisons_clk (u : Blk) (space word : Nat) : (u.poisons space word).clk = u.clk := by
  have hframe : (u.poisons space word).frame = u.frame := by
    rw [Blk.poisons, report_frame, cause_frame, bump_frame]
    simp only [ueReg]
    split
    · exact .inr (by decide)
    · split <;> exact .inr (by decide)
  exact clk_of_frame hframe

theorem corrects_counts (u : Blk) (space : Nat) : (u.corrects space).reg (ceReg space) = satInc32 (u.reg (ceReg space)) := reg_setReg_same u _ _

section Scrub

variable {t : Tray} {space word : Nat}

/-- A scrub of a good word that finds nothing leaves it. -/
theorem scrub_nothing (word : Nat) (hgood : t.flaw space word = 0) : t.scrub space word 0 = t := by
  simp [Tray.scrub, readWord_good hgood]

/-- A scrub that finds an error in a good word reads the word with that error. -/
theorem scrub_found (h : t.u.held = none) (hgood : t.flaw space word = 0) {found : Nat} (hfound : found ≠ 0) :
    t.scrub space word found = (t.setFlaw space word found).readWord space word := by
  simp [Tray.scrub, h, hgood, hfound]

theorem scrub_single (h : t.u.held = none) (hgood : t.flaw space word = 0) (hspace : space ≠ 0) :
    t.scrub space word flawSingle = ((t.setFlaw space word flawSingle).setFlaw space word 0).blk fun u => u.corrects space :=
  (scrub_found h hgood (by decide)).trans (readWord_single (flaw_setFlaw_same _ _ _ _) hspace)

theorem scrub_double (h : t.u.held = none) (hgood : t.flaw space word = 0) :
    t.scrub space word flawDouble = ((t.setFlaw space word flawDouble).setFlaw space word flawPoison).blk fun u => u.poisons space word :=
  (scrub_found h hgood (by decide)).trans (readWord_double (flaw_setFlaw_same _ _ _ _))

end Scrub

end Sys2Proof.Machine

namespace Sys2Proof.Slice0

open Sys2Proof.Machine

theorem trayBecomes_of_scrub {s : State} (hfree : Free s .tray) {space : BitVec 2} {word : BitVec 33} (found : Fin 3) {t : Tray}
    (h : s.tray.scrub space.toNat word.toNat found = t) : TrayBecomes (.patrolScrub space word found) s t := by
  subst h
  have hheld : s.tray.u.held = none := hfree
  exact congrArg Host.Outcome.next (if_neg (by simp [hheld]))

/-- Settles O34: a scrub is a read of the word with what it found in it, and a read corrects a single-bit error and poisons a
double-bit one. -/
theorem scrubCorrectsAWord : Obligations.ScrubCorrectsAWord := by
  intro s space word hfree t sp hgood
  have hflaw : ∀ (v : Tray) (f : Nat) (g : Blk → Blk), ((v.setFlaw sp word.toNat f).blk g).flaw sp word.toNat = f := fun v f _ =>
    flaw_setFlaw_same v sp word.toNat f
  refine ⟨trayBecomes_of_scrub hfree 0 (scrub_nothing _ hgood), fun hspace => ⟨_, trayBecomes_of_scrub hfree 1 (scrub_single hfree hgood hspace), ?_⟩,
    _, trayBecomes_of_scrub hfree 2 (scrub_double hfree hgood), ?_⟩
  · exact ⟨hflaw _ _ _, corrects_counts t.u sp, rfl, rfl, rfl, rfl⟩
  · exact ⟨hflaw _ _ _, rfl, rfl, rfl, poisons_clk t.u sp word.toNat⟩

/-- Settles O39: the thief asks its victims only in a branch that needs STL.CTL.en. -/
theorem idleThiefNeedsStealingOn : Obligations.IdleThiefNeedsStealingOn := by
  intro s core hfree hoff
  have hidle : s.tray.thiefIdle core = s.tray := if_neg (by simp [Blk.rb, hoff])
  have h : TrayBecomes (.thiefIdle core) s (s.tray.thiefIdle core) := onTray_free (fun t => t.thiefIdle core) hfree
  rwa [hidle] at h

/-- Settles O35, by the read-after-write law of the byte maps for the two stores. -/
theorem bytesWrittenReadBack : Obligations.BytesWrittenReadBack := fun t a l =>
  ⟨⟨lpBytes_lpWrite t a l, fun _ => lpBytes_lpWrite_outside t, lpWrite_brine t a l, lpWrite_slice t a l, lpWrite_u t a l⟩,
   ⟨brineBytes_brineWrite t a l, fun _ => brineBytes_brineWrite_outside t, brineWrite_lp t a l, brineWrite_slice t a l, brineWrite_u t a l⟩⟩

/-- Settles O8: the three memories of the reset state are empty maps. -/
theorem resetMemoryIsEmpty : Obligations.ResetMemoryIsEmpty := by
  obtain ⟨hlp, hbrine, hslice⟩ := reset_memories
  have hwf : State.reset.tray.memWf = true := by
    rw [Tray.memWf, hlp, hbrine, hslice]
    rfl
  refine ⟨hwf, fun a => ?_, fun a => ?_, fun core line => ?_⟩
  · rw [hlp]; rfl
  · rw [hbrine]; rfl
  · rw [Tray.line, hslice]; rfl

end Sys2Proof.Slice0

/-! The command aperture (R207): the 64 bytes that a write hands on, and what an append, taken or dropped, leaves of the tray build. -/

namespace Sys2Proof.Machine

/-! ### Byte strings -/

@[simp] theorem bytesAt_length (l : List Byte) (off n : Nat) : (bytesAt l off n).length = n := by
  simp only [bytesAt, List.length_append, List.length_take, List.length_drop, List.length_replicate]
  omega

/-- A string read from its start for its own length is itself. -/
theorem bytesAt_self {l : List Byte} {n : Nat} (h : l.length = n) : bytesAt l 0 n = l := by
  simp [bytesAt, ← h]

@[simp] theorem overlay_length (l : List Byte) (off : Nat) (v : List Byte) : (overlay l off v).length = l.length := by
  simp only [overlay, List.length_append, List.length_take, List.length_drop]
  omega

/-- A string of zeros may be kept as the empty one, which reads as zeros. -/
theorem bytesAt_compact {l : List Byte} {n : Nat} (h : l.length = n) :
    bytesAt (if l.all (fun x => decide (x = 0)) then [] else l) 0 n = l := by
  split
  next hzero =>
    have hrep : l = List.replicate n 0 := List.eq_replicate_iff.mpr ⟨h, by simpa using hzero⟩
    simp [bytesAt, hrep]
  next => exact bytesAt_self h

/-! ### Queues and the brine store -/

@[simp] theorem queue_setQueue_same (t : Tray) (q : Nat) (c : CmdQ) : (t.setQueue q c).queue q = c := smGet_set_same t.queues q c _

theorem queue_setQueue_ne (t : Tray) {q j : Nat} (c : CmdQ) (h : j ≠ q) : (t.setQueue q c).queue j = t.queue j :=
  smGet_set_ne t.queues c _ _ h

@[simp] theorem setQueue_u (t : Tray) (q : Nat) (c : CmdQ) : (t.setQueue q c).u = t.u := rfl
@[simp] theorem setQueue_tier (t : Tray) (q : Nat) (c : CmdQ) : (t.setQueue q c).tier = t.tier := rfl

@[simp] theorem wroteBytes_queues (t : Tray) (space a n : Nat) : (t.wroteBytes space a n).queues = t.queues :=
  foldl_keeps (fun v : Tray => v.queues) _ _ _ (fun v w => by split <;> rfl)

@[simp] theorem brineWrite_queue (t : Tray) (a : Nat) (l : List Byte) (j : Nat) : (t.brineWrite a l).queue j = t.queue j := by
  rw [Tray.queue, Tray.brineWrite, wroteBytes_queues, Tray.queue]

/-! ### The staging buffer -/

/-- The 64 bytes that a queue's staging buffer holds once a write is laid over it. -/
def CmdQ.staged (c : CmdQ) (off : Nat) (l : List Byte) : List Byte := overlay (bytesAt c.stage 0 64) off l

theorem staged_length (c : CmdQ) (off : Nat) (l : List Byte) : (c.staged off l).length = 64 := by
  rw [CmdQ.staged, overlay_length, bytesAt_length]

/-- The tray build once an append has taken the bytes out of a queue's staging buffer. -/
def Tray.handOn (t : Tray) (q off : Nat) (l : List Byte) : Tray :=
  let v := t.stageBytes q off l
  v.setQueue q { v.queue q with stage := [] }

section Append

variable (t : Tray) (q off : Nat) (l : List Byte)

theorem stageBytes_queue_same : (t.stageBytes q off l).queue q =
    { t.queue q with stage := if ((t.queue q).staged off l).all (fun x => decide (x = 0)) then [] else (t.queue q).staged off l } :=
  queue_setQueue_same t q _

/-- What the append reads out of the staging buffer. -/
theorem stageBytes_read : bytesAt ((t.stageBytes q off l).queue q).stage 0 64 = (t.queue q).staged off l := by
  rw [stageBytes_queue_same]
  exact bytesAt_compact (staged_length _ off l)

@[simp] theorem handOn_u : (t.handOn q off l).u = t.u := rfl
@[simp] theorem handOn_tier : (t.handOn q off l).tier = t.tier := rfl

theorem handOn_queue_same : (t.handOn q off l).queue q = { t.queue q with stage := [] } := by
  rw [Tray.handOn, queue_setQueue_same, stageBytes_queue_same]

theorem handOn_queue_ne {q j : Nat} (h : j ≠ q) : (t.handOn q off l).queue j = t.queue j :=
  (queue_setQueue_ne _ _ h).trans (queue_setQueue_ne t _ h)

/-! ### Taken and dropped appends -/

/-- A queue drops what is appended to it when it is full, off, or of another source (R207). -/
def Tray.drops : Bool := decide (1024 ≤ (t.queue q).held) || !t.qb q 31 || decide (t.qf q 28 2 ≠ 0)

theorem drops_iff : t.drops q = true ↔ 1024 ≤ (t.queue q).held ∨ t.qb q 31 = false ∨ t.qf q 28 2 ≠ 0 := by
  simp only [Tray.drops, Bool.or_eq_true, Bool.not_eq_true', decide_eq_true_eq, or_assoc]

/-- An append is dropped, or it stores the staged bytes at the ring's place of PI and counts PI up. -/
theorem append_eq : t.append q off l =
    if t.drops q then (t.handOn q off l).dropAppend q (decide (1024 ≤ (t.queue q).held))
    else ((t.handOn q off l).brineWrite (ringByte q ((t.queue q).pi % 1024)) ((t.queue q).staged off l)).setQueue q
      { t.queue q with stage := [], pi := ((t.queue q).pi + 1) % 65536 } := by
  have hheld : ((t.stageBytes q off l).queue q).held = (t.queue q).held := by rw [stageBytes_queue_same]; rfl
  simp only [Tray.append, stageBytes_read, hheld, brineWrite_queue, queue_setQueue_same]
  simp only [Tray.handOn, stageBytes_queue_same]
  rfl

end Append

/-! ### What a drop leaves -/

/-- What a dropped append counts, raises and reports on the queue's page. -/
def Blk.appendDropped (u : Blk) (q : Nat) : Blk :=
  ((u.bump (inst R.QMG_APDROP (q / 128))).cause 0x2D (q / 128) 0).reportOpen 0x2D 1 .dflt [q]

theorem appendDropped_clk (u : Blk) (q : Nat) : (u.appendDropped q).clk = u.clk := by
  have hframe : (u.appendDropped q).frame = u.frame := by
    rw [Blk.appendDropped, reportOpen_frame, cause_frame, bump_frame _ (aside_add (by decide) _)]
  exact clk_of_frame hframe

/-- The registers that a report writes lie below the pages of the command queues. -/
theorem unreported_apdrop {q : Nat} (h : q < 1536) : Unreported (inst R.QMG_APDROP (q / 128)) := by
  have hbelow : ∀ k ∈ reportRegs, k < R.QMG_APDROP := by decide
  refine ⟨fun hmem => absurd (hbelow _ hmem) (Nat.not_lt.mpr (Nat.le_add_right _ _)), ?_⟩
  simp only [inst, R.QMG_APDROP]
  omega

theorem appendDropped_counts (u : Blk) {q : Nat} (h : q < 1536) :
    (u.appendDropped q).reg (inst R.QMG_APDROP (q / 128)) = satInc32 (u.reg (inst R.QMG_APDROP (q / 128))) := by
  have hun := unreported_apdrop h
  have hpage : inst R.QMG_APDROP (q / 128) ≠ inst (0x2D * 0x1000 + H.PGCAUSE) (q / 128) := fun e => absurd (Nat.add_right_cancel e) (by decide)
  have hfirst : inst R.QMG_APDROP (q / 128) ∉ [R.ERR_FIRST, R.ERR_FIRSTT_L, R.ERR_FIRSTT_H] := fun hmem =>
    hun.1 (List.mem_append_right (reportRegs.take 6) hmem)
  rw [Blk.appendDropped, Blk.reportOpen, report_reg _ _ _ _ hun, cause_reg_ne _ _ _ _ hpage hfirst hun.2]
  exact reg_setReg_same u _ _

section Drop

variable (t : Tray) (q : Nat) (full : Bool)

@[simp] theorem dropAppend_u : (t.dropAppend q full).u = t.u.appendDropped q := by cases full <;> rfl

@[simp] theorem dropAppend_tier : (t.dropAppend q full).tier = t.tier := by cases full <;> rfl

theorem dropAppend_queue_same : (t.dropAppend q full).queue q = { t.queue q with full := full || (t.queue q).full } := by
  cases full
  · rfl
  · exact queue_setQueue_same t q _

theorem dropAppend_queue_ne {q j : Nat} (h : j ≠ q) : (t.dropAppend q full).queue j = t.queue j := by
  cases full
  · rfl
  · exact queue_setQueue_ne t _ h

end Drop

/-! ### The write -/

theorem posted_unarmed {t : Tray} (f : Tray → Tray) (h : t.u.armed 0x29 0 0 = false) : t.posted f = f t := if_neg (by simp [h])

/-- A write that ends with byte 0x3F of the aperture is an append. -/
theorem aperture_append (t : Tray) (q : Nat) {off : Nat} {l : List Byte} (hoff : off < 64) (hl : off + l.length = 64) :
    t.aperture q off l = t.append q off l := by
  have hne : ¬ l.isEmpty = true := by
    rw [List.isEmpty_iff_length_eq_zero]
    omega
  rw [Tray.aperture, if_neg hne, if_neg (by omega), if_pos (by omega)]

end Sys2Proof.Machine

namespace Sys2Proof.Slice0

open Sys2Proof.Machine

/-- An append reaches the aperture of an open build on which no injection is armed at the port. -/
theorem trayBecomes_append {s : State} (q : Fin 1536) (off : BitVec 6) (data : List Byte) (hopen : s.Open .tray)
    (harmed : s.tray.u.armed 0x29 0 0 = false) :
    TrayBecomes (.commandAppend q off data) s (s.tray.append q off.toNat (bytesAt data 0 (0x40 - off.toNat))) := by
  obtain ⟨hfree, hstep⟩ := hopen
  have hoff : off.toNat < 64 := off.isLt
  have hwrite := aperture_append s.tray q (l := bytesAt data 0 (0x40 - off.toNat)) hoff (by rw [bytesAt_length]; omega)
  rw [← hwrite, ← posted_unarmed (fun v => v.aperture q off.toNat (bytesAt data 0 (0x40 - off.toNat))) harmed]
  exact (onBar_open _ (hstep rfl)).trans (onTray_free _ hfree)

/-- Settles O32: a taken append writes the staged bytes at the ring's place of PI, and no other byte of a memory. -/
theorem appendStoresTheStagedCommand : Obligations.AppendStoresTheStagedCommand := by
  intro s q off data hopen t q' c l staged harmed hheld hon hsrc
  have htaken : ¬ t.drops q' = true := by
    rw [drops_iff, hon, hsrc]
    simpa using hheld
  have hlen : staged.length = 64 := staged_length c off.toNat l
  have happend := (append_eq t q' off.toNat l).trans (if_neg htaken)
  refine ⟨_, happend ▸ trayBecomes_append q off data hopen harmed, ?_⟩
  simp only [setQueue_u, setQueue_tier, queue_setQueue_same, brineWrite_u, handOn_u, brineWrite_lp, brineWrite_slice, handOn_tier]
  refine ⟨trivial, rfl, rfl, trivial, fun j hj => ?_, ?_, fun a ha => ?_, trivial, trivial⟩
  · rw [queue_setQueue_ne _ _ hj, brineWrite_queue, handOn_queue_ne _ _ _ hj]
  · have hread := brineBytes_brineWrite (t.handOn q' off.toNat l) (ringByte q' (c.pi % 1024)) staged
    rwa [hlen] at hread
  · rw [brineWrite_brine, handOn_tier]
    exact smGet_writeBytes_outside staged _ _ 0 (hlen ▸ ha)

/-- Settles O33: a drop writes the queue's full bit and what counts and reports it, behind the cleared staging buffer. -/
theorem droppedAppendLeavesTheRing : Obligations.DroppedAppendLeavesTheRing := by
  intro s q off data hopen t q' c page harmed hdrops
  have happend := (append_eq t q' off.toNat (bytesAt data 0 (0x40 - off.toNat))).trans (if_pos ((drops_iff t q').mpr hdrops))
  refine ⟨_, happend ▸ trayBecomes_append q off data hopen harmed, ?_⟩
  simp only [dropAppend_tier, dropAppend_queue_same, dropAppend_u, handOn_tier, handOn_u, handOn_queue_same]
  refine ⟨trivial, rfl, rfl, trivial, fun hfull => ?_, fun j hj => ?_, appendDropped_clk t.u q', appendDropped_counts t.u q.isLt⟩
  · rw [decide_eq_true hfull, Bool.true_or]
  · rw [dropAppend_queue_ne _ _ hj, handOn_queue_ne _ _ _ hj]

/-- Settles O37: an acknowledgement acts only on the node that its key names. -/
theorem unknownTransactionsChangeNothing : Obligations.UnknownTransactionsChangeNothing := by
  intro s job txid hfree hnone
  have hack : s.tray.txCopyAck job txid = s.tray := by rw [Tray.txCopyAck, hnone]
  have h : TrayBecomes (.txDecisionCopyAck job txid) s (s.tray.txCopyAck job txid) := onTray_free (fun t => t.txCopyAck job txid) hfree
  rwa [hack] at h

end Sys2Proof.Slice0

/-! The read offset of a host harvest ring (R244): what a write of it does, by whether it is a multiple of 16. -/

namespace Sys2Proof.Machine

/-- A read offset that is not a multiple of 16 is ignored, and its page's cause 2 tells of it. -/
theorem rciWrite_misaligned (t : Tray) (ring : Nat) {v : Nat} (h : v % 16 ≠ 0) :
    t.rciWrite ring v = t.blk (fun u => u.cause 0x27 0 2) := if_pos h

/-- A multiple of 16 moves the ring's read offset and no other register; what it acknowledges lies outside the registers. -/
theorem rciWrite_aligned_u (t : Tray) (ring : Nat) {v : Nat} (h : v % 16 = 0) :
    (t.rciWrite ring v).u = t.u.setN (hrv R.HRV_RCI ring) v := by
  rw [Tray.rciWrite, if_neg (not_not_intro h)]
  rfl

/-- A number set by a word's value reads back as that word. -/
theorem reg_setN_toNat_same (u : Blk) (k : Nat) (w : W32) : (u.setN k w.toNat).reg k = w := by
  rw [Blk.setN, BitVec.ofNat_toNat, BitVec.setWidth_eq, reg_setReg_same]

end Sys2Proof.Machine

namespace Sys2Proof.Slice0

open Sys2Proof.Machine

/-- Settles O36: behind the written page, a misaligned offset raises the cause alone, and an aligned one is what the register then holds. -/
theorem harvestReadOffsetIsChecked : Obligations.HarvestReadOffsetIsChecked := by
  intro s ring v ⟨hfree, hstep⟩
  have hbecomes : TrayBecomes (.harvestRingRciWrite ring v) s ((s.tray.pageWritten 0x27 0).rciWrite ring v.toNat) :=
    (onBar_open _ (hstep rfl)).trans (onTray_free _ hfree)
  constructor
  · intro hmis
    rwa [rciWrite_misaligned _ _ hmis] at hbecomes
  · intro hal
    refine ⟨_, hbecomes, ?_⟩
    rw [rciWrite_aligned_u _ _ hal, reg_setN_toNat_same]

end Sys2Proof.Slice0

/-! The leaf's host event queue (R303): what handing closed records to queue 3 leaves, and what a write of the consumer index does. -/

namespace Sys2Proof.Machine

/-! ### What a cause sets, and what a fired injection and a committed message leave -/

/-- A page's cause bit stands once its detector has set it (R383, R442). -/
theorem bit_cause_same (u : Blk) {p n i : Nat} (hhas : Nat.testBit (pgCauses u.build p) i = true) (hi : i < 32)
    (hfirst : inst (p * 0x1000 + H.PGCAUSE) n ∉ [R.ERR_FIRST, R.ERR_FIRSTT_L, R.ERR_FIRSTT_H])
    (hpba : inst (p * 0x1000 + H.PGCAUSE) n < 0x58000001) :
    bit ((u.cause p n i).reg (inst (p * 0x1000 + H.PGCAUSE) n)) i = true := by
  have hcause : u.cause p n i = u.causeAt (inst (p * 0x1000 + H.PGCAUSE) n) (pageNo u.build p n) i := if_pos hhas
  rw [hcause, causeAt_reg _ _ _ _ hfirst hpba, reg_setRb_same, bit_setBit, if_pos rfl, decide_eq_true hi, Bool.true_and]

/-- A fired injection writes what its record writes, the count of fired injections with its cause, and the armed bit (R388, R392). -/
theorem fire_reg (u : Blk) (p n i : Nat) (memoryKind : Bool) {j : Nat} (hj : Unreported j)
    (herr : j ∉ [R.ERR_INJFIRED, inst (0x15 * 0x1000 + H.PGCAUSE) 0]) (harm : j ≠ inst (p * 0x1000 + H.PGINJ) n) :
    (u.fire p n i memoryKind).reg j = u.reg j := by
  simp only [List.mem_cons, List.not_mem_nil, or_false, not_or] at herr
  obtain ⟨hcount, hpage⟩ := herr
  have hfirst : j ∉ [R.ERR_FIRST, R.ERR_FIRSTT_L, R.ERR_FIRSTT_H] := fun hmem => hj.1 (List.mem_append_right (reportRegs.take 6) hmem)
  have hfired : ∀ v : Blk, ((v.bump R.ERR_INJFIRED).cause 0x15 0 4).reg j = v.reg j := fun v =>
    (cause_reg_ne _ _ _ _ hpage hfirst hj.2).trans (reg_setReg_ne v _ hcount)
  unfold Blk.fire
  extract_lets sel reported fired
  have hreg : fired.reg j = u.reg j := (hfired reported).trans (report_reg u _ _ _ hj)
  split
  · exact hreg
  · exact (reg_setRb_ne fired _ _ harm).trans hreg

/-- A committed message writes the port's count of late messages, and what an armed parity injection writes (R168, R175, R388). -/
theorem commit_reg (u : Blk) (p q : Nat) (m : Msg) {j : Nat} (hj : Unreported j) (hlate : j ≠ inst R.SCH_LATE p)
    (hinj : j ∉ [R.ERR_INJFIRED, inst (0x15 * 0x1000 + H.PGCAUSE) 0, inst (0x10 * 0x1000 + H.PGINJ) 0]) :
    (u.commit p q m).reg j = u.reg j := by
  simp only [List.mem_cons, List.not_mem_nil, or_false, not_or] at hinj
  obtain ⟨hcount, hpage, harm⟩ := hinj
  unfold Blk.commit
  extract_lets inj late counted stored queued
  have hcounted : counted.reg j = u.reg j := by
    unfold counted
    split
    · exact reg_setReg_ne u _ hlate
    · rfl
  split
  · exact (fire_reg queued _ _ _ _ hj (by simp [hcount, hpage]) harm).trans hcounted
  · exact hcounted

/-! ### Handing records on (R307) -/

/-- Handing on a record commits at most one message to queue 3. -/
theorem hevHandOne_u (l : Leaf) : l.hevHandOne.u = l.u ∨ ∃ m, l.hevHandOne.u = l.u.commit 0 3 m := by
  unfold Leaf.hevHandOne
  split
  · exact .inl rfl
  · split
    · exact .inr ⟨_, rfl⟩
    · exact .inl rfl

/-- What every commit to queue 3 keeps, handing records on keeps. -/
theorem hevHandN_keeps_u {β : Type} (f : Blk → β) (hcommit : ∀ u m, f (Blk.commit u 0 3 m) = f u) (l : Leaf) (n : Nat) :
    f (l.hevHandN n).u = f l.u := by
  induction n generalizing l with
  | zero => rfl
  | succ n ih =>
    have hone : f l.hevHandOne.u = f l.u := by
      obtain h | ⟨m, h⟩ := hevHandOne_u l
      · rw [h]
      · rw [h, hcommit]
    exact (ih l.hevHandOne).trans hone

@[simp] theorem hevHand_frame (l : Leaf) : l.hevHand.u.frame = l.u.frame := hevHandN_keeps_u Blk.frame (fun u m => commit_frame u 0 3 m) l 64

@[simp] theorem hevHand_ci (l : Leaf) : l.hevHand.u.reg R.HEV_CI = l.u.reg R.HEV_CI :=
  hevHandN_keeps_u (fun u => u.reg R.HEV_CI) (fun u m => commit_reg u 0 3 m (by decide) (by decide) (by decide)) l 64

/-! ### The consumer index (R303) -/

/-- Both builds have cause 3 of HEV. -/
theorem hev_causes (b : Build) : Nat.testBit (pgCauses b 0x16) 3 = true := by cases b <;> decide

theorem hevCi_overfull {l : Leaf} {w : W32} (h : l.hevCap < (l.u.reg R.HEV_PI - w).toNat) :
    l.hevCi w = l.blk (fun u => u.cause 0x16 0 3) := if_pos h

theorem hevCi_taken {l : Leaf} {w : W32} (h : (l.u.reg R.HEV_PI - w).toNat ≤ l.hevCap) :
    l.hevCi w = (l.blk (fun u => u.setReg R.HEV_CI w)).hevHand := if_neg (Nat.not_lt.mpr h)

theorem hevCi_taken_reg {l : Leaf} {w : W32} (h : (l.u.reg R.HEV_PI - w).toNat ≤ l.hevCap) : (l.hevCi w).u.reg R.HEV_CI = w := by
  rw [hevCi_taken h, hevHand_ci, Leaf.blk_u, reg_setReg_same]

/-- Neither answer to a write of the consumer index moves anything of the frame. -/
theorem hevCi_frame (l : Leaf) (w : W32) : (l.hevCi w).u.frame = l.u.frame := by
  obtain h | h := Nat.lt_or_ge l.hevCap (l.u.reg R.HEV_PI - w).toNat
  · rw [hevCi_overfull h, Leaf.blk_u, cause_frame]
  · rw [hevCi_taken h, hevHand_frame, Leaf.blk_u, setReg_frame _ _ (by decide)]

end Sys2Proof.Machine

namespace Sys2Proof.Slice0

open Sys2Proof.Machine

/-- Settles O40: a value that would overfill the ring raises the cause alone, and the records that a taken one lets go on leave the index and the time. -/
theorem consumerIndexIsChecked : Obligations.ConsumerIndexIsChecked := by
  intro s q w hfree l
  have hbecomes : LeafBecomes (.ciWrite .leaf q w) s ((l.pageWritten 0x16).hevCi w) :=
    onLeaf_free (fun l => (l.pageWritten 0x16).hevCi w) hfree
  constructor
  · intro hover
    have hcap : (l.pageWritten 0x16).hevCap < ((l.pageWritten 0x16).u.reg R.HEV_PI - w).toNat := hover
    rw [hevCi_overfull hcap] at hbecomes
    refine ⟨hbecomes, ?_, bit_cause_same _ (hev_causes _) (by decide) (by decide) (by decide)⟩
    exact cause_reg_ne (l.u.pageWritten 0x16 0) _ _ _ (by decide) (by decide) (by decide)
  · intro hroom
    exact ⟨_, hbecomes, hevCi_taken_reg hroom, clk_of_frame (hevCi_frame (l.pageWritten 0x16) w)⟩

end Sys2Proof.Slice0

/-! The pending bits of MSI-X (R312): what unmasking a vector sends. -/

namespace Sys2Proof.Machine

theorem msixFree_sends {u : Blk} {v : Nat} (hpend : u.rb (pbaKey (v / 32)) (v % 32) = true) (hfree : u.msixHeld v = false) :
    u.msixFree v = (u.setRb (pbaKey (v / 32)) (v % 32) false).emit (.msix v) := if_pos (by rw [hpend, hfree]; rfl)

theorem msixFree_keeps {u : Blk} {v : Nat} (h : u.rb (pbaKey (v / 32)) (v % 32) = false ∨ u.msixHeld v = true) : u.msixFree v = u :=
  if_neg (by obtain h | h := h <;> simp [h])

@[simp] theorem msixFree_clk (u : Blk) (v : Nat) : (u.msixFree v).clk = u.clk := by
  simp only [Blk.msixFree, apply_ite Blk.clk, Blk.emit_clk, Blk.setRb_clk, ite_self]

@[simp] theorem msixFree_rcd (u : Blk) (v : Nat) : (u.msixFree v).rcd = u.rcd := by
  simp only [Blk.msixFree, apply_ite Blk.rcd, Blk.emit_rcd, Blk.setRb_rcd, ite_self]

/-- The build with the mask of vector `v` taken away, before what waits is sent. -/
def Blk.unmaskVector (u : Blk) (v : Nat) : Blk := u.setReg (msixKey (4 * v + 3)) 1

theorem unmask_eq (t : Tray) (v : Nat) : t.unmask v = { t with u := (t.u.unmaskVector v).msixFree v } := rfl

@[simp] theorem unmaskVector_clk (u : Blk) (v : Nat) : (u.unmaskVector v).clk = u.clk := Blk.setReg_clk _ _ _
@[simp] theorem unmaskVector_rcd (u : Blk) (v : Nat) : (u.unmaskVector v).rcd = u.rcd := Blk.setReg_rcd _ _ _
@[simp] theorem unmaskVector_out (u : Blk) (v : Nat) : (u.unmaskVector v).out = u.out := Blk.setReg_out _ _ _

/-- An unmasked vector waits only for a function that may not send. -/
theorem unmaskVector_msixHeld (u : Blk) (v : Nat) : (u.unmaskVector v).msixHeld v = !u.pw.busMaster := by
  have hmask : (u.unmaskVector v).rb (msixKey (4 * v + 3)) 0 = true := by
    rw [Blk.rb, Blk.unmaskVector, reg_setReg_same]
    rfl
  rw [Blk.msixHeld, hmask]
  rfl

/-- The mask of a vector is none of the pending bits. -/
theorem unmaskVector_pending (u : Blk) {v : Nat} (hv : v < 64) (j : Nat) : (u.unmaskVector v).reg (pbaKey j) = u.reg (pbaKey j) :=
  reg_setReg_ne u _ (by simp only [pbaKey, msixKey]; omega)

end Sys2Proof.Machine

namespace Sys2Proof.Slice0

open Sys2Proof.Machine

/-- Settles O41: behind the cleared mask a message goes out exactly when its pending bit stands and the function may send. -/
theorem unmaskingSendsTheHeldMessage : Obligations.UnmaskingSendsTheHeldMessage := by
  intro s vec ⟨hfree, hstep⟩ u key i
  have hbecomes : TrayBecomes (.msixVectorUnmask vec) s (s.tray.unmask vec) := (onBar_open _ (hstep rfl)).trans (onTray_free _ hfree)
  rw [unmask_eq] at hbecomes
  have hreg : (u.unmaskVector vec).reg key = u.reg key := unmaskVector_pending u vec.isLt _
  have hpending : (u.unmaskVector vec).rb key i = bit (u.reg key) i := congrArg (bit · i) hreg
  refine ⟨(u.unmaskVector vec).msixFree vec, hbecomes, (msixFree_clk _ _).trans (unmaskVector_clk _ _), (msixFree_rcd _ _).trans (unmaskVector_rcd _ _), ?_, ?_⟩
  · intro hpend hmaster
    have hsends := msixFree_sends (hpending.trans hpend) ((unmaskVector_msixHeld u vec).trans (by rw [hmaster]; rfl))
    rw [hsends]
    constructor
    · rw [Blk.emit_out, Blk.setRb_out, unmaskVector_out]
    · rw [reg_emit, reg_setRb_same, bit_setBit, if_pos rfl, Bool.and_false]
  · intro hwaits
    have hkeeps : (u.unmaskVector vec).msixFree vec = u.unmaskVector vec := by
      refine msixFree_keeps (hwaits.imp hpending.trans fun hmaster => ?_)
      rw [unmaskVector_msixHeld, hmaster]
      rfl
    rw [hkeeps]
    exact ⟨unmaskVector_out _ _, hreg⟩

end Sys2Proof.Slice0

/-! The leaf's compression engine (R334): what a go does while the engine is held. -/

namespace Sys2Proof.Machine

/-- A go while a job runs or a dump holds the engine is refused: nothing is checked and nothing starts. -/
theorem cmpGo_refused {l : Leaf} (h : l.cmp.running = true ∨ l.dumpHoldsEngine = true) :
    l.cmpGo = ({ l with cmp := { l.cmp with refused := true } } : Leaf).blk (fun u => u.cause 0x0F 0 2) :=
  if_pos ((Bool.or_eq_true _ _).mpr h)

end Sys2Proof.Machine

namespace Sys2Proof.Slice0

open Sys2Proof.Machine

/-- Settles O42: the written page holds neither the job nor the dump, so the go behind it meets the engine as it was. -/
theorem compressionGoWhileBusyIsRefused : Obligations.CompressionGoWhileBusyIsRefused := by
  intro s hfree hbusy
  have hbecomes : LeafBecomes .compressionGo s (s.leaf.pageWritten 0x0F).cmpGo :=
    onLeaf_free (fun l => (l.pageWritten 0x0F).cmpGo) hfree
  have hheld : (s.leaf.pageWritten 0x0F).cmp.running = true ∨ (s.leaf.pageWritten 0x0F).dumpHoldsEngine = true := hbusy
  rwa [cmpGo_refused hheld] at hbecomes

end Sys2Proof.Slice0

/-! ### A dump that holds the engine -/

namespace Sys2Proof.Machine

/-- The leaf with the walker on, a buffer of 4 KiB and a table of one descriptor that reads one word (R131, R138). -/
def Leaf.withDumpTable (l : Leaf) : Leaf :=
  ({ l with dmp := { l.dmp with desc := [(0, 0x80000001)] } }).blk
    (fun u => ((u.setReg R.DMP_CTL 0x80000000).setReg R.DMP_BUFSZ 4096).setReg R.DMP_NDESC 1)

/-- The leaf with the dump in flight, if any, compressing. -/
def Leaf.withDumpCompressing (l : Leaf) : Leaf := l.setRun (l.dmp.run.map fun r => { r with zstd := true })

end Sys2Proof.Machine

namespace Sys2Proof.Slice0

open Sys2Proof.Machine

/-- A dump of the reset leaf that waits for its first word. It is set compressing after its start, because the kernel does not evaluate
the trial compression with which a compressing dump starts. -/
def dumpingState : State := { State.reset with leaf := State.reset.leaf.withDumpTable.dumpGo.withDumpCompressing }

theorem dumpingState_free : Free dumpingState .leaf := by decide +kernel

/-- The dump alone holds the engine: no job runs. -/
theorem dumpingState_dumpHoldsEngine : dumpingState.leaf.cmp.running = false ∧ dumpingState.leaf.dumpHoldsEngine = true := by decide +kernel

/-- The refusal for the dump's sake, in a leaf where it happens. -/
theorem dumpingState_refuses_compressionGo : LeafBecomes .compressionGo dumpingState { dumpingState.leaf with
    u := (dumpingState.leaf.u.pageWritten 0x0F 0).cause 0x0F 0 2, cmp := { dumpingState.leaf.cmp with refused := true } } := by
  obtain ⟨_, hdump⟩ := dumpingState_dumpHoldsEngine
  exact compressionGoWhileBusyIsRefused dumpingState dumpingState_free (.inr hdump)

end Sys2Proof.Slice0

/-! Leaf detach (R348, R43): what becomes of the slot. -/

namespace Sys2Proof.Machine

@[simp] theorem abandon_frame (l : Leaf) (p : Nat → Bool) : (l.abandon p).u.frame = l.u.frame := frame_of_still (abandon_still l p)

/-- The leaf with a slot's enable off and its sample reads in progress abandoned, before its pending swaps. -/
def Leaf.disableSlot (l : Leaf) (slot : Nat) : Leaf :=
  (l.abandon (fun s => s = slot)).blk (fun u => u.setStep slot { u.step slot with en := false })

theorem disableSlot_en (l : Leaf) (slot : Nat) : ((l.disableSlot slot).u.step slot).en = false :=
  congrArg StepClk.en (step_setStep_same _ _ _)

@[simp] theorem disableSlot_clk (l : Leaf) (slot : Nat) : (l.disableSlot slot).u.clk = l.u.clk :=
  (Blk.setStep_clk _ _ _).trans (clk_of_frame (abandon_frame l _))

/-- Behind the cleared enable, the swaps that no longer wait for a mark (R47, R70) leave the slot and the time. -/
theorem detach_frame (l : Leaf) (slot : Nat) : (l.detach slot).u.frame = (l.disableSlot slot).u.frame := by
  refine (slotSwap_frame _ slot).trans ?_
  split
  · exact selSwapNow_frame (l.disableSlot slot) slot
  · rfl

theorem leafDetach_off {l : Leaf} {slot : Nat} (hslot : slot < 2) (h : (l.u.step slot).en = false) : l.leafDetach slot = l :=
  if_neg (by rw [Nat.mod_eq_of_lt hslot, h]; decide)

/-- The record of the detach of an attached slot keeps what the detach made of it. -/
theorem leafDetach_frame {l : Leaf} {slot : Nat} (hslot : slot < 2) (h : (l.u.step slot).en = true) :
    (l.leafDetach slot).u.frame = (l.disableSlot slot).u.frame := by
  simp only [Leaf.leafDetach, Nat.mod_eq_of_lt hslot, h, if_true, Leaf.blk_u, report_frame, bumpSeq_frame, detach_frame]

end Sys2Proof.Machine

namespace Sys2Proof.Slice0

open Sys2Proof.Machine

/-- Settles O38: a detach meets the enable first (log entry 27), and behind the enable it clears, neither swaps nor record touch slot or time. -/
theorem detachOfAnEmptySlotChangesNothing : Obligations.DetachOfAnEmptySlotChangesNothing := by
  intro s slot hfree
  have hbecomes : LeafBecomes (.leafDetach slot) s (s.leaf.leafDetach slot) := onLeaf_free (fun l => l.leafDetach slot) hfree
  constructor
  · intro hoff
    rwa [leafDetach_off slot.isLt hoff] at hbecomes
  · intro hon
    have hframe := leafDetach_frame slot.isLt hon
    refine ⟨_, hbecomes, ?_, (clk_of_frame hframe).trans (disableSlot_clk _ _)⟩
    rw [step_of_frame hframe]
    exact disableSlot_en s.leaf slot

end Sys2Proof.Slice0

/-! Builds that a cold reset holds (R374): what every step leaves of such a leaf, and where the statement about such a T build fails. -/

namespace Sys2Proof.Machine

theorem Leaf.SameButInputs.held {l m : Leaf} (h : l.SameButInputs m) : m.u.held = l.u.held := by rw [h.1]

theorem Leaf.SameButInputs.trans {l m n : Leaf} (h : l.SameButInputs m) (g : m.SameButInputs n) : l.SameButInputs n := by
  obtain ⟨hm, hsrc, heng, hdom⟩ := h
  obtain ⟨hn, gsrc, geng, gdom⟩ := g
  exact ⟨hn.trans (by rw [hm]), fun k => (gsrc k).trans (by rw [hsrc]), fun e => (geng e).trans (by rw [heng]),
    fun d => (gdom d).trans (by rw [hdom])⟩

theorem leafTick_held_cold {l : Leaf} (h : l.u.held = some .cold) : l.tick = l := by simp only [Leaf.tick, h]

/-- The first reading at the trip point that a T build held cold takes drives `thermtrip_n` low (R435). -/
theorem junction_trip_out {t : Tray} (hheld : t.u.held = some .cold) (hoff : t.u.pw.thermtrip = false) {tj : Nat} (htj : 115 ≤ tj) (sensor : Nat) :
    (t.junction tj sensor).u.out = .pin .thermtripN 0 0 :: t.u.out := by
  simp only [Tray.junction, if_pos hheld, Tray.blk_u, hoff, decide_eq_true htj, Bool.or_true, Bool.not_false, Bool.and_self, if_true]
  rfl

end Sys2Proof.Machine

namespace Sys2Proof.Slice0

open Sys2Proof.Machine

/-- The leaf's half of O6 holds: a held leaf takes nothing but its input levels from a command that is no release, and no cycle. -/
theorem leafHeldCold_step {l0 : Leaf} {s t : State} (h : LeafHeldCold l0 s) (hstep : step s = .next t) : LeafHeldCold l0 t := by
  obtain ⟨hsame, hcold, hwait⟩ := h
  have hheld : s.leaf.u.held = some .cold := hsame.held.trans hcold
  unfold step at hstep
  split at hstep
  case h_1 hnone =>
    obtain rfl := Host.Outcome.next.inj hstep
    refine ⟨?_, hcold, hwait⟩
    rwa [State.tick, leafTick_held_cold hheld]
  case h_2 c rest hq =>
    obtain ⟨F, G, hexec, hkeeps, -⟩ := exec_acts c
    rw [hexec] at hstep
    obtain rfl := Host.Outcome.next.inj hstep
    have hno : ¬∃ a v, c = .resetRelease .leaf a v := fun ⟨a, v, hc⟩ => hwait c (by rw [hq]; exact .head _) a v hc
    exact ⟨hsame.trans (hkeeps hno s.leaf hheld), hcold, fun c' hc' => hwait c' (by rw [hq]; exact .tail _ hc')⟩

/-- A T build held cold. -/
def coldTray : Tray := Tray.reset.coldReset 1

/-- The same build with a fall of `thermtrip_n` in its log that no trip made, as `Tray.SameButInputs` allows. -/
def pinFallen : State := { leaf := Leaf.reset, tray := coldTray.blk (fun u => u.emit (.pin .thermtripN 0 0)), pending := [] }

theorem coldTray_held : coldTray.u.held = some .cold ∧ coldTray.u.pw.thermtrip = false := by decide

theorem pinFallen_heldCold : TrayHeldCold coldTray { pinFallen with pending := [.thermtrip 115 0] } := by
  refine ⟨⟨rfl, .inr rfl⟩, coldTray_held.1, fun c hc a v hrel => ?_⟩
  obtain rfl := List.mem_singleton.mp hc
  cases hrel

/-- A reading at the trip point reaches the held build, and drives the pin once more. -/
theorem pinFallen_trips : ∃ t, step { pinFallen with pending := [.thermtrip 115 0] } = .next t ∧
    t.tray.u.out = .pin .thermtripN 0 0 :: .pin .thermtripN 0 0 :: coldTray.u.out := by
  obtain ⟨hheld, hoff⟩ := coldTray_held
  exact ⟨_, onSupply_held id (fun t => t.junction 115 0) (s := pinFallen) (hheld ▸ Option.some_ne_none _),
    junction_trip_out (t := pinFallen.tray) hheld hoff (Nat.le_refl 115) 0⟩

/-- Refutes O6: the relation lets the trip's pin stand in the log of a held T build with no trip, and the trip that then comes drives the pin a second time. The
leaf's half holds (`leafHeldCold_step`). -/
theorem not_coldHeldBuildKeepsItsState : ¬ Obligations.ColdHeldBuildKeepsItsState := by
  intro hstated
  obtain ⟨t, hstep, htwo⟩ := pinFallen_trips
  obtain ⟨⟨-, hout⟩, -⟩ := hstated.2 coldTray _ t pinFallen_heldCold hstep
  have hlen := hout.imp (congrArg List.length) (congrArg List.length)
  simp only [htwo, List.length_cons] at hlen
  omega

end Sys2Proof.Slice0

/-! Running the queue: a step runs the command in front, and every command goes through. -/

namespace Sys2Proof.Slice0

open Sys2Proof.Machine

/-- Settles O1: a step takes the front of the queue by its definition. -/
theorem stepRunsFrontCommand : Obligations.StepRunsFrontCommand := fun _ _ _ => rfl

/-- Settles O3, from all that a command can do. -/
theorem everyCommandAnswersANextState : Obligations.EveryCommandAnswersANextState := by
  intro c s
  obtain ⟨l, t, hexec⟩ := exec_next c s
  exact ⟨_, hexec, rfl⟩

/-- Settles O4, by induction on the commands: each one leaves the queue behind it, so the next one finds what the list run alone finds. -/
theorem queueRunsFirstInFirstOut : Obligations.QueueRunsFirstInFirstOut := by
  intro cs rest s
  induction cs generalizing s with
  | nil => rfl
  | cons c cs ih =>
    obtain ⟨F, G, hexec, -, -⟩ := exec_acts c
    simp only [List.length_cons, List.cons_append, State.run, State.runAll, stepRunsFrontCommand c, hexec]
    exact ih ⟨F s.leaf, G s.tray, s.pending⟩

end Sys2Proof.Slice0

/-! What a command answers, read off its own arm: every arm is one of a few conditionals on how its build is held, and on the ladder of the T build (R365, R374). -/

namespace Sys2Proof.Machine

variable {u : Blk} {s t t' : State} {x y : Host.Outcome State Fault Refusal}

theorem next_of_free (h : u.held = none) : (.next (if u.held.isSome then s else t) : Host.Outcome State Fault Refusal) = .next t :=
  congrArg _ (if_neg (by simp only [h, Option.isSome_none, Bool.false_eq_true, not_false_eq_true]))

theorem next_of_held (h : u.held ≠ none) : (.next (if u.held.isSome then s else t) : Host.Outcome State Fault Refusal) = .next s :=
  congrArg _ (if_pos (Option.isSome_iff_ne_none.mpr h))

/-- A warm reset lets these commands through (R373). -/
theorem next_of_not_cold (h : u.held ≠ some .cold) :
    (.next (if u.held = some .cold then s else t) : Host.Outcome State Fault Refusal) = .next t := congrArg _ (if_neg h)

theorem next_of_warm (hcold : u.held ≠ some .cold) (hheld : u.held ≠ none) :
    (.next (if u.held = some .cold then s else if u.held.isSome then t else t') : Host.Outcome State Fault Refusal) = .next t :=
  (next_of_not_cold hcold).trans (next_of_held hheld)

/-- Driver software reaches a T build whose ladder has opened its registers. -/
theorem next_of_open (hstep : 2 ≤ u.pw.step) (h : u.held = none) :
    (if 2 ≤ u.pw.step then .next (if u.held.isSome then s else t) else y : Host.Outcome State Fault Refusal) = .next t :=
  (if_pos hstep).trans (next_of_free h)

theorem next_of_closed (hstep : u.pw.step < 2) :
    (if 2 ≤ u.pw.step then x else .next s : Host.Outcome State Fault Refusal) = .next s := if_neg (Nat.not_le.mpr hstep)

end Sys2Proof.Machine

namespace Sys2Proof.Slice0

open Sys2Proof.Machine

/-- Settles O50, by how the build is held and by the ladder: in each case all arms are the same conditional. -/
theorem registerAndTimeCommandsComplete : Obligations.RegisterAndTimeCommandsComplete := by
  intro s
  refine ⟨fun hfree => ?_, fun hfree => ?_, fun ⟨hfree, hstep⟩ => ?_, fun hstep => ?_⟩
  · and_intros <;> intros <;> exact next_of_free hfree
  · and_intros <;> intros <;> exact next_of_free hfree
  · and_intros <;> intros <;> exact next_of_open (hstep rfl) hfree
  · and_intros <;> intros <;> exact next_of_closed hstep

/-- Settles O51, by how the build is held: a warm reset lets the counter ring go on, and a held leaf takes low-power levels. -/
theorem counterAndTraceCommandsComplete : Obligations.CounterAndTraceCommandsComplete := by
  intro s
  refine ⟨fun hfree => ?_, fun hfree _ => next_of_free hfree, fun _ hwarm => next_of_not_cold hwarm, fun _ _ _ _ hwarm => next_of_not_cold hwarm,
    fun _ _ hwarm => next_of_not_cold hwarm, fun _ hwarm => next_of_not_cold hwarm, fun _ hheld => next_of_held hheld, fun _ hheld => next_of_held hheld⟩
  and_intros <;> intros <;> exact next_of_free hfree

/-- Settles O52, by how the build is held and by the ladder; a warm reset lets the count of powered time go on. -/
theorem recordAndHistoryCommandsComplete : Obligations.RecordAndHistoryCommandsComplete := by
  intro s
  refine ⟨fun hfree => ?_, fun hfree => ?_, fun ⟨hfree, hstep⟩ => ?_, fun hstep => ?_, fun hwarm => next_of_not_cold hwarm,
    fun hheld hwarm => next_of_warm hwarm hheld, fun _ hwarm => next_of_not_cold hwarm, fun _ hheld hwarm => next_of_warm hwarm hheld⟩
  · and_intros <;> intros <;> exact next_of_free hfree
  · and_intros
    on_goal 8 => exact fun codes => onPowered_tray id (fun t => t.blk (fun u => u.operatingSecond codes)) hfree
    on_goal 6 => exact onPowered_tray id (fun t => t.blk (fun u => u.operatingMinute)) hfree
    all_goals intros; exact next_of_free hfree
  · and_intros <;> intros <;> exact next_of_open (hstep rfl) hfree
  · and_intros <;> intros <;> exact next_of_closed hstep

/-- Settles O53, by how the build is held: a held leaf takes idle levels and the answers of reset domains. -/
theorem kilnAndSnapshotCommandsComplete : Obligations.KilnAndSnapshotCommandsComplete := by
  intro s
  refine ⟨fun hfree => ?_, fun hfree _ _ _ => next_of_free hfree, fun _ _ _ hheld => next_of_held hheld, fun _ _ _ hheld => next_of_held hheld⟩
  and_intros <;> intros <;> exact next_of_free hfree

/-- Settles O54, by how the build is held and by the ladder. -/
theorem linkCommandsComplete : Obligations.LinkCommandsComplete := by
  intro s
  refine ⟨fun hfree => ?_, fun hfree => ?_, fun ⟨hfree, hstep⟩ => ?_, fun hstep => ?_⟩
  · and_intros <;> intros <;> exact next_of_free hfree
  · and_intros <;> intros <;> exact next_of_free hfree
  · and_intros <;> intros <;> exact next_of_open (hstep rfl) hfree
  · and_intros <;> intros <;> exact next_of_closed hstep

/-- Settles O55, by how the build is held and by the ladder; the scrub goes on in a held build. -/
theorem tierAndQueueCommandsComplete : Obligations.TierAndQueueCommandsComplete := by
  intro s
  refine ⟨fun hfree => ?_, fun ⟨hfree, hstep⟩ => ?_, fun hstep => ?_, fun _ _ _ hheld => next_of_held hheld⟩
  · and_intros <;> intros <;> exact next_of_free hfree
  · and_intros <;> intros <;> exact next_of_open (hstep rfl) hfree
  · and_intros <;> intros <;> exact next_of_closed hstep

/-- Settles O56: every arm is a command of the tray build alone. -/
theorem transactionCommandsComplete : Obligations.TransactionCommandsComplete := by
  intro s hfree
  and_intros <;> intros <;> exact next_of_free hfree

/-- Settles O57, by how the build is held and by the ladder; a held leaf takes the levels of containment acknowledges. -/
theorem panAndHealthCommandsComplete : Obligations.PanAndHealthCommandsComplete := by
  intro s
  refine ⟨fun hfree => ?_, fun hfree => ?_, fun ⟨hfree, hstep⟩ => ?_, fun hstep => ?_, fun _ _ hheld => next_of_held hheld⟩
  · and_intros <;> intros <;> exact next_of_free hfree
  · and_intros <;> intros <;> exact next_of_free hfree
  · and_intros <;> intros <;> exact next_of_open (hstep rfl) hfree
  · and_intros <;> intros <;> exact next_of_closed hstep

/-- Settles O58, by how the build is held and by the ladder. -/
theorem eventAndCompressionCommandsComplete : Obligations.EventAndCompressionCommandsComplete := by
  intro s
  refine ⟨fun hfree => ?_, fun hfree => ?_, fun ⟨hfree, hstep⟩ => ?_, fun hstep => ?_⟩
  · and_intros <;> intros <;> exact next_of_free hfree
  · and_intros <;> intros <;> exact next_of_free hfree
  · and_intros <;> intros <;> exact next_of_open (hstep rfl) hfree
  · and_intros <;> intros <;> exact next_of_closed hstep

/-- Settles O59, by how the build is held and by the ladder; supply codes, temperatures and releases reach a held build, and a cold reset all but one held cold. -/
theorem jobAndPowerCommandsComplete : Obligations.JobAndPowerCommandsComplete := by
  intro s
  refine ⟨fun hfree => ?_, fun hfree => ?_, fun ⟨hfree, hstep⟩ => ?_, fun hstep => ?_, fun _ _ => rfl, fun _ _ hheld => next_of_held hheld,
    fun _ _ _ => rfl, fun _ _ _ hheld => next_of_held hheld, fun hwarm => next_of_not_cold hwarm, fun hheld hwarm => next_of_warm hwarm hheld,
    fun _ hwarm => next_of_not_cold hwarm, fun _ hwarm => next_of_not_cold hwarm, fun _ _ _ => rfl, fun _ _ _ => rfl,
    fun _ _ hheld => next_of_held hheld, fun _ _ hheld => next_of_held hheld, fun _ _ hheld => next_of_held hheld⟩
  · and_intros <;> intros <;> exact next_of_free hfree
  · and_intros
    on_goal 24 => exact onPowered_tray id (fun t => t.blk (fun u => u.warningLong)) hfree
    all_goals intros; exact next_of_free hfree
  · exact ⟨next_of_open (hstep rfl) hfree, next_of_open (hstep rfl) hfree⟩
  · exact ⟨next_of_closed hstep, next_of_closed hstep⟩

/-- Settles O60, by how the build is held and by the ladder. -/
theorem errorAndIdentityCommandsComplete : Obligations.ErrorAndIdentityCommandsComplete := by
  intro s
  refine ⟨fun hfree => ?_, fun hfree => ?_, fun ⟨hfree, hstep⟩ => ?_, fun hstep => ?_⟩
  · and_intros <;> intros <;> exact next_of_free hfree
  · and_intros <;> intros <;> exact next_of_free hfree
  · and_intros <;> intros <;> exact next_of_open (hstep rfl) hfree
  · and_intros <;> intros <;> exact next_of_closed hstep

end Sys2Proof.Slice0

/-! Power, identity and time through the recorder, causes, messages and the history's flash work: none of these moves them. -/

namespace Sys2Proof.Machine

/-- The time bases, the power state and the identity of a build. -/
def Blk.core (u : Blk) : Clock × Power × Identity := (u.clk, u.pw, u.idn)

theorem clk_of_core {u v : Blk} (h : v.core = u.core) : v.clk = u.clk := congrArg Prod.fst h
theorem pw_of_core {u v : Blk} (h : v.core = u.core) : v.pw = u.pw := congrArg (fun x => x.2.1) h
theorem idn_of_core {u v : Blk} (h : v.core = u.core) : v.idn = u.idn := congrArg (fun x => x.2.2) h

@[simp] theorem modReg_core (u : Blk) (k : Nat) (f : W32 → W32) : (u.modReg k f).core = u.core := rfl
@[simp] theorem setN_core (u : Blk) (k v : Nat) : (u.setN k v).core = u.core := rfl
@[simp] theorem setRb_core (u : Blk) (k i : Nat) (b : Bool) : (u.setRb k i b).core = u.core := rfl
@[simp] theorem bump_core (u : Blk) (k : Nat) : (u.bump k).core = u.core := rfl
@[simp] theorem emit_core (u : Blk) (o : Out) : (u.emit o).core = u.core := rfl
@[simp] theorem takeSeq_core (u : Blk) : u.takeSeq.core = u.core := rfl
@[simp] theorem modPort_core (u : Blk) (p : Nat) (f : Port → Port) : (u.modPort p f).core = u.core := rfl
theorem core_his (u : Blk) (h : History) : ({ u with his := h } : Blk).core = u.core := rfl
theorem core_rcd (u : Blk) (r : Recorder) : ({ u with rcd := r } : Blk).core = u.core := rfl

/-! ### Causes -/

@[simp] theorem msixSend_core (u : Blk) (v : Nat) : (u.msixSend v).core = u.core := by
  simp only [Blk.msixSend, apply_ite Blk.core, setRb_core, emit_core, ite_self]

@[simp] theorem errInterrupt_core (u : Blk) : u.errInterrupt.core = u.core := by
  unfold Blk.errInterrupt
  split
  · rfl
  · exact msixSend_core _ _

@[simp] theorem fillFirst_core (u : Blk) (p i : Nat) : (u.fillFirst p i).core = u.core := by
  simp only [Blk.fillFirst, apply_ite Blk.core, setN_core, ite_self]

@[simp] theorem causeAt_core (u : Blk) (k p i : Nat) : (u.causeAt k p i).core = u.core := by
  simp only [Blk.causeAt, apply_ite Blk.core, errInterrupt_core, fillFirst_core, setRb_core, ite_self]

@[simp] theorem cause_core (u : Blk) (p n i : Nat) : (u.cause p n i).core = u.core := by
  simp only [Blk.cause, apply_ite Blk.core, causeAt_core, ite_self]

/-! ### The recorder and its feed to the history -/

@[simp] theorem createRam_core (u : Blk) (d : Rec) (o : Bool) : (u.createRam d o).1.core = u.core := by
  simp only [Blk.createRam, apply_ite Blk.core, cause_core, bump_core, core_rcd, takeSeq_core, ite_self]

@[simp] theorem hisOwn_core (u : Blk) (k : RecKind) (p : BitVec 160) (role : HRole) : (u.hisOwn k p role).1.core = u.core := by
  simp only [Blk.hisOwn, core_his, createRam_core]

@[simp] theorem hisQueue_core (u : Blk) (k : RecKind) (p : BitVec 160) (role : HRole) : (u.hisQueue k p role).core = u.core := by
  simp only [Blk.hisQueue, core_his, hisOwn_core]

@[simp] theorem headerDue_core (u : Blk) : u.headerDue.core = u.core := by
  simp only [Blk.headerDue, Blk.queueHeader, apply_ite Blk.core, hisQueue_core, ite_self]

@[simp] theorem hisStage_core (u : Blk) (r : Rec) : (u.hisStage r).1.core = u.core := by
  unfold Blk.hisStage
  extract_lets h
  split
  · exact headerDue_core _
  · exact cause_core _ _ _ _

@[simp] theorem hisTick_core (u : Blk) (r : Rec) : (u.hisTick r).core = u.core := by
  unfold Blk.hisTick
  split
  · exact hisStage_core u _
  · split
    · rfl
    · exact hisStage_core u _

@[simp] theorem hisFeed_core (u : Blk) (r : Rec) : (u.hisFeed r).1.core = u.core := by
  unfold Blk.hisFeed
  split
  · split
    · split
      · exact hisTick_core u r
      · exact hisStage_core u r
    · exact hisStage_core u r
  · rfl

@[simp] theorem create_core (u : Blk) (d : Rec) (o : Bool) : (u.create d o).core = u.core :=
  (hisFeed_core _ _).trans (createRam_core u d o)

@[simp] theorem reported_core (u : Blk) (d : Rec) : (u.reported d).core = u.core := by
  unfold Blk.reported
  split
  · split
    · simp only [apply_ite Blk.core, hisTick_core, core_rcd, ite_self]
    · exact create_core u d false
  · exact create_core u d false

@[simp] theorem report_core (u : Blk) (k : RecKind) (src : StampSrc) (p : BitVec 160) : (u.report k src p).core = u.core := by
  unfold Blk.report
  extract_lets d
  split
  · rfl
  · exact reported_core u d

/-! ### Messages -/

@[simp] theorem fire_core (u : Blk) (p n i : Nat) (m : Bool) : (u.fire p n i m).core = u.core := by
  unfold Blk.fire
  extract_lets sel reported fired
  have hfired : fired.core = u.core := (cause_core _ _ _ _).trans ((bump_core _ _).trans (report_core u _ _ _))
  split
  · exact hfired
  · exact (setRb_core _ _ _ _).trans hfired

@[simp] theorem commit_core (u : Blk) (p q : Nat) (m : Msg) : (u.commit p q m).core = u.core := by
  have hcount : (if m.launch.isSome && u.launched m then u.bump (inst R.SCH_LATE p) else u).core = u.core := by
    split
    · exact bump_core u _
    · rfl
  unfold Blk.commit
  extract_lets inj late counted queued
  split
  · exact (fire_core _ _ _ _ _).trans ((modPort_core _ _ _).trans hcount)
  · exact (modPort_core _ _ _).trans hcount

@[simp] theorem enqueue_core (u : Blk) (p q : Nat) (m : Msg) : (u.enqueue p q m).core = u.core := by
  simp only [Blk.enqueue, apply_ite Blk.core, commit_core, modPort_core, ite_self]

@[simp] theorem sendUp_core (u : Blk) (code : Nat) (rest : List Byte) : (u.sendUp code rest).core = u.core := enqueue_core _ _ _ _

/-- A hello goes out, before the wait for its answer begins (R367). -/
def Blk.helloOut (u : Blk) : Blk :=
  let e := nextEpoch (u.link u.parentLink).epoch
  (u.modLink u.parentLink (fun l => { l with handshake := some e })).sendUp 8 (u.helloRest 0 e)

theorem helloOut_core (u : Blk) : u.helloOut.core = u.core := sendUp_core _ _ _

/-- A hello moves neither time nor the identity, and of the power state only the handshake's wait (R367). -/
theorem sendHello_keeps (u : Blk) : u.sendHello.clk = u.clk ∧ u.sendHello.idn = u.idn ∧ u.sendHello.pw.warning = u.pw.warning ∧
    u.sendHello.pw.parked = u.pw.parked ∧ u.sendHello.pw.parkPend = u.pw.parkPend := by
  have hclk : u.helloOut.clk = u.clk := clk_of_core (helloOut_core u)
  have hidn : u.helloOut.idn = u.idn := idn_of_core (helloOut_core u)
  have hpw : u.helloOut.pw = u.pw := pw_of_core (helloOut_core u)
  refine ⟨hclk, hidn, ?_, ?_, ?_⟩ <;> rw [← hpw] <;> rfl

theorem helloCheck_keeps (u : Blk) : u.helloCheck.clk = u.clk ∧ u.helloCheck.idn = u.idn ∧ u.helloCheck.pw.warning = u.pw.warning ∧
    u.helloCheck.pw.parked = u.pw.parked ∧ u.helloCheck.pw.parkPend = u.pw.parkPend := by
  unfold Blk.helloCheck
  split
  · exact sendHello_keeps u
  · exact ⟨rfl, rfl, rfl, rfl, rfl⟩

/-! ### Flash work of the history (R111 to R116) -/

@[simp] theorem suspendErase_core (u : Blk) : u.suspendErase.core = u.core := by
  unfold Blk.suspendErase
  extract_lets h
  split
  · simp only [apply_ite Blk.core, core_his, ite_self]
  · rfl

@[simp] theorem takeHeader_core (u : Blk) : u.takeHeader.1.core = u.core := by
  unfold Blk.takeHeader
  split
  · rfl
  · exact hisOwn_core _ _ _ _

@[simp] theorem openBlock_core (u : Blk) : u.openBlock.core = u.core := by
  simp only [Blk.openBlock, Blk.clearBlock, core_his, takeHeader_core]

@[simp] theorem takeItem_core (u : Blk) : u.takeItem.core = u.core := by
  unfold Blk.takeItem
  extract_lets h
  split
  · rfl
  · simp only [apply_ite Blk.core, core_his, openBlock_core, ite_self]

@[simp] theorem nextFlash_core (u : Blk) : u.nextFlash.core = u.core := by
  unfold Blk.nextFlash
  extract_lets h v
  have hv : v.core = u.core := takeItem_core u
  split
  · rfl
  · rfl
  · simp only [apply_ite Blk.core, core_his, takeItem_core, ite_self]
  · split
    · exact hv
    · exact hv

@[simp] theorem lostNoteDue_core (u : Blk) : u.lostNoteDue.core = u.core := by
  simp only [Blk.lostNoteDue, apply_ite Blk.core, headerDue_core, hisQueue_core, core_his, ite_self]

@[simp] theorem flashStart_core (u : Blk) : u.flashStart.core = u.core := by
  unfold Blk.flashStart
  extract_lets h v w
  have hv : v.core = u.core := by simp only [v, apply_ite Blk.core, core_his, ite_self]
  have hw : w.core = u.core := (suspendErase_core v).trans hv
  split
  · rfl
  · rw [lostNoteDue_core]
    split
    · exact hw
    · exact (nextFlash_core w).trans hw

@[simp] theorem formatNow_core (u : Blk) : u.formatNow.core = u.core := by
  unfold Blk.formatNow
  extract_lets size kept h h' r v
  have hv : v.core = u.core := hisOwn_core _ _ _ _
  rw [flashStart_core]
  split
  · exact (headerDue_core _).trans ((hisQueue_core _ _ _ _).trans hv)
  · exact hv

@[simp] theorem flashGo_core (u : Blk) : u.flashGo.core = u.core := by
  simp only [Blk.flashGo, apply_ite Blk.core, formatNow_core, flashStart_core, ite_self]

end Sys2Proof.Machine

/-! Causes (R383, R442): the page's bit, and what `ERR.FIRST` keeps. -/

namespace Sys2Proof.Machine

theorem getD_lt {l : List Nat} {m : Nat} (hl : ∀ x ∈ l, x < m) (hm : 0 < m) (n : Nat) : l.getD n 0 < m := by
  rw [List.getD_eq_getElem?_getD]
  cases h : l[n]? with
  | none => exact hm
  | some x => exact hl x (List.mem_of_getElem? h)

theorem ite_lt {c : Prop} [Decidable c] {a b m : Nat} (ha : a < m) (hb : b < m) : (if c then a else b) < m := by
  split
  · exact ha
  · exact hb

/-- No page has a cause beyond bit 5 (R442, R448, R449). -/
theorem pgCauses_lt (b : Build) (p : Nat) : pgCauses b p < 64 := by
  cases b with
  | leaf => exact getD_lt (by decide) (by decide) p
  | tray =>
    have hblocks := getD_lt (l := [0x03, 0x0F, 0x01, 0x00, 0x1F, 0x07, 0x07, 0x0F, 0x07, 0x01, 0x3F, 0x1F, 0x03, 0x03]) (m := 64) (by decide)
      (by decide) (p - 0x20)
    iterate 13 refine ite_lt (by decide) ?_
    exact ite_lt hblocks (by decide)

theorem cause_index_lt {b : Build} {p i : Nat} (h : Nat.testBit (pgCauses b p) i = true) : i < 6 := by
  by_contra hge
  have hpow : 2 ^ 6 ≤ 2 ^ i := Nat.pow_le_pow_right (by decide) (Nat.le_of_not_lt hge)
  rw [Nat.testBit_lt_two_pow (Nat.lt_of_lt_of_le (pgCauses_lt b p) hpow)] at h
  cases h

/-- The words of TB0 as registers hold them. -/
theorem ns_words (c : Clock) : BitVec.ofNat 32 c.ns.toNat = c.tb.extractLsb' 32 32 ∧
    BitVec.ofNat 32 (c.ns.toNat / 2 ^ 32) = c.tb.extractLsb' 64 32 := by
  constructor <;> apply BitVec.eq_of_toNat_eq <;>
    simp only [Clock.ns, BitVec.toNat_ofNat, BitVec.extractLsb'_toNat, Nat.shiftRight_eq_div_pow] <;> omega

/-- The error interrupt writes no register of a page: the pending bits of MSI-X have keys of their own. -/
theorem errInterrupt_page_reg (u : Blk) {j : Nat} (h : j % 0x1000 ≠ 1) : u.errInterrupt.reg j = u.reg j := by
  unfold Blk.errInterrupt
  split
  · rfl
  · unfold Blk.msixSend
    split
    · exact reg_setRb_ne u _ _ (by rw [pbaKey]; omega)
    · rfl

section

variable {u : Blk} {k page i : Nat}

theorem causeAt_masked (h : u.rb (k + 4) i = true) : u.causeAt k page i = u.setRb k i true := by
  have hmask : (u.setRb k i true).rb (k + 4) i = true := by
    rw [Blk.rb, reg_setRb_ne u i true (by omega)]
    exact h
  simp only [Blk.causeAt, hmask, if_true]

/-- An unmasked cause goes on to `ERR.FIRST`, and may raise the error interrupt, which leaves the registers of pages. -/
theorem causeAt_unmasked_reg (h : u.rb (k + 4) i = false) {j : Nat} (hj : j % 0x1000 ≠ 1) :
    (u.causeAt k page i).reg j = ((u.setRb k i true).fillFirst page i).reg j := by
  have hmask : (u.setRb k i true).rb (k + 4) i = false := by
    rw [Blk.rb, reg_setRb_ne u i true (by omega)]
    exact h
  simp only [Blk.causeAt, hmask, Bool.false_eq_true, if_false, apply_ite (fun v => Blk.reg v j), errInterrupt_page_reg _ hj, ite_self]

theorem fillFirst_filled (h : u.rb R.ERR_FIRST 31 = true) : u.fillFirst page i = u := if_pos h

theorem fillFirst_empty (h : u.rb R.ERR_FIRST 31 = false) :
    (u.fillFirst page i).reg R.ERR_FIRST = BitVec.ofNat 32 (firstCode page i) ∧
    (u.fillFirst page i).reg R.ERR_FIRSTT_L = u.clk.tb.extractLsb' 32 32 ∧
    (u.fillFirst page i).reg R.ERR_FIRSTT_H = u.clk.tb.extractLsb' 64 32 := by
  obtain ⟨hlow, hhigh⟩ := ns_words u.clk
  have hfill : u.fillFirst page i = _ := if_neg (by rw [h]; exact Bool.false_ne_true)
  rw [hfill, ← hlow, ← hhigh]
  refine ⟨?_, ?_, reg_setReg_same _ _ _⟩
  · exact (reg_setReg_ne _ _ (by decide)).trans ((reg_setReg_ne _ _ (by decide)).trans (reg_setReg_same _ _ _))
  · exact (reg_setReg_ne _ _ (by decide)).trans (reg_setReg_same _ _ _)

end

/-- A cause's own bit, whatever its page and copy and whatever the mask (R383). -/
theorem bit_causeAt_same (u : Blk) {k i : Nat} (page : Nat) (hk : k % 0x1000 = 0x14) (hi : i < 32) :
    bit ((u.causeAt k page i).reg k) i = true := by
  have hset : bit ((u.setRb k i true).reg k) i = true := by
    rw [reg_setRb_same, bit_setBit, if_pos rfl, decide_eq_true hi, Bool.true_and]
  cases hmask : u.rb (k + 4) i with
  | true => rwa [causeAt_masked hmask]
  | false =>
    have hfirst : k ∉ [R.ERR_FIRST, R.ERR_FIRSTT_L, R.ERR_FIRSTT_H] := by
      simp only [List.mem_cons, List.not_mem_nil, or_false, R.ERR_FIRST, R.ERR_FIRSTT_L, R.ERR_FIRSTT_H]
      omega
    rwa [causeAt_unmasked_reg hmask (by omega), fillFirst_reg _ _ _ hfirst]

end Sys2Proof.Machine

namespace Sys2Proof.Slice0

open Sys2Proof.Machine

theorem onlyRegs_setRb (u : Blk) (k i : Nat) (b : Bool) : OnlyRegs u (u.setRb k i b) [k] :=
  ⟨rfl, fun _ hj => reg_setRb_ne u i b (fun h => hj (List.mem_singleton.mpr h))⟩

/-- Settles O47: the cause's bit is written first, then, by the mask and by what `ERR.FIRST` holds, `ERR.FIRST` with its time. -/
theorem causeSetsItsBitAndFillsErrFirst : Obligations.CauseSetsItsBitAndFillsErrFirst := by
  intro u p n i hhas v key
  have hkey : key % 0x1000 = 0x14 := by simp only [key, inst]; omega
  have hv : v = u.causeAt key (pageNo u.build p n) i := if_pos hhas
  have hframe : v.frame = u.frame := cause_frame u p n i
  have hne : ∀ {j}, j % 0x1000 ≠ 0x14 → (u.setRb key i true).reg j = u.reg j := fun hj =>
    reg_setRb_ne u i true (fun h => hj (h ▸ hkey))
  have hfirst : (u.setRb key i true).rb R.ERR_FIRST 31 = bit (u.reg R.ERR_FIRST) 31 := congrArg (bit · 31) (hne (by decide))
  refine ⟨?_, clk_of_frame hframe, cause_rcd u p n i, steps_of_frame hframe, fun hmask => ?_, fun hmask hempty => ?_, fun hfilled => ?_⟩
  · rw [hv]
    exact bit_causeAt_same u _ hkey (Nat.lt_trans (cause_index_lt hhas) (by decide))
  · rw [hv, causeAt_masked hmask]
    exact onlyRegs_setRb u key i true
  · rw [hv, causeAt_unmasked_reg hmask (by decide), causeAt_unmasked_reg hmask (by decide), causeAt_unmasked_reg hmask (by decide)]
    rw [← Blk.setRb_clk u key i true]
    exact fillFirst_empty (hfirst.trans hempty)
  · cases hmask : u.rb (key + 4) i with
    | true =>
      rw [hv, causeAt_masked hmask]
      exact ⟨hne (by decide), hne (by decide)⟩
    | false =>
      rw [hv, causeAt_unmasked_reg hmask (by decide), causeAt_unmasked_reg hmask (by decide), fillFirst_filled (hfirst.trans hfilled)]
      exact ⟨hne (by decide), hne (by decide)⟩

end Sys2Proof.Slice0

/-! The arming sequence of injections (R390): what a write of `PGINJ` and of `PGINJSEL` leaves. -/

namespace Sys2Proof.Machine

/-- A fold in which one element of the list acts on what `p` reads, and every other leaves it. -/
theorem foldl_one_acts {α β γ : Type} (p : α → γ) (f : α → β → α) (g : γ → γ) {b : β} (hat : ∀ a, p (f a b) = g (p a)) (l : List β)
    (hb : b ∈ l) (hl : l.Nodup) (hne : ∀ a, ∀ c ∈ l, c ≠ b → p (f a c) = p a) (a : α) : p (l.foldl f a) = g (p a) := by
  have hrest : ∀ t : List β, b ∉ t → (∀ a, ∀ c ∈ t, c ≠ b → p (f a c) = p a) → ∀ a, p (t.foldl f a) = p a := by
    intro t
    induction t with
    | nil => exact fun _ _ _ => rfl
    | cons c t ih =>
      intro hmem hkeep a
      obtain ⟨hc, ht⟩ := not_or.mp (List.mem_cons.not.mp hmem)
      rw [List.foldl_cons, ih ht (fun a d hd => hkeep a d (.tail _ hd)), hkeep a c (.head _) (Ne.symm hc)]
  induction l generalizing a with
  | nil => cases hb
  | cons c t ih =>
    obtain ⟨hc, ht⟩ := List.nodup_cons.mp hl
    rw [List.foldl_cons]
    by_cases hcb : c = b
    · subst hcb
      rw [hrest t hc (fun a d hd => hne a d (.tail _ hd)), hat]
    · rw [ih ((List.mem_cons.mp hb).resolve_left (Ne.symm hcb)) ht (fun a d hd => hne a d (.tail _ hd)), hne a c (.head _) hcb]

/-- The requirements of R389 and R390 for arming a bit of a page. -/
def Blk.mayArm (u : Blk) (p n : Nat) : Bool := u.stage p n = 2 && u.rb R.BLK_DBG 0 && u.rb (headKey p n H.PGCTL) 0

/-- What a write of `PGINJ` does for bit `i` of the page. -/
def Blk.armBit (u : Blk) (p n : Nat) (w : W32) (a : Blk × List Nat) (i : Nat) : Blk × List Nat :=
  if !Nat.testBit (pgCauses u.build p) i then a
  else if !bit w i then (a.1.setRb (headKey p n H.PGINJ) i false, a.2)
  else if u.mayArm p n && Nat.testBit (pgInj u.build p) i then
    let v := a.1.setRb (headKey p n H.PGINJ) i true
    if firesAtOnce u.build p i then (v.fire p n i true, a.2 ++ [i]) else (v, a.2)
  else (a.1.bump R.ERR_INJREF, a.2)

theorem injArm_eq (u : Blk) (p n : Nat) (w : W32) : u.injArm p n w =
    (((List.range 8).foldl (u.armBit p n w) (u, [])).1.setStage p n 0, ((List.range 8).foldl (u.armBit p n w) (u, [])).2) := rfl

section

variable {u : Blk} {p n i j : Nat} {w : W32}

theorem armBit_refused (hcause : Nat.testBit (pgCauses u.build p) i = true) (hw : bit w i = true) (hno : u.mayArm p n = false)
    (a : Blk × List Nat) : u.armBit p n w a i = (a.1.bump R.ERR_INJREF, a.2) := by
  simp only [Blk.armBit, hcause, hw, hno, Bool.not_true, Bool.false_and, Bool.false_eq_true, if_false]

theorem armBit_zero (hw : bit w j = false) (a : Blk × List Nat) :
    u.armBit p n w a j = a ∨ u.armBit p n w a j = (a.1.setRb (headKey p n H.PGINJ) j false, a.2) := by
  simp only [Blk.armBit, hw, Bool.not_false, if_true]
  split
  · exact .inl rfl
  · exact .inr rfl

/-- What the refused write of a bit is judged by: the bit, `ERR.INJREF`, and the injections that fire at once. -/
def armState (p n i : Nat) (a : Blk × List Nat) : Bool × W32 × List Nat := (a.1.armed p n i, a.1.reg R.ERR_INJREF, a.2)

theorem injref_ne_header (p n : Nat) {o : Nat} (h : o < 0x40) : R.ERR_INJREF ≠ inst (p * 0x1000 + o) n := by
  simp only [inst, R.ERR_INJREF]
  omega

theorem armState_refused (hcause : Nat.testBit (pgCauses u.build p) i = true) (hw : bit w i = true) (hno : u.mayArm p n = false)
    (a : Blk × List Nat) :
    armState p n i (u.armBit p n w a i) = ((armState p n i a).1, satInc32 (armState p n i a).2.1, (armState p n i a).2.2) := by
  have hinj : inst (p * 0x1000 + H.PGINJ) n ≠ R.ERR_INJREF := (injref_ne_header p n (by decide)).symm
  simp only [armBit_refused hcause hw hno, armState, Blk.armed, Blk.rb, Blk.bump, Blk.modReg, reg_setReg_ne _ _ hinj, reg_setReg_same]

theorem armState_zero (hw : bit w j = false) (hij : i ≠ j) (a : Blk × List Nat) : armState p n i (u.armBit p n w a j) = armState p n i a := by
  have href := reg_setRb_ne a.1 j false (injref_ne_header p n (o := H.PGINJ) (by decide))
  obtain h | h := armBit_zero (u := u) (p := p) (n := n) hw a
  · rw [h]
  · simp only [h, armState, Blk.armed, Blk.rb, reg_setRb_same, bit_setBit, if_neg hij, href]

theorem stage_setStage (u : Blk) (p n v : Nat) : (u.setStage p n v).stage p n = v := smGet_set_same _ _ _ _
theorem stage_setReg (u : Blk) (k : Nat) (v : W32) (p n : Nat) : (u.setReg k v).stage p n = u.stage p n := rfl
theorem reg_setStage (u : Blk) (p n v k : Nat) : (u.setStage p n v).reg k = u.reg k := rfl
theorem armed_setStage (u : Blk) (p n v p' n' i : Nat) : (u.setStage p n v).armed p' n' i = u.armed p' n' i := rfl

theorem bit_two_pow (i : Nat) {j : Nat} (hj : j < 32) : bit (BitVec.ofNat 32 (2 ^ i)) j = decide (i = j) := by
  rw [bit, BitVec.getLsbD_ofNat, Nat.testBit_two_pow, decide_eq_true hj, Bool.true_and]

/-- A write of a 1 to one bit of `PGINJ` where R389 or R390 is not met: the bit stays, and the refusal is counted. -/
theorem armBits_refused (hcause : Nat.testBit (pgCauses u.build p) i = true) (hi : i < 8) (hno : u.mayArm p n = false) :
    armState p n i ((List.range 8).foldl (u.armBit p n (BitVec.ofNat 32 (2 ^ i))) (u, [])) =
      (u.armed p n i, satInc32 (u.reg R.ERR_INJREF), []) :=
  foldl_one_acts (armState p n i) _ (fun x => (x.1, satInc32 x.2.1, x.2.2))
    (armState_refused hcause ((bit_two_pow i (by omega)).trans (decide_eq_true rfl)) hno) _ (List.mem_range.mpr hi) List.nodup_range
    (fun a j hj hji => armState_zero ((bit_two_pow i (Nat.lt_trans (List.mem_range.mp hj) (by decide))).trans (decide_eq_false (Ne.symm hji)))
      (Ne.symm hji) a) (u, [])

theorem injArm_refused (hcause : Nat.testBit (pgCauses u.build p) i = true) (hi : i < 8) (hno : u.mayArm p n = false) :
    (u.injArm p n (BitVec.ofNat 32 (2 ^ i))).2 = [] ∧ (u.injArm p n (BitVec.ofNat 32 (2 ^ i))).1.armed p n i = u.armed p n i ∧
    (u.injArm p n (BitVec.ofNat 32 (2 ^ i))).1.reg R.ERR_INJREF = satInc32 (u.reg R.ERR_INJREF) := by
  have hbits := armBits_refused hcause hi hno
  simp only [armState, Prod.mk.injEq] at hbits
  obtain ⟨harm, href, hfires⟩ := hbits
  rw [injArm_eq]
  exact ⟨hfires, (armed_setStage _ _ _ _ _ _ _).trans harm, (reg_setStage _ _ _ _ _).trans href⟩

theorem injArm_stage (u : Blk) (p n : Nat) (w : W32) : (u.injArm p n w).1.stage p n = 0 := stage_setStage _ p n 0

end

/-! ### The keys -/

/-- A write of `PGINJSEL` takes the parameter and arms nothing. -/
theorem injKey_armed (u : Blk) (p n : Nat) (w : W32) (j : Nat) : (u.injKey p n w).armed p n j = u.armed p n j := by
  have hne : inst (p * 0x1000 + H.PGINJ) n ≠ headKey p n H.PGINJSEL := by simp only [headKey, inst, H.PGINJ, H.PGINJSEL]; omega
  have hsel : (u.setReg (headKey p n H.PGINJSEL) (w &&& 0x8FFF#32)).armed p n j = u.armed p n j := by
    rw [Blk.armed, Blk.rb, reg_setReg_ne u _ hne]
    rfl
  unfold Blk.injKey
  extract_lets key v
  split
  · exact (armed_setStage v _ _ _ _ _ _).trans hsel
  · split
    · exact (armed_setStage v _ _ _ _ _ _).trans hsel
    · exact (armed_setStage v _ _ _ _ _ _).trans hsel

theorem injKey_first (u : Blk) (p n : Nat) {w : W32} (h : fld w 16 16 = 0x1A7E) : (u.injKey p n w).stage p n = 1 := by
  simp only [Blk.injKey, h, if_true, stage_setStage]

theorem injKey_second_alone {u : Blk} {p n : Nat} (hstage : u.stage p n ≠ 1) {w : W32} (h : fld w 16 16 = 0x5EED) :
    (u.injKey p n w).stage p n = 0 := by
  have hsel : (u.setReg (headKey p n H.PGINJSEL) (w &&& 0x8FFF#32)).stage p n ≠ 1 := by rwa [stage_setReg]
  simp only [Blk.injKey, h, hsel, Nat.reduceEqDiff, decide_false, Bool.and_false, Bool.false_eq_true, if_false, stage_setStage]

/-! ### Through the leaf's port -/

theorem headAt_quiet {l : Leaf} {p off : Nat} {w : W32} (hp : p < 0x1A) (h : (l.u.headWrite p 0 off w).2 = []) :
    l.headAt p off w = { l with u := (l.u.headWrite p 0 off w).1 } := by
  rw [Leaf.headAt, if_neg (Nat.not_le.mpr hp), Leaf.writeHead, h]
  rfl

end Sys2Proof.Machine

namespace Sys2Proof.Slice0

open Sys2Proof.Machine

theorem headAt_becomes {c : Instr} {s : State} {page : BitVec 8} {off : Nat} {w : W32} (hfree : Free s .leaf) (hp : page.toNat < 0x1A)
    (hexec : exec c s = onLeaf (fun l => l.headAt page.toNat off w) s) (hquiet : (s.leaf.u.headWrite page.toNat 0 off w).2 = []) :
    LeafBecomes c s { s.leaf with u := (s.leaf.u.headWrite page.toNat 0 off w).1 } := by
  rw [← headAt_quiet hp hquiet]
  exact hexec.trans (onLeaf_free _ hfree)

/-- Settles O46: the written 1 is refused at its own bit and the 0s around it reach other bits only; a key writes no `PGINJ`. -/
theorem injectionNeedsBothKeysInOrder : Obligations.InjectionNeedsBothKeysInOrder := by
  intro s page i hfree hp u p
  refine ⟨fun hcause hnot => ?_, ⟨_, headAt_becomes hfree hp rfl rfl, injKey_first u p 0 (by decide), injKey_armed u p 0 _⟩,
    fun hstage => ⟨_, headAt_becomes hfree hp rfl rfl, injKey_second_alone hstage (by decide), injKey_armed u p 0 _⟩⟩
  have hno : u.mayArm p 0 = false := by
    rw [Bool.eq_false_iff]
    simpa only [Blk.mayArm, Blk.rb, ne_eq, Bool.and_eq_true, decide_eq_true_eq, and_assoc] using hnot
  obtain ⟨hfires, harm, href⟩ := injArm_refused (n := 0) hcause i.isLt hno
  exact ⟨_, headAt_becomes hfree hp rfl hfires, harm, href, injArm_stage u p 0 _⟩

end Sys2Proof.Slice0

/-! Measurement and debug mode (R389, R403). -/

namespace Sys2Proof.Machine

theorem extIdx_zero (u : Blk) {w : W32} (h : fld w 0 2 = 0) : u.extIdx w = u := if_pos h

theorem extIdx_extends (u : Blk) {w : W32} (h : fld w 0 2 ≠ 0) : u.extIdx w = u.extend (4 + fld w 0 2) (u.regBytes R.IDN_EXTBUF 12) := if_neg h

theorem extend_m_same (u : Blk) (n : Nat) (d : List Byte) : (u.extend n d).idn.m n = sha384 (digestBytes (u.idn.m n) ++ d) :=
  smGet_set_same _ _ _ _

theorem clk_extend (u : Blk) (n : Nat) (d : List Byte) : (u.extend n d).clk = u.clk := rfl
theorem reg_extend (u : Blk) (n : Nat) (d : List Byte) (k : Nat) : (u.extend n d).reg k = u.reg k := rfl
theorem reg_modLink (u : Blk) (l : Nat) (f : Link → Link) (k : Nat) : (u.modLink l f).reg k = u.reg k := rfl

/-! ### What a hello and the disarming of injections leave of the registers -/

/-- A register that no report, fired injection or committed message writes. -/
def Unsent (j : Nat) : Prop :=
  Unreported j ∧ (∀ p, j ≠ inst R.SCH_LATE p) ∧ j ∉ [R.ERR_INJFIRED, inst (0x15 * 0x1000 + H.PGCAUSE) 0, inst (0x10 * 0x1000 + H.PGINJ) 0]

theorem enqueue_reg (u : Blk) (p q : Nat) (m : Msg) {j : Nat} (hj : Unsent j) : (u.enqueue p q m).reg j = u.reg j := by
  obtain ⟨hrep, hlate, hinj⟩ := hj
  unfold Blk.enqueue
  split
  · exact commit_reg u p q m hrep (hlate p) hinj
  · rfl

theorem helloOut_reg (u : Blk) {j : Nat} (hj : Unsent j) : u.helloOut.reg j = u.reg j :=
  (reg_modLink _ _ _ _).trans ((enqueue_reg _ _ _ _ hj).trans (reg_modLink u _ _ _))

theorem reg_sendHello (u : Blk) (k : Nat) : u.sendHello.reg k = u.helloOut.reg k := rfl

theorem disarmAll_reg (u : Blk) {j : Nat} (hj : j % 0x1000 ≠ 0x1C) : u.disarmAll.reg j = u.reg j := by
  unfold Blk.disarmAll
  refine List.foldlRecOn _ _ (motive := fun v : Blk => v.reg j = u.reg j) rfl fun v hv e he => ?_
  have hkey : j ≠ e.1 := by
    rintro rfl
    exact hj (by simpa using (List.mem_filter.mp he).2)
  exact (reg_setReg_ne v 0 hkey).trans hv

@[simp] theorem disarmAll_idn (u : Blk) : u.disarmAll.idn = u.idn := foldl_keeps Blk.idn _ _ _ (fun _ _ => rfl)

/-! ### The change of debug mode -/

theorem unsent_dbg : Unsent R.BLK_DBG :=
  ⟨by decide, fun p => by simp only [R.BLK_DBG, R.SCH_LATE, inst]; omega, by decide⟩

/-- Debug mode is turned to `b`: the register, the record and M3 (R389, R403). -/
def Blk.debugNoted (u : Blk) (b : Bool) : Blk :=
  ((u.setN R.BLK_DBG b.toNat).report rkDebugMode .dflt (pay [fd 0x24 1 b.toNat])).extend 3 (leBytes 1 b.toNat)

/-- What a change of debug mode does before a leaf says hello again: leaving it disarms every injection (R392). -/
def Blk.debugTurned (u : Blk) (b : Bool) : Blk := if b then u.debugNoted b else (u.debugNoted b).disarmAll

section

variable {u : Blk} {b : Bool}

theorem debugNoted_keeps : (u.debugNoted b).clk = u.clk ∧ (u.debugNoted b).reg R.BLK_DBG = BitVec.ofNat 32 b.toNat ∧
    (u.debugNoted b).idn.m 3 = sha384 (digestBytes (u.idn.m 3) ++ leBytes 1 b.toNat) := by
  have hcore := (report_core (u.setN R.BLK_DBG b.toNat) rkDebugMode .dflt (pay [fd 0x24 1 b.toNat])).trans (setN_core u _ _)
  refine ⟨(clk_extend _ _ _).trans (clk_of_core hcore), ?_, ?_⟩
  · exact (reg_extend _ _ _ _).trans ((report_reg _ _ _ _ unsent_dbg.1).trans (reg_setReg_same u _ _))
  · rw [← idn_of_core hcore]
    exact extend_m_same _ 3 _

theorem debugTurned_keeps : (u.debugTurned b).clk = u.clk ∧ (u.debugTurned b).reg R.BLK_DBG = BitVec.ofNat 32 b.toNat ∧
    (u.debugTurned b).idn.m 3 = sha384 (digestBytes (u.idn.m 3) ++ leBytes 1 b.toNat) := by
  cases b with
  | true => exact debugNoted_keeps
  | false =>
    obtain ⟨hclk, hreg, hidn⟩ := debugNoted_keeps (u := u) (b := false)
    exact ⟨(disarmAll_clk _).trans hclk, (disarmAll_reg _ (by decide)).trans hreg, (congrArg (Identity.m · 3) (disarmAll_idn _)).trans hidn⟩

theorem debugSet_same (h : u.rb R.BLK_DBG 0 = b) : u.debugSet b = u := if_pos h

theorem debugSet_changed (h : u.rb R.BLK_DBG 0 ≠ b) : u.debugSet b = u.debugTurned b ∨ u.debugSet b = (u.debugTurned b).sendHello := by
  have hset : u.debugSet b = (match (u.debugTurned b).build with
    | .leaf => if (u.debugTurned b).pw.admitted then (u.debugTurned b).sendHello else u.debugTurned b
    | .tray => u.debugTurned b) := if_neg h
  rw [hset]
  split
  · split
    · exact .inr rfl
    · exact .inl rfl
  · exact .inl rfl

theorem debugSet_keeps (h : u.rb R.BLK_DBG 0 ≠ b) : (u.debugSet b).clk = u.clk ∧ (u.debugSet b).reg R.BLK_DBG = BitVec.ofNat 32 b.toNat ∧
    (u.debugSet b).idn.m 3 = sha384 (digestBytes (u.idn.m 3) ++ leBytes 1 b.toNat) := by
  obtain ⟨hclk, hreg, hidn⟩ := debugTurned_keeps (u := u) (b := b)
  obtain hset | hset := debugSet_changed h
  · rw [hset]
    exact ⟨hclk, hreg, hidn⟩
  · obtain ⟨kclk, kidn, -⟩ := sendHello_keeps (u.debugTurned b)
    rw [hset, kclk, kidn, reg_sendHello, helloOut_reg _ unsent_dbg]
    exact ⟨hclk, hreg, hidn⟩

end

theorem debugWrite_keyed (u : Blk) {w : W32} (h : fld w 16 16 = 0xDB60) : u.debugWrite w = u.debugSet (bit w 0) := if_pos h
theorem debugWrite_unkeyed (u : Blk) {w : W32} (h : fld w 16 16 ≠ 0xDB60) : u.debugWrite w = u := if_neg h

end Sys2Proof.Machine

namespace Sys2Proof.Slice0

open Sys2Proof.Machine

/-- Settles O48, by the two values of the index. -/
theorem measurementExtendHashes : Obligations.MeasurementExtendHashes := by
  intro s b w hopen u v
  have hbecomes : BlkBecomes b (.measurementExtend b w) s (u.extIdx w) := blkBecomes_of_host (f := fun u => u.extIdx w) rfl hopen
  refine ⟨fun h => extIdx_zero u h ▸ hbecomes, fun h => ?_⟩
  rw [extIdx_extends u h] at hbecomes
  exact hbecomes

/-- Settles O45: behind the key, the write that changes the state records it, extends M3, and may disarm and say hello, none of which touches these. -/
theorem debugModeNeedsItsKey : Obligations.DebugModeNeedsItsKey := by
  intro s b w hopen u
  have hbecomes : BlkBecomes b (.debugModeWrite b w) s (u.debugWrite w) := blkBecomes_of_host (f := fun u => u.debugWrite w) rfl hopen
  refine ⟨fun h => ?_, fun hkey hchange => ?_⟩
  · have hnone : u.debugWrite w = u := by
      by_cases hkey : fld w 16 16 = 0xDB60
      · rw [debugWrite_keyed u hkey]
        exact debugSet_same (h.resolve_left (not_not_intro hkey)).symm
      · exact debugWrite_unkeyed u hkey
    rwa [hnone] at hbecomes
  · rw [debugWrite_keyed u hkey] at hbecomes
    obtain ⟨hclk, hreg, hidn⟩ := debugSet_keeps (u := u) (Ne.symm hchange)
    refine ⟨_, hbecomes, hclk, ?_, ?_⟩
    · rw [hreg]
      cases bit w 0 <;> decide
    · rw [hidn]
      cases bit w 0 <;> rfl

end Sys2Proof.Slice0

/-! What holds flash work, through the identity's held work and the supply's levels (R369, R370, R377, R396). -/

namespace Sys2Proof.Machine

/-- Time, and what holds flash work back. -/
def Blk.holds (u : Blk) : Clock × Option Warning × Bool × Bool := (u.clk, u.pw.warning, u.pw.parked, u.pw.parkPend)

theorem holds_of_core {u v : Blk} (h : v.core = u.core) : v.holds = u.holds := by simp only [Blk.holds, clk_of_core h, pw_of_core h]
theorem holds_idn (u : Blk) (i : Identity) : ({ u with idn := i } : Blk).holds = u.holds := rfl
theorem holds_freshen (u : Blk) : u.freshen.holds = u.holds := rfl
theorem holds_extend (u : Blk) (n : Nat) (d : List Byte) : (u.extend n d).holds = u.holds := rfl
theorem clk_of_holds {u v : Blk} (h : v.holds = u.holds) : v.clk = u.clk := congrArg Prod.fst h

theorem bumpSeq_core (u : Blk) (p n : Nat) : (u.bumpSeq p n).core = u.core := setN_core u _ _

theorem idRefuse_core (u : Blk) (item detail : Nat) : (u.idRefuse item detail).core = u.core := (report_core _ _ _ _).trans (cause_core u _ _ _)

/-! ### Enrolment and the identity's held work -/

theorem takeCfg_holds (u : Blk) (c : CfgCopy) : (u.takeCfg c).holds = u.holds := (holds_extend _ _ _).trans (holds_idn u _)

theorem cfgWritten_holds (u : Blk) (c : CfgCopy) (flashOk : Bool) : (u.cfgWritten c flashOk).holds = u.holds := by
  simp only [Blk.cfgWritten, apply_ite Blk.holds, holds_of_core (report_core _ _ _ _), holds_of_core (bumpSeq_core _ _ _),
    holds_of_core (idRefuse_core _ _ _), takeCfg_holds, holds_idn, ite_self]

theorem chainWritten_holds (u : Blk) (l : List Byte) (flashOk : Bool) : (u.chainWritten l flashOk).holds = u.holds := by
  unfold Blk.chainWritten
  split
  · rfl
  · exact (holds_of_core (idRefuse_core _ 1 5)).trans (holds_idn u _)

theorem helloCheck_holds (u : Blk) : u.helloCheck.holds = u.holds := by
  obtain ⟨hclk, -, hwarning, hparked, hpend⟩ := helloCheck_keeps u
  simp only [Blk.holds, hclk, hwarning, hparked, hpend]

/-- The identity that an enrolment's flash write makes: the fresh key, its helper data, and no certificate (R396). -/
def Blk.enrolled (u : Blk) : Identity :=
  let key := Config.deviceKey u.fresh
  { u.idn with devPub := key, helper := some (sha384 (digestBytes key)), valid := true, secrets := true, chain := [] }

theorem enrollWrite_idn (u : Blk) : u.enrollWrite.idn = u.enrolled := idn_of_core (report_core { u.freshen with idn := u.enrolled } _ _ _)

theorem enrollWrite_holds (u : Blk) : u.enrollWrite.holds = u.holds :=
  (holds_of_core (report_core { u.freshen with idn := u.enrolled } _ _ _)).trans ((holds_idn u.freshen _).trans (holds_freshen u))

theorem idnResume_held {u : Blk} (h : u.flashWaits = true) : u.idnResume = u := if_pos h

theorem idnResume_holds (u : Blk) : u.idnResume.holds = u.holds := by
  unfold Blk.idnResume
  split
  · rfl
  · refine (foldl_keeps Blk.holds _ _ _ fun v work => ?_).trans (holds_idn u _)
    cases work with
    | config c => exact (cfgWritten_holds _ c _).trans (holds_freshen v)
    | chain l => exact (chainWritten_holds _ l _).trans (holds_freshen v)
    | enroll => exact (helloCheck_holds _).trans (enrollWrite_holds v)

section

variable {u : Blk}

theorem enroll_valid (h : u.idn.valid = true) : u.enroll = u := if_pos (by rw [h, Bool.true_or])

theorem enroll_waiting (h : u.idn.pending.contains .enroll = true) : u.enroll = u := if_pos (by rw [h, Bool.or_true])

theorem enroll_held (hvalid : u.idn.valid = false) (hnot : u.idn.pending.contains .enroll = false) (h : u.flashWaits = true) :
    u.enroll = u.idnHold .enroll u.idn.busy := by
  simp only [Blk.enroll, hvalid, hnot, h, Bool.or_self, Bool.false_eq_true, if_false, if_true]

theorem enroll_written (hvalid : u.idn.valid = false) (hnot : u.idn.pending.contains .enroll = false) (h : u.flashWaits = false) :
    u.enroll = u.enrollWrite.helloCheck := by
  simp only [Blk.enroll, hvalid, hnot, h, Bool.or_self, Bool.false_eq_true, if_false]

theorem enroll_written_keeps (hvalid : u.idn.valid = false) (hnot : u.idn.pending.contains .enroll = false) (h : u.flashWaits = false) :
    u.enroll.idn = u.enrolled ∧ u.enroll.clk = u.clk := by
  rw [enroll_written hvalid hnot h]
  exact ⟨(helloCheck_keeps _).2.1.trans (enrollWrite_idn u), clk_of_holds ((helloCheck_holds _).trans (enrollWrite_holds u))⟩

end

/-! ### Parking -/

theorem park_again {u : Blk} (h : u.pw.parked = true ∨ u.pw.parkPend = true) : u.park = u := if_pos (Bool.or_eq_true_iff.mpr h)

theorem unpark_holds (u : Blk) : u.unpark.holds = (u.clk, u.pw.warning, false, false) := holds_of_core (flashGo_core _)

/-! ### The supply's levels -/

/-- The supply code and its lowest, as the monitor takes a code above the reset level. -/
def Blk.codeTaken (u : Blk) (code rail : Nat) : Blk :=
  (u.supplyInput code rail).modReg R.PWR_MINCODE (fun m => BitVec.ofNat 32 (min code m.toNat))

theorem supplyInput_holds (u : Blk) (code rail : Nat) : (u.supplyInput code rail).holds = u.holds := rfl

section

variable {u : Blk} {code rail : Nat} {took : Bool}

theorem codeTaken_holds : (u.codeTaken code rail).holds = u.holds := (holds_of_core (modReg_core _ _ _)).trans (supplyInput_holds u _ _)

theorem codeTaken_warnLv : (u.codeTaken code rail).warnLv = u.warnLv :=
  congrArg (fld · 8 8) (reg_setReg_ne _ _ (show R.PWR_LEVELS ≠ R.PWR_MINCODE by decide))

theorem supplyCode_none (hnone : u.pw.warning = none) : u.supplyCode code rail took =
    if code ≤ u.warnLv then (u.codeTaken code rail).warningBegin code rail else u.codeTaken code rail := by
  have hwarning : (u.codeTaken code rail).pw.warning = none := (congrArg (fun x => x.2.1) codeTaken_holds).trans hnone
  rw [← codeTaken_warnLv (u := u) (code := code) (rail := rail)]
  unfold Blk.supplyCode
  extract_lets _ v
  rw [show v.pw.warning = none from hwarning]
  rfl

theorem supplyCode_warns (hnone : u.pw.warning = none) (h : code ≤ u.warnLv) :
    u.supplyCode code rail took = (u.codeTaken code rail).warningBegin code rail := (supplyCode_none hnone).trans (if_pos h)

theorem supplyCode_quiet (hnone : u.pw.warning = none) (h : u.warnLv < code) : u.supplyCode code rail took = u.codeTaken code rail :=
  (supplyCode_none hnone).trans (if_neg (Nat.not_le.mpr h))

end

theorem flashHold_holds (u : Blk) : u.flashHold.holds = u.holds := rfl
theorem reg_flashHold (u : Blk) (k : Nat) : u.flashHold.reg k = u.reg k := rfl

theorem warningBegin_holds (u : Blk) (code rail : Nat) : (u.warningBegin code rail).holds =
    (u.clk, some ⟨u.clk.tb1, u.clk.ival, code, u.railByte rail, false⟩, u.pw.parked, u.pw.parkPend) :=
  (flashHold_holds _).trans (holds_of_core (cause_core { u with pw := { u.pw with warning := some _ } } 0x14 0 0))

/-- Every build's page of the supply has a cause for a warning's start (R442). -/
theorem pwr_cause (b : Build) : Nat.testBit (pgCauses b 0x14) 0 = true := by cases b <;> decide

theorem warningBegin_cause (u : Blk) (code rail : Nat) : bit ((u.warningBegin code rail).reg (inst (0x14 * 0x1000 + H.PGCAUSE) 0)) 0 = true := by
  rw [Blk.warningBegin, reg_flashHold]
  exact bit_cause_same _ (pwr_cause _) (by decide) (by decide) (by decide)

/-! ### A cold reset at the reset level -/

theorem cold_pw_code (u : Blk) (source : Nat) : (u.cold source).pw.code = u.pw.code := rfl

@[simp] theorem outputsFall_core (l was : Leaf) : (l.outputsFall was).u.core = l.u.core := by
  unfold Leaf.outputsFall
  extract_lets l1 l2 l3
  have h1 : l1.u.core = l.u.core := by
    simp only [l1, Leaf.hevPin, apply_ite Leaf.u, apply_ite Blk.core, Leaf.blk_u, emit_core, ite_self]
  have h2 : l2.u.core = l.u.core := by
    simp only [l2, apply_ite Leaf.u, apply_ite Blk.core, Leaf.blk_u, emit_core, h1, ite_self]
  have h3 : l3.u.core = l2.u.core := foldl_keeps (fun v : Leaf => v.u.core) _ _ _ (fun _ _ => rfl)
  exact Eq.trans (b := l3.u.core) (foldl_keeps (fun v : Leaf => v.u.core) _ _ _ (fun _ _ => rfl)) (h3.trans h2)

/-- A cold reset keeps the code that the supply's monitor reads (R373). -/
theorem leafColdReset_code (l : Leaf) (source : Nat) : (l.coldReset source).u.pw.code = l.u.pw.code := by
  have hcore : (l.coldReset source).u.core = (l.u.cold source).core :=
    (report_core _ _ _ _).trans (outputsFall_core { l.inputs with u := l.u.cold source } l)
  rw [pw_of_core hcore, cold_pw_code]

section

variable {l : Leaf} {code : Nat} {took : Bool}

theorem leafSupply_reset (hheld : l.u.held = none) (h : code ≤ l.u.rstLv) :
    l.supply code took = (l.blk (fun u => u.supplyInput code 0)).coldReset 2 := by
  have hlevel : l.u.atResetLevel code = true := decide_eq_true h
  simp only [Leaf.supply, hheld, hlevel, reduceCtorEq, if_false, if_true]

theorem leafSupply_above (hheld : l.u.held = none) (h : l.u.rstLv < code) :
    l.supply code took = l.blk (fun u => (u.supplyCode code 0 took).idnResume) := by
  have hlevel : l.u.atResetLevel code = false := decide_eq_false (Nat.not_le.mpr h)
  simp only [Leaf.supply, hheld, hlevel, reduceCtorEq, Bool.false_eq_true, if_false]

end

end Sys2Proof.Machine

namespace Sys2Proof.Slice0

open Sys2Proof.Machine

/-- Settles O44: a park that is on or due is found at once, and what goes on after an unpark lets no park begin. -/
theorem parkingIsIdempotent : Obligations.ParkingIsIdempotent := by
  intro s b hopen u
  constructor
  · intro h
    have hbecomes : BlkBecomes b (.park b) s u.park := blkBecomes_of_host (f := fun u => u.park) rfl hopen
    rwa [park_again h] at hbecomes
  · have hholds : u.unpark.idnResume.holds = (u.clk, u.pw.warning, false, false) := (idnResume_holds _).trans (unpark_holds u)
    simp only [Blk.holds, Prod.mk.injEq] at hholds
    obtain ⟨hclk, -, hparked, hpend⟩ := hholds
    exact ⟨_, blkBecomes_of_host (f := fun u => u.unpark.idnResume) rfl hopen, hparked, hpend, hclk⟩

/-- Settles O49, by whether the identity is valid, whether flash work is held, and whether an enrolment waits already. -/
theorem enrolmentOnlyWithoutIdentity : Obligations.EnrolmentOnlyWithoutIdentity := by
  intro s b hopen u
  have hbecomes : BlkBecomes b (.enroll b) s u.enroll := blkBecomes_of_host (f := fun u => u.enroll) rfl hopen
  refine ⟨fun hvalid => ?_, fun hvalid hnot hfree => ?_, fun hvalid hheld => ?_⟩
  · rwa [enroll_valid hvalid] at hbecomes
  · obtain ⟨hidn, hclk⟩ := enroll_written_keeps hvalid hnot hfree
    exact ⟨_, hbecomes, by rw [hidn]; rfl, by rw [hidn]; rfl, by rw [hidn]; rfl, hclk⟩
  · cases hnot : u.idn.pending.contains .enroll with
    | true =>
      rw [enroll_waiting hnot] at hbecomes
      exact ⟨u, hbecomes, hvalid, List.contains_iff_mem.mp hnot, rfl⟩
    | false =>
      rw [enroll_held hvalid hnot hheld] at hbecomes
      exact ⟨_, hbecomes, hvalid, List.mem_append_right _ (List.mem_singleton.mpr rfl), rfl⟩

/-- Settles O43, by the three ranges of the code: the cold reset at the reset level, the warning's start, and the code taken alone. -/
theorem supplyLevelsDecide : Obligations.SupplyLevelsDecide := by
  intro s code rail hfree u
  have hbecomes : LeafBecomes (.supplyWarningStart .leaf code rail) s (s.leaf.supply code.toNat true) := rfl
  refine ⟨fun hreset => ?_, fun habove hwarn hnone => ?_, fun habove hquiet hnone => ?_⟩
  · rw [leafSupply_reset hfree hreset] at hbecomes
    obtain ⟨start, -⟩ := leafColdReset_start (s.leaf.blk (fun u => u.supplyInput code.toNat 0)) 2
    exact ⟨_, hbecomes, start.held, start.tb1, leafColdReset_code _ 2, start.cause⟩
  · have hholds := warningBegin_holds (u.codeTaken code.toNat 0) code.toNat 0
    simp only [Blk.holds, Prod.mk.injEq] at hholds
    obtain ⟨hclk, hwarning, -, -⟩ := hholds
    have hwaits : ((u.codeTaken code.toNat 0).warningBegin code.toNat 0).flashWaits = true := by
      simp only [Blk.flashWaits, hwarning, Option.isSome_some, Bool.true_or]
    rw [leafSupply_above hfree habove, Leaf.blk, supplyCode_warns hnone hwarn, idnResume_held hwaits] at hbecomes
    refine ⟨_, hbecomes, hclk.trans (clk_of_holds codeTaken_holds), ?_, ?_, warningBegin_cause _ _ _⟩
    · rw [hwarning]
      rfl
    · intro w hw
      cases hwarning.symm.trans hw
      rfl
  · have hholds := (idnResume_holds (u.codeTaken code.toNat 0)).trans codeTaken_holds
    simp only [Blk.holds, Prod.mk.injEq] at hholds
    obtain ⟨hclk, hwarning, -, -⟩ := hholds
    rw [leafSupply_above hfree habove, Leaf.blk, supplyCode_quiet hnone hquiet] at hbecomes
    exact ⟨_, hbecomes, hclk, hwarning.trans hnone⟩

end Sys2Proof.Slice0
